-- ==== Sys2Proof/Word.lean ====
section
/-! DEFINITION. The word types of the CSL-9140 and their plainest arithmetic: 64-bit registers (R4), bytes,
256-bit vector registers (R87) and physical addresses of 44 bits (R478), kept as `Nat` keys where memory is indexed. -/
namespace Sys2Proof

/-- A 64-bit register or memory word (R4). -/
abbrev Word := BitVec 64
/-- One byte. -/
abbrev Byte := BitVec 8
/-- A 256-bit vector register (R87). -/
abbrev VWord := BitVec 256
/-- A cell ID (R13): 12 bits. -/
abbrev CellId := BitVec 12
/-- An initiator ID (R58): bits 9:3 the endpoint, bits 2:0 the unit. -/
abbrev InitId := BitVec 10

end Sys2Proof
end

