-- ==== Sys2Proof/Syntax.lean ====
section
/-! DEFINITION. The commands of the CSL-9140 as a block: one constructor of `Instr` for each row of the table of
operations and events (opcode_table.json), with the operands the command carries from outside, and the plain data
types those operands are made of. -/
namespace Sys2Proof

/-- Who makes an access (R13, R58): the initiator ID, the privilege level of an A-core or S-core, the cell ID the
transaction carries and the debug peek attribute. -/
structure Access where
  /-- initiator ID: endpoint in bits 9:3, unit in bits 2:0 (R58) -/
  init : InitId
  /-- privilege level of the accessing core; 0 for an initiator that has none -/
  level : BitVec 2
  /-- the cell the access is made for; `none` for an access that carries no cell -/
  cell : Option CellId
  /-- the peek attribute (R433) -/
  peek : Bool
deriving DecidableEq, Repr

/-- One half or the whole of a register (R4): a naturally aligned 64-bit access, or a 32-bit one of either half. -/
inductive Half where
  /-- a 64-bit access -/
  | full
  /-- a 32-bit access of bits 31:0 -/
  | low
  /-- a 32-bit access of bits 63:32 -/
  | high
deriving DecidableEq, Repr

/-- A core: 0 to 127 are core k of CLU_n as n × 8 + k, 128 and 129 the S-cores of Mladette pair 0 and 1 (R106). -/
abbrev CoreId := Fin 130
/-- A cluster CLU_0 to CLU_15. -/
abbrev CluId := Fin 16

/-- The source of a move (R83, R94, R95): an immediate already extended to 64 bits, or a 9-bit move address. -/
inductive Src where
  | imm (v : Word)
  | port (a : BitVec 9)
deriving DecidableEq, Repr

/-- Where a slot stands among the moves of its word that are transported one after the other (R102): the only move
of its word, the first of a pair, or the last of a pair, which ends the word. -/
inductive Pos where
  | only | first | last
deriving DecidableEq, Repr

/-- The slot of a word that a move or trigger command performs (R94 to R99). -/
structure Slot where
  src : Src
  guard : BitVec 4 := 0
  ext : BitVec 5 := 0
  pos : Pos := .only
  /-- slot B of a short word -/
  slotB : Bool := false
  /-- the word is a long word -/
  long : Bool := false
deriving DecidableEq, Repr

/-- One of the two ALUs of a core (R115). -/
abbrev AluId := Fin 2

/-- What a transaction asks of its target (R58, R122, R123). -/
inductive ReqKind where
  | read | write | fetch | swap | fadd | cas | lr | sc
deriving DecidableEq, Repr

/-- A request that an initiator hands to its source port or to a slice (R58). -/
structure Req where
  init : InitId
  level : BitVec 2
  cell : Option CellId
  stream : BitVec 4
  tag : BitVec 10
  peek : Bool
  kind : ReqKind
  addr : BitVec 44
  size : Nat
  data : List Byte
  cmp : Word
deriving DecidableEq, Repr

/-- Which word of which packet travels on a lane (R61): the transaction, whether it is the answer's packet, and the word's
number in the packet. -/
structure PacketWord where
  txn : Nat
  answer : Bool
  word : Nat
deriving DecidableEq, Repr

/-- A word on a lane: its 64 bits, and the packet's word that it is; `none` for a word of no packet. -/
structure LinkWord where
  bits : Word
  part : Option PacketWord := none
deriving DecidableEq, Repr

/-- An inbound PCIe memory request (R235, R444): port, requester ID, traffic class, PASID if it carries the prefix, the
AT field, address, whether it is a write, its bytes and its length. To a port in endpoint role the address is the offset
into BAR0 (R445). -/
structure PcieReq where
  port : Fin 4
  rid : BitVec 16
  tc : Fin 8
  pasid : Option (BitVec 20)
  at2 : BitVec 2
  addr : BitVec 64
  write : Bool
  data : List Byte
  len : Nat
deriving DecidableEq, Repr

/-- What the check of read data from an HBM stack finds (R292). -/
inductive EccResult where
  | clean
  /-- a correctable error in this symbol -/
  | corrected (symbol : BitVec 8)
  | uncorrectable
deriving DecidableEq, Repr

/-- What a PCIe port reports (R448). -/
inductive PcieEvent where
  | linkUp (width : BitVec 5) (rate : BitVec 3)
  | linkDown (commanded : Bool)
  | aerCorr
  | aerUncorr
deriving DecidableEq, Repr

/-- What a UART receiver reports (R448). -/
inductive UartEvent where
  | rx (b : Byte)
  | idle
  | error
deriving DecidableEq, Repr

/-- What I3C_1 reports (R448). -/
inductive I3cEvent where
  | done (rx : List Byte)
  | ibi (b : Byte)
deriving DecidableEq, Repr

/-- The commands (opcode_table.json), one constructor per row, in the order of the table. -/
inductive Instr where
  /-- REGISTER_WRITE (R484). A write to a device or system register that has no row of its own, judged field by field against its access codes, locks and expert control. -/
  | registerWrite (a : Access) (pa : BitVec 44) (h : Half) (v : Word)
  /-- RC_READ (R3). A read of a register holding RC fields returns them and clears them, except under the peek attribute or outside the half read. -/
  | rcRead (a : Access) (pa : BitVec 44) (h : Half)
  /-- EXPERT_EN_WRITE (R9). A write of a block's EXPERT_EN bit, refused without L2 and composed permission, returning expert fields to derived values when cleared. -/
  | expertEnWrite (a : Access) (pa : BitVec 44) (h : Half) (v : Word)
  /-- CANARY_SAMPLE (R19). Every 250 ns a canary launches a test token and compares its delay with WARN and FLOOR of its domain. -/
  | canarySample (canary : BitVec 8) (pm : BitVec 10)
  /-- SUPPLY_LOWER (R21). After 64 consecutive samples below 85 % of the floor the power controller lowers the domain supply by 5 mV. -/
  | supplyLower (d : Fin 32)
  /-- PS_CHANGE_DONE (R22). A change between RUN states completes after supply and bias reach the new state, ending the larger-floor period. -/
  | psChangeDone (d : Fin 39)
  /-- OP_ABORT_REQUEST (R31). A write of ABORT_REQ to a block's operation status requests abort, decided against completion by a mutual-exclusion element. -/
  | opAbortRequest (a : Access) (pa : BitVec 44) (h : Half) (v : Word)
  /-- COMP_START (R45). START on COMP_CTRL begins a full or partial image load, or is refused for its source region or party. -/
  | compStart (a : Access) (v : Word)
  /-- COMP_CHECK_DONE (R44). The engine finishes reading and checking rules 0x01-0x0A of a full image and moves to VALIDATING or ends in ERROR. -/
  | compCheckDone
  /-- COMP_VALIDATE_DONE (R44). The engine finishes evaluating all further validation rules and moves to APPLYING or rejects the image. -/
  | compValidateDone
  /-- COMP_SOURCE_POISON (R42). Poison read from the source region after checking ends the load in ERROR with CAUSE 3 at once. -/
  | compSourcePoison
  /-- COMP_APPLY_DONE (R45). Every record has been written to the shadow tables and the engine enters APPLIED. -/
  | compApplyDone
  /-- COMP_SEAL (R46). SEAL by Mladette firmware makes every shadow table live in one indivisible change. -/
  | compSeal (a : Access) (v : Word)
  /-- FABRIC_STRUCT_LIVE (R81). Once outstanding transactions have completed or timed out, the switch points take the composed structure live and resume issue. -/
  | fabricStructLive
  /-- COMP_STAGE_DONE (R45). A partial image passes its rules and its target records are written to the shadow tables, entering STAGED. -/
  | compStageDone
  /-- COMP_QUIESCE (R49). QUIESCE by the hypervisor stops readying, holds events and closes jobs of the target cells, or is refused. -/
  | compQuiesce (a : Access) (v : Word)
  /-- COMP_QUIESCE_DONE (R49). All target cells become quiet once their transactions complete, entering QUIESCED. -/
  | compQuiesceDone
  /-- COMP_COMMIT (R50). COMMIT makes the shadow configuration of the target cells live and starts TLB, predictor and SLC cleaning. -/
  | compCommit (a : Access) (v : Word)
  /-- COMP_COMMIT_DONE (R50). The commit cleaning ends and the engine enters COMMITTED. -/
  | compCommitDone
  /-- COMP_RELEASE (R51). RELEASE resumes or starts the tasks of target cells and delivers or drops held events. -/
  | compRelease (a : Access) (v : Word)
  /-- COMP_DISCARD (R45). DISCARD drops the staged image and releases quiesced cells unchanged. -/
  | compDiscard (a : Access) (v : Word)
  /-- FABRIC_TRANSACTION_ISSUE (R62). A source port sends a transaction on a Pass or the packet plane, or answers it itself. -/
  | fabricTransactionIssue (ep : BitVec 7) (r : Option Req)
  /-- FABRIC_TRANSACTION_ARRIVAL (R68). A transaction reaches its target endpoint and is performed there. -/
  | fabricTransactionArrival (id : Nat)
  /-- FABRIC_RESPONSE (R78). A response or completion reaches its source port and is delivered, or discarded if its timeout already won. -/
  | fabricResponse (id : Nat)
  /-- FABRIC_TIMEOUT (R77). An outstanding transaction reaches DEVICE_TIMEOUT and the source port answers TIMEOUT. -/
  | fabricTimeout (id : Nat)
  /-- LINK_WORD_RECEIVE (R72). A lane word arrives at a link receiver and is checked against its CRC, forwarded or replayed. -/
  | linkWordReceive (sp : BitVec 6) (port : BitVec 4) (lane : BitVec 5) (idx : Nat) (w : LinkWord) (crc : Byte)
  /-- FAB_ERR_INJECT (R72). Arming FAB_ERR_INJECT corrupts the CRC of the next word sent on the chosen lane. -/
  | fabErrInject (a : Access) (v : Word)
  /-- WORD_DECODE (R98). A word is decoded, checked for legality, pairing, repeat hazards and privilege, and predicted. -/
  | wordDecode (c : CoreId)
  /-- MOVE (R83). A plain move copies a source to a register or operand port in the transport of its word. -/
  | move (c : CoreId) (m : Slot) (dst : BitVec 9)
  /-- UNIT_RESULT (R85). An operation of a unit completes and its result reaches the result port and any predicate. -/
  | unitResult (c : CoreId) (unit : BitVec 9)
  /-- T_ADD (R115). ALU addition of O and v into Q. -/
  | tAdd (c : CoreId) (u : AluId) (m : Slot)
  /-- T_SUB (R115). ALU subtraction of v from O into Q. -/
  | tSub (c : CoreId) (u : AluId) (m : Slot)
  /-- T_AND (R115). ALU bitwise AND. -/
  | tAnd (c : CoreId) (u : AluId) (m : Slot)
  /-- T_OR (R115). ALU bitwise OR. -/
  | tOr (c : CoreId) (u : AluId) (m : Slot)
  /-- T_XOR (R115). ALU bitwise XOR. -/
  | tXor (c : CoreId) (u : AluId) (m : Slot)
  /-- T_ANDN (R115). ALU AND with the complement of v. -/
  | tAndn (c : CoreId) (u : AluId) (m : Slot)
  /-- T_SHL (R115). ALU shift left by v[5:0]. -/
  | tShl (c : CoreId) (u : AluId) (m : Slot)
  /-- T_SHR (R115). ALU logical shift right by v[5:0]. -/
  | tShr (c : CoreId) (u : AluId) (m : Slot)
  /-- T_SAR (R115). ALU arithmetic shift right by v[5:0]. -/
  | tSar (c : CoreId) (u : AluId) (m : Slot)
  /-- T_ROR (R115). ALU rotate right by v[5:0]. -/
  | tRor (c : CoreId) (u : AluId) (m : Slot)
  /-- T_MIN (R115). ALU signed minimum. -/
  | tMin (c : CoreId) (u : AluId) (m : Slot)
  /-- T_MAX (R115). ALU signed maximum. -/
  | tMax (c : CoreId) (u : AluId) (m : Slot)
  /-- T_CMPEQ (R115). ALU compare equal into Q and optionally a predicate. -/
  | tCmpeq (c : CoreId) (u : AluId) (m : Slot)
  /-- T_CMPNE (R115). ALU compare not equal into Q and optionally a predicate. -/
  | tCmpne (c : CoreId) (u : AluId) (m : Slot)
  /-- T_CMPLT (R115). ALU signed compare less than. -/
  | tCmplt (c : CoreId) (u : AluId) (m : Slot)
  /-- T_CMPGE (R115). ALU signed compare greater or equal. -/
  | tCmpge (c : CoreId) (u : AluId) (m : Slot)
  /-- T_CMPLTU (R115). ALU unsigned compare less than. -/
  | tCmpltu (c : CoreId) (u : AluId) (m : Slot)
  /-- T_CMPGEU (R115). ALU unsigned compare greater or equal. -/
  | tCmpgeu (c : CoreId) (u : AluId) (m : Slot)
  /-- T_MINU (R115). ALU unsigned minimum. -/
  | tMinu (c : CoreId) (u : AluId) (m : Slot)
  /-- T_MAXU (R115). ALU unsigned maximum. -/
  | tMaxu (c : CoreId) (u : AluId) (m : Slot)
  /-- T_TST (R115). ALU test of O AND v against zero. -/
  | tTst (c : CoreId) (u : AluId) (m : Slot)
  /-- T_EXTRACT (R116). BFU extracts a zero-extended bit field. -/
  | tExtract (c : CoreId) (m : Slot)
  /-- T_EXTRACTS (R116). BFU extracts a sign-extended bit field. -/
  | tExtracts (c : CoreId) (m : Slot)
  /-- T_INSERT (R116). BFU inserts a field of v into P. -/
  | tInsert (c : CoreId) (m : Slot)
  /-- T_CLZ (R116). BFU counts leading zero bits. -/
  | tClz (c : CoreId) (m : Slot)
  /-- T_CTZ (R116). BFU counts trailing zero bits. -/
  | tCtz (c : CoreId) (m : Slot)
  /-- T_POPC (R116). BFU counts one bits. -/
  | tPopc (c : CoreId) (m : Slot)
  /-- T_PERM (R116). BFU permutes the bytes of v by the selectors in O. -/
  | tPerm (c : CoreId) (m : Slot)
  /-- T_MUL (R117). MUL signed 128-bit product. -/
  | tMul (c : CoreId) (m : Slot)
  /-- T_MULU (R117). MUL unsigned 128-bit product. -/
  | tMulu (c : CoreId) (m : Slot)
  /-- T_MULSU (R117). MUL signed by unsigned 128-bit product. -/
  | tMulsu (c : CoreId) (m : Slot)
  /-- T_DIV (R118). DIV signed division, a long operation. -/
  | tDiv (c : CoreId) (m : Slot)
  /-- T_DIVU (R118). DIV unsigned division, a long operation. -/
  | tDivu (c : CoreId) (m : Slot)
  /-- T_LD (R119). LSU load of SIZE bytes at O + v, accepted when it can complete. -/
  | tLd (c : CoreId) (m : Slot)
  /-- T_ST (R119). LSU store of the low SIZE bytes of P into the store buffer. -/
  | tSt (c : CoreId) (m : Slot)
  /-- T_LDPI (R119). LSU load at O followed by post-increment of O. -/
  | tLdpi (c : CoreId) (m : Slot)
  /-- T_STPI (R119). LSU store at O followed by post-increment of O. -/
  | tStpi (c : CoreId) (m : Slot)
  /-- T_LR (R123). LSU load that takes a reservation on its line. -/
  | tLr (c : CoreId) (m : Slot)
  /-- T_SC (R123). LSU store-conditional that succeeds only while the reservation holds. -/
  | tSc (c : CoreId) (m : Slot)
  /-- T_SWAP (R122). LSU indivisible swap. -/
  | tSwap (c : CoreId) (m : Slot)
  /-- LSU_T_FADD (R122). LSU indivisible fetch-and-add. -/
  | lsuTFadd (c : CoreId) (m : Slot)
  /-- T_CAS (R122). LSU indivisible compare-and-swap. -/
  | tCas (c : CoreId) (m : Slot)
  /-- T_BR (R124). BRU relative branch, resolved at transport against its prediction. -/
  | tBr (c : CoreId) (m : Slot)
  /-- T_BRI (R124). BRU absolute branch to v, updating the indirect-target table when indirect. -/
  | tBri (c : CoreId) (m : Slot)
  /-- T_CALL (R124). BRU relative call writing LINK and pushing the return stack. -/
  | tCall (c : CoreId) (m : Slot)
  /-- T_CALLI (R124). BRU absolute call writing LINK and pushing the return stack. -/
  | tCalli (c : CoreId) (m : Slot)
  /-- T_RET (R124). BRU return to v, predicted from the return stack. -/
  | tRet (c : CoreId) (m : Slot)
  /-- T_RSFLUSH (R151). BRU clears the return stack. -/
  | tRsflush (c : CoreId) (m : Slot)
  /-- FPU_T_FADD (R125). FPU addition. -/
  | fpuTFadd (c : CoreId) (m : Slot)
  /-- T_FSUB (R125). FPU subtraction. -/
  | tFsub (c : CoreId) (m : Slot)
  /-- T_FMUL (R125). FPU multiplication. -/
  | tFmul (c : CoreId) (m : Slot)
  /-- T_FMA (R125). FPU fused multiply-add. -/
  | tFma (c : CoreId) (m : Slot)
  /-- T_FDIV (R125). FPU division, a long operation. -/
  | tFdiv (c : CoreId) (m : Slot)
  /-- T_FSQRT (R125). FPU square root, a long operation. -/
  | tFsqrt (c : CoreId) (m : Slot)
  /-- T_FMIN (R125). FPU minimumNumber. -/
  | tFmin (c : CoreId) (m : Slot)
  /-- T_FMAX (R125). FPU maximumNumber. -/
  | tFmax (c : CoreId) (m : Slot)
  /-- T_FCVTI (R125). FPU conversion to signed 64-bit integer. -/
  | tFcvti (c : CoreId) (m : Slot)
  /-- T_FCVTF (R125). FPU conversion of a signed integer to floating point. -/
  | tFcvtf (c : CoreId) (m : Slot)
  /-- T_FCVTP (R125). FPU conversion between precisions. -/
  | tFcvtp (c : CoreId) (m : Slot)
  /-- T_FCMPEQ (R125). FPU quiet compare equal. -/
  | tFcmpeq (c : CoreId) (m : Slot)
  /-- T_FCMPLT (R125). FPU signalling compare less than. -/
  | tFcmplt (c : CoreId) (m : Slot)
  /-- T_FCMPLE (R125). FPU signalling compare less or equal. -/
  | tFcmple (c : CoreId) (m : Slot)
  /-- T_FCMPUN (R125). FPU quiet unordered compare. -/
  | tFcmpun (c : CoreId) (m : Slot)
  /-- FPU_CSR_WRITE (R126). A move into FPU.CSR waits for earlier FPU and VEC operations and then writes rounding, flags and traps. -/
  | fpuCsrWrite (c : CoreId) (m : Slot)
  /-- T_VADD (R128). VEC lane addition. -/
  | tVadd (c : CoreId) (m : Slot)
  /-- T_VSUB (R128). VEC lane subtraction. -/
  | tVsub (c : CoreId) (m : Slot)
  /-- T_VMUL (R128). VEC lane multiplication. -/
  | tVmul (c : CoreId) (m : Slot)
  /-- T_VFMA (R128). VEC lane fused multiply-add. -/
  | tVfma (c : CoreId) (m : Slot)
  /-- T_VDOT (R128). VEC integer dot product accumulate. -/
  | tVdot (c : CoreId) (m : Slot)
  /-- T_VPERM (R128). VEC byte permute. -/
  | tVperm (c : CoreId) (m : Slot)
  /-- T_VMIN (R128). VEC lane minimum. -/
  | tVmin (c : CoreId) (m : Slot)
  /-- T_VMAX (R128). VEC lane maximum. -/
  | tVmax (c : CoreId) (m : Slot)
  /-- T_VAND (R128). VEC bitwise AND. -/
  | tVand (c : CoreId) (m : Slot)
  /-- T_VOR (R128). VEC bitwise OR. -/
  | tVor (c : CoreId) (m : Slot)
  /-- T_VXOR (R128). VEC bitwise XOR. -/
  | tVxor (c : CoreId) (m : Slot)
  /-- T_VSPLAT (R128). VEC broadcast of lane 0. -/
  | tVsplat (c : CoreId) (m : Slot)
  /-- T_VRED (R129). VEC reduction of all lanes into lane 0 by a fixed tree. -/
  | tVred (c : CoreId) (m : Slot)
  /-- T_VGATHER (R130). VEC gather of lane elements through the LSU, a long operation. -/
  | tVgather (c : CoreId) (m : Slot)
  /-- RC_WRITE (R131). A move into CTX.RC sets the repeat count, saturating at 4,096. -/
  | rcWrite (c : CoreId) (m : Slot)
  /-- T_REP (R132). Repeat prefix making the following word execute RC times. -/
  | tRep (c : CoreId) (m : Slot)
  /-- T_LOOP (R135). Counted branch that decrements RC and branches while RC is at least 2. -/
  | tLoop (c : CoreId) (m : Slot)
  /-- T_SAVE_LO (R199). Explicit save of the lower half-context into a node of the cell's pool. -/
  | tSaveLo (c : CoreId) (m : Slot)
  /-- T_SAVE_HI (R199). Explicit save of the upper half-context into a node of the cell's pool. -/
  | tSaveHi (c : CoreId) (m : Slot)
  /-- T_LOAD_LO (R200). Explicit load of the lower half-context and hold from a node into the save set. -/
  | tLoadLo (c : CoreId) (m : Slot)
  /-- T_LOAD_HI (R200). Explicit load of the upper half-context from a node. -/
  | tLoadHi (c : CoreId) (m : Slot)
  /-- T_STM (R203). S-core store of the registers of a mask. -/
  | tStm (c : CoreId) (m : Slot)
  /-- T_LDM (R203). S-core load of the registers of a mask. -/
  | tLdm (c : CoreId) (m : Slot)
  /-- T_FEED8 (R373). CHK feeds one byte into the selected context. -/
  | tFeed8 (c : CoreId) (m : Slot)
  /-- T_FEED16 (R373). CHK feeds two bytes into the selected context. -/
  | tFeed16 (c : CoreId) (m : Slot)
  /-- T_FEED32 (R373). CHK feeds four bytes into the selected context. -/
  | tFeed32 (c : CoreId) (m : Slot)
  /-- T_INIT (R370). CHK sets the running value to INIT, claiming the context where permitted. -/
  | tInit (c : CoreId) (m : Slot)
  /-- CHK_VAL_WRITE (R370). A move into CHK.VAL writes the running value, claiming the context where permitted. -/
  | chkValWrite (c : CoreId) (m : Slot)
  /-- CHK_EXP_WRITE (R378). A move into CHK.EXP writes the expected value with byte parity, claiming the context where permitted. -/
  | chkExpWrite (c : CoreId) (m : Slot)
  /-- T_CMP (R377). CHK compares the final value with EXP and reports a match or mismatch. -/
  | tCmp (c : CoreId) (m : Slot)
  /-- T_ABORT (R376). CHK requests abort of a feed in progress. -/
  | tAbort (c : CoreId) (m : Slot)
  /-- TRC_STIMULUS (R436). A move into a stimulus port offers a value for one STP packet, emitted, dropped or discarded. -/
  | trcStimulus (c : CoreId) (port : BitVec 6) (m : Slot)
  /-- T_FENCE_S (R250). FENCE.S orders earlier stores ahead of later stores. -/
  | tFenceS (c : CoreId) (m : Slot)
  /-- T_FENCE_L (R250). FENCE.L waits for earlier loads and orders them ahead of later accesses. -/
  | tFenceL (c : CoreId) (m : Slot)
  /-- T_FENCE_F (R250). FENCE.F waits for earlier normal stores and loads and orders all accesses. -/
  | tFenceF (c : CoreId) (m : Slot)
  /-- T_FENCE_D (R250). FENCE.D additionally waits for every earlier device access to be performed. -/
  | tFenceD (c : CoreId) (m : Slot)
  /-- BARRIER_WAIT_END (R250). The accesses a barrier waits for are performed and the barrier word completes. -/
  | barrierWaitEnd (c : CoreId)
  /-- T_SRRD (R139). Read of a system register into SYS.Q. -/
  | tSrrd (c : CoreId) (m : Slot)
  /-- T_SRWR (R139). Write of a system register that has no row of its own. -/
  | tSrwr (c : CoreId) (m : Slot)
  /-- SYS_TIME_READ (R140). A read of SYS.TIME crosses the timebase Ford and returns the counter. -/
  | sysTimeRead (c : CoreId) (m : Slot) (dst : BitVec 9)
  /-- T_RETURN (R180). Return from level c through SRc, or ILLEGAL_RETURN when its checks fail. -/
  | tReturn (c : CoreId) (m : Slot)
  /-- T_GATE (R182). Gate call to L1, L2 or L3 through the gate's descriptor. -/
  | tGate (c : CoreId) (k : Fin 3) (m : Slot)
  /-- T_SEAL (R172). Validates a descriptor table and copies it into the descriptor store. -/
  | tSeal (c : CoreId) (m : Slot)
  /-- T_JOBEND (R310). Stamps the timebase and sends a close of the task's open job to the deadline monitor. -/
  | tJobend (c : CoreId) (m : Slot)
  /-- T_WAIT (R205). The task consumes a pending event or gives up its core until its next event. -/
  | tWait (c : CoreId) (m : Slot)
  /-- T_BREAK (R427). Breakpoint that halts the cell or raises class DEBUG. -/
  | tBreak (c : CoreId) (m : Slot)
  /-- EXCEPTION_ENTRY (R178). A synchronous exception runs the 12-step response and enters its target level, passing or escalating as needed. -/
  | exceptionEntry (c : CoreId)
  /-- INTERRUPT_TAKEN (R177). A held asynchronous interrupt becomes takeable and is entered at its target level. -/
  | interruptTaken (c : CoreId)
  /-- PREEMPTION_TAKEN (R156). A core takes a preemption for the scheduler and saves the running task into its node. -/
  | preemptionTaken (c : CoreId)
  /-- NIW_WINDOW_END (R179). The no-interrupt window count runs out and IE becomes 1. -/
  | niwWindowEnd (c : CoreId)
  /-- ICACHE_FILL_ARRIVAL (R145). An instruction line arrives after an L1 instruction miss and decode resumes. -/
  | icacheFillArrival (c : CoreId)
  /-- DCACHE_FILL_ARRIVAL (R152). A data line arrives in L1 and the waiting LSU trigger is accepted. -/
  | dcacheFillArrival (c : CoreId)
  /-- SPEC_FILL_ARRIVAL (R163). Data of a speculative fill reach the speculative fill buffer or are discarded for a dropped entry. -/
  | specFillArrival (c : CoreId) (line : BitVec 38)
  /-- DEVICE_LOAD_ANSWER (R158). The answer of a device read reaches the core, completing its load or filling the device-read hold. -/
  | deviceLoadAnswer (c : CoreId)
  /-- STORE_BUFFER_DRAIN (R247). A store-buffer entry drains once its line is writable or its device turn has come. -/
  | storeBufferDrain (c : CoreId) (i : Nat)
  /-- SAVING_CLEAR (R194). All save writes of a task complete, including a late hold answer, and SAVING clears. -/
  | savingClear (tcb : BitVec 16)
  /-- TASK_SWITCH_IN (R195). The lower node lines of the incoming task are loaded and checked before its first word. -/
  | taskSwitchIn (c : CoreId)
  /-- GROUP_LOAD_DONE (R195). A pending register group finishes its lazy load and the waiting move proceeds. -/
  | groupLoadDone (c : CoreId) (grp : Fin 6)
  /-- SCHED_EVENT_ARRIVAL (R206). A routed event reaches its task's scheduler, readying the task, raising PENDING or being dropped. -/
  | schedEventArrival
  /-- FRET_OPEN (R208). A fret opens at its timebase instant and READY tasks of admitted cells are dispatched. -/
  | fretOpen (cl : CluId) (fret : BitVec 10)
  /-- FRET_CLOSE (R208). A fret closes and running tasks of windowed cells no longer admitted are preempted. -/
  | fretClose (cl : CluId) (fret : BitVec 10)
  /-- HV_EVENT_ARRIVAL (R210). An event routed to the hypervisor is queued at a cluster for class EVENT, merging repeats. -/
  | hvEventArrival
  /-- TCB_RESET (R205). CLU_TCB_CMD RESET returns a TCB to DORMANT and frees its nodes, or is denied. -/
  | tcbReset (a : Access) (cl : CluId) (v : Word)
  /-- TCB_START (R205). CLU_TCB_CMD START makes a DORMANT TCB READY at its ENTRY_VA, or is denied. -/
  | tcbStart (a : Access) (cl : CluId) (v : Word)
  /-- WALK_COMPLETE (R225). A table walk finishes its reads and installs a TLB entry or raises a translation fault. -/
  | walkComplete (c : CoreId)
  /-- TLB_INV_VA (R232). TLB_INV OP 0x1 drops combined entries of the running cell for one ASID and VA. -/
  | tlbInvVa (c : CoreId) (m : Slot)
  /-- TLB_INV_ASID (R232). TLB_INV OP 0x2 drops combined entries of the running cell for one ASID. -/
  | tlbInvAsid (c : CoreId) (m : Slot)
  /-- TLB_INV_CELL_L1 (R232). TLB_INV OP 0x3 drops all entries of the running cell, IOTLB excluded. -/
  | tlbInvCellL1 (c : CoreId) (m : Slot)
  /-- TLB_INV_IPA (R232). TLB_INV OP 0x4 drops entries of the selected cell covering an IPA, IOTLB included. -/
  | tlbInvIpa (c : CoreId) (m : Slot)
  /-- TLB_INV_CELL_L2 (R232). TLB_INV OP 0x5 drops all entries of the selected cell, IOTLB included. -/
  | tlbInvCellL2 (c : CoreId) (m : Slot)
  /-- TLB_INV_HOST (R232). TLB_INV OP 0x6 drops all entries of host regime k on every core. -/
  | tlbInvHost (c : CoreId) (m : Slot)
  /-- TLB_INV_DONE (R232). Every TLB has dropped the matched entries and pending walks have finished, so the invalidation completes. -/
  | tlbInvDone (c : CoreId)
  /-- CELL_S2_WRITE (R233). A write to CELL_S2 drops every TLB and IOTLB entry of the selected cell. -/
  | cellS2Write (c : CoreId) (m : Slot)
  /-- HT_ROOT_WRITE (R233). A write to HT_ROOTk drops the core's entries of regime k. -/
  | htRootWrite (c : CoreId) (m : Slot)
  /-- RESTART (R216). CELL_CMD RESTART drops the cell's TLB entries and makes a FAULTED cell ACTIVE, or is refused. -/
  | restart (c : CoreId) (m : Slot)
  /-- CELL_STOPPED (R215). CELL_CMD FAULT makes an ACTIVE non-safety cell FAULTED and records CELL_STOPPED, or is refused. -/
  | cellStopped (c : CoreId) (m : Slot)
  /-- INBOUND_PCIE_REQUEST (R235). An inbound PCIe memory request is placed into a cell by RID and PASID and translated by its stage 2. -/
  | inboundPcieRequest (r : PcieReq)
  /-- IC_INV_LINE (R267). IC_INV OP 0b01 invalidates one line of this core's L1 instruction cache. -/
  | icInvLine (c : CoreId) (m : Slot)
  /-- IC_INV_ALL (R267). IC_INV OP 0b10 invalidates this core's whole L1 instruction cache. -/
  | icInvAll (c : CoreId) (m : Slot)
  /-- SLC_REQUEST (R261). An access reaches its line's home slice, looking up, allocating and keeping copies coherent. -/
  | slcRequest (r : Req) (mt : Nat)
  /-- COHERENCE_REQUEST (R265). A home slice invalidates or recalls a copy held in an L2 or L1 and collects the acknowledgement. -/
  | coherenceRequest (line : BitVec 38) (cl : CluId) (keepClean : Bool)
  /-- SCRATCH_ACCESS (R270). An access reaches a scratch slice, including indivisible atomics and scratch reservations. -/
  | scratchAccess (r : Req)
  /-- CLEAN_ADDR (R274). Maintenance OP 0x1 cleans the lines of an address range at the named slices. -/
  | cleanAddr (a : Access) (v : Word)
  /-- CLEAN_INV_ADDR (R274). Maintenance OP 0x2 cleans and invalidates the lines of an address range. -/
  | cleanInvAddr (a : Access) (v : Word)
  /-- CLEAN_CELL (R274). Maintenance OP 0x3 cleans the lines owned by a cell. -/
  | cleanCell (a : Access) (v : Word)
  /-- CLEAN_INV_CELL (R274). Maintenance OP 0x4 cleans and invalidates the lines owned by a cell. -/
  | cleanInvCell (a : Access) (v : Word)
  /-- CLEAN_CLASS (R274). Maintenance OP 0x5 cleans the lines held by a class. -/
  | cleanClass (a : Access) (v : Word)
  /-- CLEAN_INV_CLASS (R274). Maintenance OP 0x6 cleans and invalidates the lines held by a class. -/
  | cleanInvClass (a : Access) (v : Word)
  /-- REMASK (R274). Maintenance OP 0x7 cleans a class out of leaving ways and applies its new WAY_MASK. -/
  | remask (a : Access) (v : Word)
  /-- MNT_SLICE_DONE (R277). A slice's maintenance engine finishes its matched lines, ends DONE or ERROR and releases its token. -/
  | mntSliceDone (site : Fin 16) (wbOk : Bool)
  /-- TOKEN_GRANT (R279). A freed site token is taken by the queued activity in the order commit, power, training. -/
  | tokenGrant (site : Fin 16)
  /-- SLC_ERR_INJECT (R272). Arming SLC_ERR_INJECT corrupts the check bits of the next write to the chosen target. -/
  | slcErrInject (a : Access) (v : Word)
  /-- HMC_REQUEST (R283). A request from the home slice enters an HMC queue in an arrival order fixed by arbitration. -/
  | hmcRequest (hmc : BitVec 6) (r : Req)
  /-- HMC_COMMAND_ISSUE (R285). A free pseudo-channel command bus issues the first permitted command by the scheduler's order. -/
  | hmcCommandIssue (hmc : BitVec 6) (pc : Fin 2)
  /-- HMC_READ_DATA (R292). Read data return from the stack and are checked, corrected, retried or poisoned. -/
  | hmcReadData (hmc : BitVec 6) (pc : Fin 2) (e : EccResult)
  /-- HBM_PARITY_ERROR (R292). A command or write-data parity error reported by the stack reissues the access. -/
  | hbmParityError (hmc : BitVec 6) (pc : Fin 2) (ok : Bool)
  /-- TREFI_TICK (R290). A tREFI interval elapses and the pseudo-channel's refresh debt increases. -/
  | trefiTick (hmc : BitVec 6) (pc : Fin 2)
  /-- REFRESH_DONE (R290). A per-bank refresh ends after tRFCpb, and a completed round lowers the debt. -/
  | refreshDone (hmc : BitVec 6) (pc : Fin 2)
  /-- HBM_TEMP_READ (R291). Every 32 µs the controller reads the stack temperature and sets tREFI. -/
  | hbmTempRead (hmc : BitVec 6) (temp : BitVec 8)
  /-- BOOT_TRAINING (R297). HMC_TRAIN_CMD BOOT by Mladette firmware starts boot training of a channel. -/
  | bootTraining (a : Access) (hmc : BitVec 6) (v : Word)
  /-- RETRAIN (R297). HMC_TRAIN_CMD RETRAIN by the hypervisor starts a retrain, or is refused. -/
  | retrain (a : Access) (hmc : BitVec 6) (v : Word)
  /-- SCHEDULED_TRAINING_START (R297). Every 100 ms, at an 8 °C change or at self-refresh exit, scheduled training becomes due and queues for the token. -/
  | scheduledTrainingStart (hmc : BitVec 6)
  /-- TRAIN_STEP_DONE (R295). A training step completes, advancing PROGRESS, the rate search or ending DONE or FAILED. -/
  | trainStepDone (hmc : BitVec 6) (ok : Bool) (lanes : BitVec 8)
  /-- HMC_ERR_INJECT (R292). Arming HMC_ERR_INJECT applies its error kind to the next write on the pseudo-channel. -/
  | hmcErrInject (a : Access) (hmc : BitVec 6) (v : Word)
  /-- TIME_RATE_WRITE (R300). A write of TIME_RATE scales the count-clock frequency, or is refused. -/
  | timeRateWrite (a : Access) (v : Word)
  /-- TIME_STEP_WRITE (R300). A write of TIME_STEP adds a forward step to the timebase before the first SEAL, or is refused. -/
  | timeStepWrite (a : Access) (v : Word)
  /-- TIME_REF_LOSS (R301). The 25 MHz reference stops or drifts and the PLL enters holdover. -/
  | timeRefLoss
  /-- HOLDOVER_EXIT (R301). 1 ms after the reference is good again the PLL leaves holdover. -/
  | holdoverExit
  /-- TIME_PLL_UNLOCK (R301). The PLL loses lock and records TIME_PLL_UNLOCK, class D. -/
  | timePllUnlock
  /-- PPS_OUT_RISE (R303). The counter passes k × 10^9 + OFFSET_NS and PPS_OUT goes high. -/
  | ppsOutRise
  /-- PPS_OUT_FALL (R303). WIDTH_MS after its rise PPS_OUT goes low. -/
  | ppsOutFall
  /-- PPS_IN_EDGE (R303). A rising edge on PPS_IN latches the counter into TIME_PPS_CAP and raises event 32. -/
  | ppsInEdge
  /-- TIMER_EXPIRY (R306). An enabled timer reaches CMP, raises its event and clears or advances. -/
  | timerExpiry (t : BitVec 8)
  /-- TIMER_CTRL_WRITE (R306). A write of a timer's control, expiring at once if CMP has passed, subject to the owner check. -/
  | timerCtrlWrite (a : Access) (t : BitVec 8) (v : Word)
  /-- TIMER_CMP_WRITE (R306). A write of a timer's CMP, expiring at once if already passed, subject to the owner check. -/
  | timerCmpWrite (a : Access) (t : BitVec 8) (v : Word)
  /-- JOB_RELEASE_PERIODIC (R309). A periodic job is released at each multiple of PERIOD_NS. -/
  | jobReleasePeriodic (j : BitVec 14)
  /-- JOB_CLOSE_ARRIVAL (R311). A stamped close reaches the deadline monitor and ends the job DONE if stamped in time. -/
  | jobCloseArrival
  /-- DEADLINE_EXPIRY (R311). An open job's deadline passes with no close stamped in time and the job is MISSED. -/
  | deadlineExpiry (j : BitVec 14)
  /-- BUDGET_EXHAUSTION (R313). USED reaches BUDGET_NS and the job overruns by OVERRUN_FAULT. -/
  | budgetExhaustion (j : BitVec 14)
  /-- WD_KICK (R319). A write to TIME_WD_KICK kicks the accessing cell's watchdog or records WD_EARLY. -/
  | wdKick (a : Access) (v : Word)
  /-- WD_EXPIRED (R318). No kick by WD_MAX_US records WD_EXPIRED and stops the watchdog. -/
  | wdExpired (cell : CellId)
  /-- DEV_WD_KICK (R321). A write to TIME_DEV_WD_KICK by a Mladette pair kicks the device watchdog and toggles WDO. -/
  | devWdKick (a : Access) (v : Word)
  /-- DEV_WATCHDOG (R321). A missing, early or badly keyed kick records DEV_WATCHDOG and the device enters safe state itself. -/
  | devWatchdog
  /-- DEV_WD_LOCK (R321). Setting TIME_DEV_WD.LOCK locks the device watchdog window until PORST_N. -/
  | devWdLock (a : Access) (v : Word)
  /-- FAULT_RECORD_ARRIVAL (R324). A fault enters the collector, takes its SEQ and class, and its class reaction is taken. -/
  | faultRecordArrival
  /-- FAULT_RECORD_STORE (R336). The collector writes a queued record into the ring and advances HEAD once the write is performed. -/
  | faultRecordStore
  /-- RING_EN_WRITE (R337). A write of RING_EN enables the fault ring only if it lies aligned in scratch, or records FLT_DENIED. -/
  | ringEnWrite (a : Access) (v : Word)
  /-- RING_TAIL_WRITE (R336). A write of FLT_RING_TAIL frees records, or is refused as out of range. -/
  | ringTailWrite (a : Access) (v : Word)
  /-- BLOCK_RELEASE (R332). FLT_BLK_CMD RELEASE issues the held writes of a block entry in order and frees it. -/
  | blockRelease (a : Access) (v : Word)
  /-- BLOCK_DISCARD (R332). FLT_BLK_CMD DISCARD drops the held writes of a block entry and frees it. -/
  | blockDiscard (a : Access) (v : Word)
  /-- FLT_SAFE_CMD (R340). KEY 0xA5 from a Mladette pair enters safe state and records FW_SAFE. -/
  | fltSafeCmd (a : Access) (v : Word)
  /-- SAFE_RELEASE (R344). A write of FLT_PIN.SAFE_RELEASE releases SAFE_N if sealed, verified and not in safe state. -/
  | safeRelease (a : Access) (v : Word)
  /-- FW_FAULT (R343). A write of FLT_PIN.FW_FAULT by a Mladette pair holds or releases FAULT_N. -/
  | fwFault (a : Access) (v : Word)
  /-- EXT_SAFE_N_FALL (R341). EXT_SAFE_N goes low and its glitch filter starts. -/
  | extSafeNFall
  /-- EXT_SAFE (R341). EXT_SAFE_N stays low through its filter interval and raises EXT_SAFE, class D. -/
  | extSafe
  /-- LOCKSTEP_MISMATCH (R342). The comparator of a Mladette pair finds differing outputs and stops the pair. -/
  | lockstepMismatch (pair : Fin 2)
  /-- ETH_FRAME_RECEIVE (R356). A received Ethernet frame is matched against filters, deduplicated and written to its ring or the host ring. -/
  | ethFrameReceive (port : Fin 10) (f : List Byte) (fcsOk : Bool)
  /-- FRER_RESET_TIMEOUT (R348). Sequence recovery resets after 100 ms without a frame. -/
  | frerResetTimeout (f : BitVec 14)
  /-- RX_HDR_WRITE_DONE (R355). The HDR write of a received frame completes and NET raises the stream event. -/
  | rxHdrWriteDone (e : BitVec 12)
  /-- RING_CONS_WRITE (R355). The owner writes CONS of a receive ring to free slots, ignored beyond PROD. -/
  | ringConsWrite (a : Access) (kind : Fin 3) (i : BitVec 12) (v : Word)
  /-- RING_ENABLE (R352). A write of EN to a ring configuration enables it after placement and watch checks, or refuses it. -/
  | ringEnable (a : Access) (kind : Fin 3) (i : BitVec 12) (v : Word)
  /-- EGRESS_HDR_REPORT (R360). A slice reports a write covering the HDR of slot PROD and NET commits the frame if it checks. -/
  | egressHdrReport (s : BitVec 12)
  /-- PORT_TRANSMIT_START (R350). A port starts the next ready frame of the highest class whose gate and shaper permit it. -/
  | portTransmitStart (port : Fin 12)
  /-- PORT_TRANSMIT_END (R361). A frame's last bit leaves a port and CONS advances once every port of the mask is done. -/
  | portTransmitEnd (port : Fin 12)
  /-- GATE_LIST_ENTRY (R349). A gate list interval ends and the next entry's gate states take effect. -/
  | gateListEntry (port : Fin 10)
  /-- STREAM_FRESH_EXPIRY (R363). FRESH_US elapses since the last commit and a LIVE stream goes STALE. -/
  | streamFreshExpiry (s : BitVec 12)
  /-- SAFE_FRAME_INSTANT (R364). At its instant a STALE or HOLD stream queues a safe frame with counter and check value filled in. -/
  | safeFrameInstant (s : BitVec 12)
  /-- ETH_LINK_DOWN (R357). A port loses its link and records NET_LINK_DOWN. -/
  | ethLinkDown (port : Fin 10)
  /-- CANXL_FRAME_RECEIVE (R368). A CAN XL channel receives a frame and writes it to its CAN receive ring. -/
  | canxlFrameReceive (ch : Fin 2) (f : List Byte)
  /-- CANXL_BUS_OFF (R368). A CAN XL channel enters bus-off and records CANXL_BUS_OFF. -/
  | canxlBusOff (ch : Fin 2)
  /-- CANXL_BUS_OFF_RECOVERY (R368). A bus-off channel completes its recovery and waiting safe frames may be sent. -/
  | canxlBusOffRecovery (ch : Fin 2)
  /-- HOST_TX_COMMIT (R369). The hypervisor writes NET_HOST_TX_IDX.PROD to commit host transmit slots. -/
  | hostTxCommit (a : Access) (v : Word)
  /-- PWR_VOTE_ASSERT (R382). A cell asserts its vote for a domain through PWR_VOTE, waking it or aborting entry. -/
  | pwrVoteAssert (a : Access) (v : Word)
  /-- PWR_VOTE_WITHDRAW (R383). A cell withdraws its vote, starting entry into IDLE_STATE when it was the last. -/
  | pwrVoteWithdraw (a : Access) (v : Word)
  /-- HV_VOTE_WRITE (R382). A write of PWR_DOM_CTRL.HV_VOTE asserts or withdraws the hypervisor vote. -/
  | hvVoteWrite (a : Access) (v : Word)
  /-- TARGET_PS_WRITE (R384). A write of PWR_DOM_CTRL.TARGET_PS changes the RUN state of a domain, or is refused. -/
  | targetPsWrite (a : Access) (v : Word)
  /-- DOMAIN_ENTRY_QUIET (R385). A domain in entry becomes quiet and the power controller starts fencing it. -/
  | domainEntryQuiet (d : Fin 39)
  /-- DOMAIN_ENTRY_FENCED (R385). Fencing of the domain completes and entry proceeds to HBM self-refresh or commit. -/
  | domainEntryFenced (d : Fin 39)
  /-- DOMAIN_ENTRY_COMMIT (R385). The power controller commits entry and starts changing SRAM assist, rail and bias. -/
  | domainEntryCommit (d : Fin 39)
  /-- DOMAIN_ENTRY_DONE (R385). The domain reaches DOZE or OFF, RESULT reads ENTERED and event 16 is raised. -/
  | domainEntryDone (d : Fin 39)
  /-- ENTRY_ABORT_DONE (R386). An aborted entry completes, RESULT reads ENTRY_ABORTED and event 17 is raised. -/
  | entryAbortDone (d : Fin 39)
  /-- DOMAIN_WAKE_DONE (R388). A waking domain completes bias, rail, SRAM assist and handshake release and its held events are delivered. -/
  | domainWakeDone (d : Fin 39)
  /-- THERMAL_SAMPLE (R390). A junction sensor sample is taken and a domain over its limit is called to a slower state. -/
  | thermalSample (sensor : BitVec 6) (temp : BitVec 8)
  /-- THERMAL_STEP_TIMER (R390). 100 µs after a thermal change the power controller may call or return another state. -/
  | thermalStepTimer (d : Fin 39)
  /-- PMIC_ECHO (R451). The PMIC acknowledges a command by an IBI echoing byte 0. -/
  | pmicEcho
  /-- PWR_PMIC_FAIL (R392). A missing PMIC echo within 10 µs or a rail deviation for 20 µs records PWR_PMIC_FAIL, class D. -/
  | pwrPmicFail
  /-- RAIL_OUT_OF_RANGE (R464). A fixed rail leaves its range for 2 µs and the device records PWR_PMIC_FAIL. -/
  | railOutOfRange
  /-- POWER_ON_RESET (R464). VDD_AON or VDD_IO stays low for 1 µs and the device resets as at PORST_N. -/
  | powerOnReset
  /-- PORST_N_ASSERT (R343). PORST_N goes low, resetting the device and driving SAFE_N, FAULT_N and WDO low. -/
  | porstNAssert
  /-- PORST_N_RELEASE (R408). PORST_N is released, straps and fuses are sampled, the device key derived and pair 0 starts the boot ROM. -/
  | porstNRelease (straps : BitVec 4)
  /-- WARM_N (R411). WARM_N resets the device except the timebase, scratch, fault ring and fuses. -/
  | warmN (straps : BitVec 4)
  /-- BOOT_RESET_CMD (R412). KEY 0x3C replaces the skip latch and starts a warm reset. -/
  | bootResetCmd (a : Access) (v : Word)
  /-- BOOT_LC_CMD (R394). A permitted lifecycle change blows its fuses for the next PORST_N, or is refused. -/
  | bootLcCmd (a : Access) (v : Word)
  /-- BOOT_ROLLBACK_SET (R405). A write of BOOT_ROLLBACK.SET blows rollback fuses, or is refused. -/
  | bootRollbackSet (a : Access) (v : Word)
  /-- CHECK_HMAC (R397). The key gate locks a region and starts its HMAC check, or refuses. -/
  | checkHmac (a : Access) (v : Word)
  /-- CHECK_ECDSA (R407). The key gate locks a region and starts the ECDSA check of a recovery image, or refuses. -/
  | checkEcdsa (a : Access) (v : Word)
  /-- UNLOCK (R397). The key gate frees the selected region. -/
  | unlock (a : Access) (v : Word)
  /-- KG_CHECK_DONE (R397). A key gate check ends with the region CHECKED or FAILED. -/
  | kgCheckDone (region : Fin 17)
  /-- CORE_RELEASE (R409). BOOT_CORE_CMD RELEASE starts held cores at BOOT_ENTRY if it is checked. -/
  | coreRelease (a : Access) (v : Word)
  /-- CORE_RESET (R409). BOOT_CORE_CMD RESET restarts a locked-up core at BOOT_ENTRY, or is refused. -/
  | coreReset (a : Access) (v : Word)
  /-- BOOT_MAILBOX_IN_WRITE (R481). A write of BOOT_MAILBOX_IN raises device event 48. -/
  | bootMailboxInWrite (a : Access) (v : Word)
  /-- BOOT_MAILBOX_OUT_WRITE (R481). A write of BOOT_MAILBOX_OUT raises device event 49. -/
  | bootMailboxOutWrite (a : Access) (v : Word)
  /-- BOOT_SOURCE_TIMEOUT (R402). A boot source presents no header within its timeout and the ROM moves on. -/
  | bootSourceTimeout
  /-- BOOT_FRAME (R402). A boot frame of EtherType 0x88B5 on XG_1 is accepted into its slot and answered. -/
  | bootFrame (f : List Byte)
  /-- PCIE_DOORBELL_WRITE (R446). A write to BAR2 offset 0 stores DOORBELL bytes, raises event 50 and ends a boot transfer. -/
  | pcieDoorbellWrite (a : Access) (v : Word)
  /-- HELLO (R406). Every second until BEGIN the recovery loader sends a HELLO frame. -/
  | helloFrame
  /-- BEGIN (R406). A recovery BEGIN frame announces the image length and is acknowledged. -/
  | beginFrame (f : List Byte)
  /-- DATA (R406). A recovery DATA frame at the expected offset is written to pair 0 SRAM and acknowledged. -/
  | dataFrame (f : List Byte)
  /-- END (R406). A recovery END frame locks the image and starts CHECK_ECDSA. -/
  | endFrame (f : List Byte)
  /-- DBGREG_UPDATE (R414). At Update-DR the DBGREG scan performs one read or write of the DBG block. -/
  | dbgregUpdate (scan : BitVec 80)
  /-- DBG_BEGIN (R417). OP BEGIN starts checking a debug certificate, or is refused. -/
  | dbgBegin (a : Access) (v : Word)
  /-- DBG_CERT_CHECK_DONE (R417). The certificate check ends, issuing the challenge or ending in LOCKOUT. -/
  | dbgCertCheckDone
  /-- DBG_RESPOND (R417). OP RESPOND starts comparing the debugger's response. -/
  | dbgRespond (a : Access) (v : Word)
  /-- DBG_RESPOND_CHECK_DONE (R417). The response comparison ends, opening the session or ending in LOCKOUT. -/
  | dbgRespondCheckDone
  /-- DBG_RESPOND_TIMEOUT (R419). No RESPOND within 1 s of the challenge ends the attempt in LOCKOUT. -/
  | dbgRespondTimeout
  /-- DBG_LOCKOUT_END (R419). 1 s after a failure a new BEGIN may again be accepted. -/
  | dbgLockoutEnd
  /-- CLOSE (R420). DBG_CTRL.CLOSE ends the session, resuming halted cells and cores and clearing debug settings. -/
  | closeSession (a : Access) (v : Word)
  /-- DBG_HV_LIMIT_WRITE (R418). A write of DBG_HV_LIMIT by L2 re-evaluates the granted level and resumes uncovered cells. -/
  | dbgHvLimitWrite (a : Access) (v : Word)
  /-- DBG_CELL_HALT (R422). DBG_CELL_CMD HALT halts the selected cell, or is refused. -/
  | dbgCellHalt (a : Access) (v : Word)
  /-- DBG_CELL_RESUME (R429). DBG_CELL_CMD RESUME returns a halted cell to ACTIVE. -/
  | dbgCellResume (a : Access) (v : Word)
  /-- DBG_CTI_PULSE (R424). A write of DBG_CTI_PULSE fires cross-trigger channels that halt the cells listing them. -/
  | dbgCtiPulse (a : Access) (v : Word)
  /-- CORE_STOP (R423). A core reaches a word boundary at L1 or L0 for a halt and stops without saving. -/
  | coreStop (c : CoreId)
  /-- DBG_CORE_STEP (R426). DBG_CORE_CMD STEP makes a stopped core perform one word and stop again. -/
  | dbgCoreStep (a : Access) (v : Word)
  /-- DBG_CORE_HALT (R422). DBG_CORE_CMD HALT at level 3 stops the selected core at any level. -/
  | dbgCoreHalt (a : Access) (v : Word)
  /-- DBG_CORE_RESUME (R429). DBG_CORE_CMD RESUME restarts a core stopped at level 3. -/
  | dbgCoreResume (a : Access) (v : Word)
  /-- DBG_CORE_ACC (R421). A write of DBG_CORE_ACC reads or writes a port, system register or PC of a stopped core. -/
  | dbgCoreAcc (a : Access) (v : Word)
  /-- DBG_BUS_READ (R433). DBG_BUS_CTRL OP read starts a peek read by the debug bus master. -/
  | dbgBusRead (a : Access) (v : Word)
  /-- DBG_BUS_WRITE (R432). DBG_BUS_CTRL OP write starts a write by the debug bus master. -/
  | dbgBusWrite (a : Access) (v : Word)
  /-- TRACE_ENABLE (R439). A write of DBG_TRC_CTRL.EN enables trace to the port or HBM buffer, or is refused. -/
  | traceEnable (a : Access) (v : Word)
  /-- BIFUR_WRITE (R440). A write of PCIE_CTRL.BIFUR regroups the lanes while every port is disabled, or is refused. -/
  | bifurWrite (a : Access) (v : Word)
  /-- PCIE_LINK_CHANGE (R448). A PCIe link changes state or reports an AER error and raises its port event. -/
  | pcieLinkChange (port : Fin 4) (e : PcieEvent)
  /-- DMA_START (R450). PERI_DMA_CTRL.START starts a channel walking its descriptor chain. -/
  | dmaStart (a : Access) (v : Word)
  /-- DMA_DESCRIPTOR_DONE (R450). A DMA channel finishes a descriptor's writes, writes DONE, advances PROGRESS and raises its event. -/
  | dmaDescriptorDone (ch : Fin 16)
  /-- GPIO_EDGE (R448). A GPIO input changes on its selected edge and raises its event. -/
  | gpioEdge (pin : Fin 32) (level : Bool)
  /-- UART_RX_EVENT (R448). A UART receive FIFO reaches half full, goes idle or errs and raises its event. -/
  | uartRxEvent (i : Fin 2) (e : UartEvent)
  /-- I3C_TRANSFER_DONE (R448). I3C_1 completes a transfer or receives an IBI and raises its event. -/
  | i3cTransferDone (e : I3cEvent)
  /-- XSPI_COMMAND_DONE (R448). An xSPI command completes and raises its event. -/
  | xspiCommandDone (i : Fin 2)
  /-- UFS_COMPLETION (R448). A UFS completion queue entry or UIC event raises event 933. -/
  | ufsCompletion
  /-- EXT_SAFE_N_RISE (R341). EXT_SAFE_N returns high before its filter interval ends, so nothing is raised. -/
  | extSafeNRise
  /-- ETH_LINK_UP (R361). An Ethernet port regains its link, sets NET_STATUS.LINK_UP and is no longer skipped when frames are sent. -/
  | ethLinkUp (port : Fin 10)
  /-- REF_OK (R301). The 25 MHz reference comes back within limits, REF_OK is set and the 1 ms count to holdover exit starts. -/
  | refOk
  /-- POWER_ON_RESET_END (R464). After VDD_AON and VDD_IO have been back in range for 10 ms the device leaves its own power-on reset and boots. -/
  | powerOnResetEnd
  /-- UPDATE_IR (R413). At Update-IR the TAP instruction register takes a new instruction such as EXTEST, SAMPLE/PRELOAD, IDCODE, DBGREG or BYPASS. -/
  | updateIr (ir : BitVec 5)
  /-- BLOCK_ENTRY_FREED (R332). A RELEASE or DISCARD command on a block entry completes, the entry is freed and the stream unblocked. -/
  | blockEntryFreed (e : BitVec 9)
  /-- DATA_POP (R449). A read of a UART or I3C_1 DATA register removes an entry from the receive FIFO, except under the peek attribute. -/
  | dataPop (a : Access) (pa : BitVec 44)
deriving DecidableEq, Repr

end Sys2Proof
end

