-- ==== Sys2Proof/Decode.lean ====
section
/-! DEFINITION. The command that a word spells. The table of this block gives no row any bits: a command is an operation
or an event, never a word, so every word spells none. -/
namespace Sys2Proof

/-- The command of a word of `nbits` bits: none. -/
def decodeTableWord (_nbits _w : Nat) : Option Instr := none

end Sys2Proof
end

