-- ==== Sys2Proof/Config.lean ====
section
/-! DEFINITION. What an implementation fixes and the spec leaves open: opaque constants, so that nothing can be proved
of their values. -/
namespace Sys2Proof.Config

/-- IEEE 754-2019 lets an implementation detect tininess before or after rounding (R125 names no choice). -/
opaque tinyAfterRounding : Bool
/-- IEEE 754-2019 leaves open whether a fused multiply-add of zero and infinity with a quiet NaN addend is invalid. -/
opaque fmaNanInvalid : Bool
/-- Fresh random words: debug challenges (R417) and any other value no rule states, by draw number. -/
opaque freeWord : Nat → Word
/-- A free choice between two outcomes, by draw number. -/
opaque freeBit : Nat → Bool
/-- The bytes of the Mladette boot ROM (R408): the spec gives its place and its work, not its code. -/
opaque romByte : Nat → Byte
/-- The fuses as sampled at PORST_N: word 0 the settings (R393), 1 the rollback minimum, 2 and 3 the unique ID, 4 to 7 the
device secret (R395), 8 to 13 the customer key hash (R407). -/
opaque fuseWord : Nat → Word

/-- What a flash or a UFS holds at a boot, by draw number, source and slot: how many bytes of a slot can be read, and its
bytes (R402). -/
opaque flashLen : Nat → Nat → Nat → Nat
opaque flashByte : Nat → Nat → Nat → Nat → Byte

/-- The temperature band of a supply level (R22 names bands and no rule gives their bounds). -/
opaque tempBand : Nat → Nat

/-- WQ_HIGH and WQ_LOW of the HBM write-data buffer (R285 names them and no rule gives their values). -/
opaque wqHigh : Nat
opaque wqLow : Nat
/-- The bank that a local offset of a pseudo-channel lies in: no rule gives the mapping. -/
opaque bankOf : Nat → Nat

end Sys2Proof.Config
end

