-- ==== Sys2Proof/Machine/State.lean ====
section
/-! DEFINITION. The state of the CSL-9140 as plain data: every register, table, buffer, queue, mode and pin the
spec gives the device, chapter by chapter, then `State` and `State.reset`. -/
namespace Sys2Proof.Machine

/-- A sparse table: entries by number, strictly rising; an unlisted entry has the default its reader names. -/
abbrev Tbl (α : Type) := List (Nat × α)

/-- Operation status of a block (R34). -/
structure OpStatus where
  progress : BitVec 32 := 0
  abortReq : Bool := false
  abortLate : Bool := false
  /-- 0 IDLE, 1 BUSY, 2 DONE, 3 ABORTED, 4 ERROR -/
  st : BitVec 3 := 0
deriving DecidableEq, Repr

/-! ### The composition image (chapter 03) -/

/-- One record of an image (R38): its TYPE, its image offset and its payload bytes. -/
structure Rec where
  typ : Nat
  off : Nat
  data : List Byte
deriving DecidableEq, Repr

/-- The engine's states (R45), coded 0x0 to 0xB in this order. -/
inductive Engine where
  | empty | checking | validating | applying | applied | sealed
  | staging | staged | quiescing | quiesced | committing | committed
deriving DecidableEq, Repr

/-- An event held for a target of a composition change (R49), in arrival order. -/
structure HeldEvent where
  num : Nat
  cell : Nat
  stamp : Word
  /-- the cell that raised it (R13) -/
  origin : Option Nat := none
deriving DecidableEq, Repr

/-- The composition engine (R36 to R53). -/
structure Comp where
  engine : Engine := .empty
  /-- an image has been sealed since reset (COMP_STATUS.SEALED) -/
  isSealed : Bool := false
  op : OpStatus := {}
  cause : BitVec 4 := 0
  dropped : BitVec 32 := 0
  reject : Word := 0
  /-- the MODE sampled at START -/
  partialMode : Bool := false
  /-- COMP_CTRL.MODE as last written -/
  modeBit : Bool := false
  srcAddr : Word := 0
  srcLen : Word := 0
  /-- SEQ of the last sealed or committed image -/
  sealedSeq : BitVec 32 := 0
  stagedSeq : BitVec 32 := 0
  /-- the composition in force -/
  live : List Rec := []
  /-- PROGRAMME_ID of the sealed image (R36) -/
  programme : List Byte := []
  /-- the shadow tables: the composition the loaded image would produce -/
  shadow : List Rec := []
  shadowProg : List Byte := []
  shadowScope : BitVec 8 := 0
  /-- the RECOMP_TARGET records of the staged image: cell and ACTION -/
  targets : List (Nat × Nat) := []
  /-- pages (PA / 4096) that the load holds write-locked (R42) -/
  locked : List Nat := []
  /-- events held for target cells, in arrival order (R49) -/
  held : List HeldEvent := []
  /-- SLC slices whose commit cleaning is not yet done (R50) -/
  cleaning : List Nat := []
  /-- classes whose lines the commit cleans -/
  cleanCls : List Nat := []
  /-- votes and tasks of the composition that a COMMIT has replaced, for the RELEASE -/
  before : List Rec := []
  /-- instants at which replaced schedule records take effect: the first start of a major cycle after COMMITTED (R50),
  by cluster -/
  newSched : Tbl Word := []
  /-- the schedule records in force on those clusters until then -/
  oldSched : List Rec := []
  /-- LC_SCOPE of the sealed image -/
  scope : BitVec 8 := 0
deriving DecidableEq, Repr

/-! ### The Lankor fabric (chapter 04) -/

/-- What a transaction does at its target (R58, R122). -/
inductive TxnKind where
  /-- a read of `size` bytes -/
  | read
  /-- a write of the carried bytes -/
  | write
  /-- an instruction fetch -/
  | fetch
  /-- an indivisible swap, fetch-and-add or compare-and-swap at the target (R122, R270) -/
  | swap | fadd | cas
  /-- a load that takes and a store that needs a reservation (R123) -/
  | lr | sc
deriving DecidableEq, Repr

/-- What waits for the answer at the source. -/
inductive Purpose where
  /-- a core's load or atomic, by core number -/
  | load (core : Nat)
  /-- a line asked for by a core's L1: data, or instruction; or by the speculative fill buffer (R145, R152, R162) -/
  | fill (core : Nat) (fetch early : Bool)
  /-- a store-buffer entry of a core -/
  | store (core : Nat)
  /-- a context save write of a TCB -/
  | save (core tcb : Nat)
  /-- a device read whose hold a core's context save engine has saved into a node of a task, by the scheduler or by an
  explicit save; `pc` is the word of HOLD_PC (R197) -/
  | hold (tcb core node : Nat) (pc : Word)
  /-- the debug bus master -/
  | debug
  /-- an inbound PCIe request -/
  | pcie
  /-- any other initiator -/
  | other
deriving DecidableEq, Repr

/-- A transaction (R58): issued, perhaps performed, not yet answered. -/
structure Txn where
  id : Nat := 0
  init : InitId := 0
  level : BitVec 2 := 0
  cell : Option CellId := none
  stream : BitVec 4 := 0
  tag : BitVec 10 := 0
  peek : Bool := false
  /-- of type NORMAL_NC, for an initiator that is no core (R236, R262) -/
  nc : Bool := false
  kind : TxnKind := .read
  addr : Nat := 0
  size : Nat := 8
  data : List Byte := []
  /-- second operand of a compare-and-swap: the value compared with -/
  cmp : Word := 0
  purpose : Purpose := .other
  /-- VA of the access, where its initiator translated one -/
  va : Word := 0
  /-- target endpoint -/
  dst : Nat := 0
  /-- the Pass it uses, if any, and the switch points that it crosses there and back -/
  pass : Option Nat := none
  route : List Nat := []
  back : List Nat := []
  issued : Word := 0
  /-- DEVICE_TIMEOUT at its issue, in units of 0.5 µs (R77) -/
  limit : Nat := 4
  /-- performed at the target: the status and the bytes it will answer with -/
  done : Option (BitVec 3 × List Byte) := none
  /-- its answer is produced by its own source port (R487) -/
  atPort : Bool := false
  /-- the source port has answered TIMEOUT already (R78) -/
  late : Bool := false
deriving DecidableEq, Repr

/-- One direction of a link (R72 to R74), keyed by switch point × 16 + port: 0 to 7 the output ports, 8 to 11 the way in
from the endpoint at a local port. -/
structure LinkDir where
  down : Bool := false
  replays : BitVec 16 := 0
  crcErr : BitVec 16 := 0
  /-- the 1 ms of timebase time in which a first successful replay was already recorded -/
  noted : Option Word := none
deriving DecidableEq, Repr

/-- A word in a sender's replay buffer (R72): its index on the lane, whose packet's word it is, and its value, known once a
copy has come through sound. -/
structure LaneWord where
  idx : Nat
  part : Option PacketWord := none
  word : Option Word := none
deriving DecidableEq, Repr

/-- One lane of a link direction (R72): the words accepted so far and the last of them, the words sent so far, the sender's
replay buffer of the last 16 sent, and how often the awaited word has failed its check. -/
structure Lane where
  accepted : Nat := 0
  last : Word := 0
  sent : Nat := 0
  buf : List LaneWord := []
  fails : Nat := 0
deriving DecidableEq, Repr

/-- A packet at one of the link directions it crosses (R61, R63): its transaction, whether it is the answer, which of its
hops this is, the link direction, the input port of the switch point that it came in by, the lanes it may use there, and
which of its words have been sent and accepted. -/
structure PacketHop where
  txn : Nat
  answer : Bool
  hop : Nat
  link : Nat
  input : Nat
  lanes : List Nat
  sent : List Nat := []
  got : List Nat := []
deriving DecidableEq, Repr

/-- A composed Pass (R66). -/
structure Pass where
  id : Nat
  cell : Nat
  src : Nat
  dst : Nat
  lanes : Nat
  hops : Nat
  route : List Nat
deriving DecidableEq, Repr

/-- The fabric (R55 to R82). -/
structure Fab where
  structLive : Bool := false
  /-- a SEAL has asked for the composed structure; the source ports hold their issue (R81) -/
  changing : Bool := false
  swmap : List Byte := []
  passes : List Pass := []
  timeout : Nat := 4
  /-- requests that wait at their source ports, in order -/
  waiting : List Txn := []
  txns : List Txn := []
  nextId : Nat := 0
  links : Tbl LinkDir := []
  lanes : Tbl Lane := []
  /-- packets whose words have been seen on links, oldest first -/
  packets : List PacketHop := []
  /-- the input port that each output port granted last (R63), by link direction -/
  grants : Tbl Nat := []
  /-- transfers taken as one step whose way is cut by a DOWN link: when each was issued, and DEVICE_TIMEOUT then, by
  initiator × 16 + stream -/
  cut : Tbl (Word × Nat) := []
  /-- words carried by each Pass since the last read -/
  words : Tbl (BitVec 32) := []
  /-- fence bits of the endpoints (R76) -/
  fences : List Nat := []
  late : BitVec 32 := 0
deriving DecidableEq, Repr

/-! ### Faults (chapter 15) -/

/-- A fault on its way to the collector: everything its record will hold (R334) but the class in force. -/
structure FaultMsg where
  code : Nat
  /-- the class the detecting logic assigns -/
  cls : BitVec 2
  source : BitVec 16
  cell : Option CellId := none
  /-- ADDRESS, and whether it is a VA -/
  addr : Option (Word × Bool) := none
  syndrome : Word := 0
  /-- initiator ID and ordering stream of the transaction -/
  init : Option (InitId × BitVec 4) := none
  escalated : Bool := false
  blocked : Bool := false
  time : Word := 0
deriving DecidableEq, Repr

/-- A record in the collector's input queue (R336). -/
structure FaultRec where
  msg : FaultMsg
  seq : BitVec 32
  /-- class in force -/
  cls : BitVec 2
  escalated : Bool
  raised : Bool
deriving DecidableEq, Repr

/-- An entry of the block table (R330). -/
structure BlockEntry where
  valid : Bool := false
  gen : BitVec 7 := 0
  init : InitId := 0
  stream : BitVec 4 := 0
  cell : Option CellId := none
  status : BitVec 3 := 0
  pa : Word := 0
  va : Word := 0
  /-- a RELEASE or DISCARD under way (R332): `some true` for RELEASE -/
  cmd : Option Bool := none
deriving DecidableEq, Repr

/-- What caused safe state (FLT_STATUS.SAFE_CAUSE), coded 0 to 4. -/
inductive SafeCause where
  | none | classD | extSafe | devWd | fwSafe
deriving DecidableEq, Repr

/-- The fault collector, the fault ring, the block table, safe state and its pins (R324 to R345). -/
structure Flt where
  /-- faults detected and not yet in the collector -/
  raised : List FaultMsg := []
  queue : List FaultRec := []
  /-- SEQ of each source (R333) -/
  seqs : Tbl (BitVec 32) := []
  /-- faults of a source not stored since its last stored record -/
  lostBy : Tbl (BitVec 32) := []
  lostC : BitVec 16 := 0
  lostO : BitVec 16 := 0
  lostK : BitVec 16 := 0
  lostD : BitVec 16 := 0
  ringEn : Bool := false
  lock : Bool := false
  ringBase : Word := 0
  ringLog2 : BitVec 4 := 6
  head : BitVec 32 := 0
  tail : BitVec 32 := 0
  safe : Bool := false
  safeCause : SafeCause := .none
  /-- the latched first class D record: 64 bytes, or empty -/
  drec : List Byte := []
  blocks : Tbl BlockEntry := []
  blkResult : BitVec 2 := 0
  /-- FLT_REACT.RAISE of each code, as written -/
  raise : Tbl (BitVec 2) := []
  /-- SAFE_N has been released (FLT_PIN.SAFE_RELEASE) -/
  safeRelease : Bool := false
  fwFault : Bool := false
  /-- EXT_SAFE_N low since this instant, until its filter has fired or it rises -/
  extLow : Option Word := none
  /-- the level of the EXT_SAFE_N pin -/
  extLevel : Bool := true
  /-- Mladette pairs stopped by a lockstep mismatch (R342) -/
  pairStopped : List Nat := []
deriving DecidableEq, Repr

/-! ### Cores (chapters 05 to 08) -/

/-- What an operation in flight will deliver (R85, R109, R111). -/
structure Flight where
  /-- the unit's block: the first address of its port block (R91) -/
  unit : Nat
  /-- value for the result port Q -/
  q : VWord
  /-- value for QH (MUL and DIV) -/
  qh : Word := 0
  /-- predicate named by PTARGET, 0 for none -/
  pred : Nat := 0
  /-- floating-point flags raised (bits NV, DZ, OF, UF, NX) -/
  flags : BitVec 5 := 0
  /-- the TRAP bits that held when it was triggered -/
  trap : BitVec 5 := 0
  /-- a long operation: its word takes effect only when it completes (R111) -/
  long : Bool := false
  /-- the loaded unit is poisoned: the load address (R329) -/
  poison : Option Word := none
deriving DecidableEq, Repr

/-- A synchronous exception raised and not yet entered (R174, R183). -/
structure Exc where
  /-- class index -/
  cls : Nat
  /-- base level -/
  base : Nat
  /-- SYNDROME[31:8] -/
  fields : BitVec 24 := 0
  /-- SYNDROME[63:32] -/
  detail : BitVec 32 := 0
  addr : Word := 0
  slotB : Bool := false
  long : Bool := false
  /-- the word to save as PC -/
  pc : Word := 0
  /-- entered at the current level even with its save set occupied (R181) -/
  sameLevel : Bool := false
deriving DecidableEq, Repr

/-- The kinds of LSU operation (R119). -/
inductive LsuOp where
  | ld | st | ldpi | stpi | lr | sc | swap | fadd | cas | gather
deriving DecidableEq, Repr

/-- The barriers (R250). -/
inductive Fence where
  | f | s | l | d
deriving DecidableEq, Repr

/-- What the triggers of a word leave to be done when the word ends (R105, R152, R180, R182). -/
inductive After where
  /-- an LSU operation: base address, value moved, store data, SIZE/SX/VARIANT (a gather's ELEM) -/
  | lsu (op : LsuOp) (o : Word) (v : VWord) (p : VWord) (ext : BitVec 5)
  /-- a taken branch: target, whether it is indirect, whether it is a T_RET -/
  | branch (target : Word) (indirect ret : Bool)
  | call (target : Word) (indirect : Bool)
  /-- a T_LOOP: its target, for the case that it is taken -/
  | loop (target : Word)
  | ret
  | gate (k : Nat) (v : Word)
  | brk
  | srrd (num : Word)
  | srwr (num : Word) (v : Word)
  | fence (k : Fence)
  | rep (n : Nat)
  | rsflush
  /-- context triggers (R199, R200) and store and load multiple (R203) -/
  | ctxSave (hi : Bool) (o : Word)
  | ctxLoad (hi free : Bool) (o : Word)
  | multi (load : Bool) (o : Word) (mask : BitVec 16)
  /-- CHK operations: 0 feed of n bytes, 1 T_INIT, 2 VAL, 3 EXP, 4 T_CMP, 5 T_ABORT -/
  | chk (op n : Nat) (v : Word)
  | trc (port : Nat) (v : Word)
  | seal (v : Word)
  | jobend
  | wait
  /-- a fault code of the core to record (R126) -/
  | note (code : Nat)
deriving DecidableEq, Repr

/-- The device-read hold (R158). -/
structure Hold where
  cell : Nat
  tcb : Nat
  pc : Word
  va : Word
  size : BitVec 2
  /-- the transaction that carries the read -/
  txn : Nat := 0
  /-- status and data, once answered -/
  answer : Option (BitVec 3 × Word) := none
deriving DecidableEq, Repr

/-- The reservation of a core (R123): line, size, and whether its line lies in scratch. -/
structure Resv where
  line : Nat
  size : Nat
  scratch : Bool
deriving DecidableEq, Repr

/-- The part of a core that a word changes and a fault of the word takes back (R104): registers, ports, predicates,
repeat state, operations in flight, and what waits for the end of the word. -/
structure Ctx where
  g : Tbl Word := []
  v : Tbl VWord := []
  /-- p1 to p7 in bits 7:1 -/
  p : BitVec 8 := 0
  rc : BitVec 13 := 0
  /-- operand and result ports of the units, by move address -/
  ports : Tbl VWord := []
  link : Word := 0
  csr : Word := 0
  sel : BitVec 4 := 0
  flights : List Flight := []
  /-- trapped flags of results not yet read, by port address or 96 + n for predicate pn (R127) -/
  traps : Tbl (BitVec 5) := []
  /-- result ports that hold poison, with the load address (R329) -/
  poison : Tbl Word := []
  /-- DIRTY bits: 0 GA, 1 GB, 2 GC, 3 GD, 4 VA, 5 VB (R188) -/
  dirty : BitVec 6 := 0
  /-- groups pending under lazy restore (R195) -/
  pendGroups : BitVec 6 := 0
  /-- LSU.P, LSU.Q upper bits written while VA was pending (R195) -/
  keepP : Bool := false
  keepQ : Bool := false
  /-- in a repeat (R134) -/
  rep : Bool := false
  /-- multiple-progress state of a store or load multiple (R204): the registers already transferred -/
  mprog : Option (BitVec 16) := none
  /-- units whose long operation of the word under way has completed -/
  doneUnits : List Nat := []
  /-- what its triggers leave to be done: whether in slot B, whether in a long word, what -/
  after : List (Bool × Bool × After) := []
  /-- faults raised by the slots of the word so far -/
  faults : List Exc := []
deriving DecidableEq, Repr

/-- A save set SRk (R178). -/
structure SaveSet where
  pc : Word := 0
  status : Word := 0
  cls : Word := 0
  synd : Word := 0
  addr : Word := 0
  sp : Word := 0
  valid : Bool := false
  /-- VALID and DONE of SRk_MPROG -/
  mprog : BitVec 17 := 0
deriving DecidableEq, Repr

/-- A descriptor in the descriptor store (R170). -/
structure Desc where
  handler : Word
  sp : Word
  niw : BitVec 8
deriving DecidableEq, Repr

/-- A sealed descriptor table: its VALID descriptors by class index. -/
abbrev DescTable := Tbl Desc

/-- A decoded word (R142, R146). -/
structure DecWord where
  addr : Word
  word : Word
  /-- the exception its decode decided on -/
  exc : Option Exc := none
  /-- the predicted next word: `none` where a taken branch has no predicted target -/
  pred : Option Word := none
  /-- INDEX used for its indirect-target lookup (R148) -/
  ittIndex : Option Nat := none
  /-- predicted taken (R146) -/
  taken : Bool := false
deriving DecidableEq, Repr

/-- An asynchronous interrupt held at a core (R177): class, base level, DETAIL. -/
structure Irq where
  cls : Nat
  base : Nat
  detail : BitVec 32
deriving DecidableEq, Repr

/-- The walked entry of a 64 KiB stage-1 page (R222): its IPA, permissions, type, and the entry whose DIRTY a store must
still set. -/
structure BigPage where
  ipa : Nat
  perm : Nat
  mt : Nat
  dm : Option Nat := none
deriving DecidableEq, Repr

/-- A TLB entry (R231): what it translates, for whom, and the outcome. A stage-2 entry has `asid` 65536 and its IPA
range in `ipa`. -/
structure TlbEntry where
  /-- cell of a combined entry; `none` for a host regime -/
  cell : Option Nat
  /-- host regime level 2 or 3, 0 for the cell regime -/
  host : Nat := 0
  asid : Nat := 0
  /-- first VA and PA, and log2 of the size, of the span it covers -/
  va : Nat
  ipa : Nat
  pa : Nat
  log2 : Nat
  /-- memory type, coded as in R223: 0 DEVICE, 1 NORMAL_NC, 2 NORMAL_WB, 3 NORMAL_WB_NA -/
  mt : Nat
  /-- permissions of both stages: 1 KR, 2 KW, 4 UR, 8 UW, 16 XN_K, 32 XN_U, 64 R, 128 W, 256 XN (R220) -/
  perm : Nat
  /-- walk levels of the two leaves -/
  lv1 : Nat := 0
  lv2 : Nat := 0
  /-- the entry came from a wrong-path access (R164) -/
  spec : Bool := false
  /-- no leaf still needs its DIRTY set by a store (R227) -/
  dirty : Bool := false
  /-- the 64 KiB stage-1 page that it came through (R222) -/
  big : Option BigPage := none
deriving DecidableEq, Repr

/-- A table walk under way at a core: what for. -/
structure Walk where
  va : Word
  fetch : Bool
  write : Bool
deriving DecidableEq, Repr

/-- A store-buffer entry (R247): physical address, memory type, bytes, and whether it is the first of a linked pair. -/
structure SbEntry where
  cell : Option CellId
  level : BitVec 2
  /-- memory type, coded as in R223 -/
  mt : Nat
  va : Word
  pa : Nat
  data : List Byte
  linked : Bool := false
  /-- entered by the word not yet ended -/
  fresh : Bool := false
  /-- a FENCE.S stands before it: earlier entries drain first -/
  barrier : Bool := false
  /-- VARIANT no-allocate (R120, R262) -/
  noAlloc : Bool := false
  /-- a TLB invalidation that began since it entered waits for it (R234) -/
  inv : Bool := false
  /-- its stream was released: it is issued in program order among those released with it (R254) -/
  released : Bool := false
  /-- its write has been sent and awaits its completion -/
  sent : Bool := false
deriving DecidableEq, Repr

/-- A blocked ordering stream as its core knows it (R254, R255). -/
structure Blocked where
  entry : Nat
  stream : Nat
  cell : Option CellId
  status : BitVec 3
  va : Word
deriving DecidableEq, Repr

/-- A line of the speculative fill buffer (R162), and the word that asked for it. -/
structure SpecLine where
  line : Nat
  /-- its data have arrived -/
  arrived : Bool := false
  /-- an instruction line; it is installed by the transport of its word (R163, R164) -/
  fetch : Bool := false
  /-- the address of the word that caused it -/
  pc : Word := 0
  /-- its word has been transported: the line is installed when the data arrive (R163) -/
  keep : Bool := false
  /-- its read on stream 13 -/
  txn : Option Nat := none
deriving DecidableEq, Repr

/-- A fill that an L1 cache of a core has asked for: its line, whether of the instruction cache, whether to be held
exclusively, the cell ID it carries, its transaction on stream 0 (none where the cluster's L2 or the pair's SRAM answers),
and a failed answer: status, and data of open value (R239, R75). -/
structure Fill where
  line : Nat
  fetch : Bool := false
  excl : Bool := false
  /-- an instruction line that no cache may hold (R262) -/
  na : Bool := false
  cell : Option CellId := none
  txn : Option Nat := none
  /-- its transaction has been answered -/
  answered : Bool := false
  failed : Option (BitVec 3 × List Byte) := none
deriving DecidableEq, Repr

/-- A fetched word in the prefetch queue (R144): its address, its bits, and the exception of a fetch that failed. -/
structure FetchWord where
  addr : Word
  word : Word := 0
  exc : Option Exc := none
deriving DecidableEq, Repr

/-- A CHK context (R370). -/
structure ChkCtx where
  owner : Option Nat := none
  /-- CHK_CFG, CHK_POLY, CHK_INIT and CHK_XOROUT as an S-core has written them: they take effect at the next T_INIT -/
  cfgW : Word := 0
  polyW : Word := 0
  initW : Word := 0
  xorW : Word := 0
  /-- cells whose last claim of the context failed -/
  denied : List Nat := []
  poly : Word := 0
  init : Word := 0
  xorout : Word := 0
  val : Word := 0
  exp : Word := 0
  /-- stored parity bits of the eight bytes of EXP -/
  par : BitVec 8 := 0
  st : OpStatus := {}
  cause : BitVec 4 := 0
  parBytes : BitVec 8 := 0
  /-- feed under way: bytes still to feed, in order -/
  feeding : List Byte := []
  /-- preset parameters: WIDTH, REFIN, REFOUT, PRESET code, TRAP -/
  width : Nat := 0
  refin : Bool := false
  refout : Bool := false
  preset : BitVec 8 := 0
  trap : Bool := false
deriving DecidableEq, Repr

/-- A line of an L1 data cache (R259, R265): written since its fill, and held writable. -/
structure L1Line where
  line : Nat
  dirty : Bool := false
  excl : Bool := false
deriving DecidableEq, Repr

/-- Why a core takes no step (R109, R152, R176, R423). -/
inductive CoreMode where
  /-- runs words -/
  | run
  /-- not yet released by boot (R408, R409) -/
  | held
  /-- an A-core without a task (R205) -/
  | free
  /-- its word waits for an LSU answer, fill or walk -/
  | waitLsu
  /-- its word waits for a long operation -/
  | waitLong
  /-- its word waits at a barrier -/
  | waitFence
  /-- locked up (R176) -/
  | locked
  /-- stopped for debug (R423) -/
  | stopped
  /-- stopped in safe state or by a lockstep mismatch (R340, R342) -/
  | safe
deriving DecidableEq, Repr

/-- A core. -/
structure Core where
  mode : CoreMode := .held
  ctx : Ctx := {}
  /-- the state before the word under way -/
  pre : Option Ctx := none
  pc : Word := 0
  level : BitVec 2 := 3
  cell : Option Nat := none
  task : Option Nat := none
  /-- steps left in the no-interrupt window (R179) -/
  window : BitVec 10 := 0
  sr1 : SaveSet := {}
  sr2 : SaveSet := {}
  sr3 : SaveSet := {}
  dtb1 : Word := 0
  dtb2 : Word := 0
  dtb3 : Word := 0
  /-- the core's own sealed L2 and L3 tables; `none` while unsealed -/
  tab2 : Option DescTable := none
  tab3 : Option DescTable := none
  exc : Option Exc := none
  irqs : List Irq := []
  /-- preemption asked for by the scheduler: the task to run, or `none` for a preemption that only frees the core -/
  preempt : Option (Option Nat) := none
  /-- the task on the core was RESET: it leaves without a save (R205) -/
  discard : Bool := false
  /-- the lines that the node buffer holds or awaits, and the task whose resume line is asked for (R195, R207) -/
  nodeBuf : List Nat := []
  resumeFor : Option Nat := none
  /-- the prefetch queue: fetched words, in the predicted order of execution (R144) -/
  fq : List FetchWord := []
  /-- a fetch group read from a line that no cache may hold: its physical address and bytes (R262) -/
  group : Option (Nat × List Byte) := none
  /-- decoded words: the one in transport and the one after it (R142) -/
  dq : List DecWord := []
  fetchPc : Word := 0
  /-- the last word decoded held a move into T_REP (R133) -/
  decRep : Bool := false
  /-- indirect-target table: INDEX ↦ (TAG, TARGET), and the history, most recent first (R148) -/
  itt : Tbl (Nat × Word) := []
  hist : List Word := []
  retStack : List Word := []
  spec : List SpecLine := []
  /-- lines present in L1 data and L1 instruction, most recently used first; an instruction line keeps the bytes it was
  filled with -/
  l1d : List L1Line := []
  l1i : List (Nat × List Byte) := []
  /-- fills started and not yet arrived -/
  fills : List Fill := []
  tlb : List TlbEntry := []
  walk : Option Walk := none
  /-- TLB_INV operations whose completion is awaited -/
  invWait : Bool := false
  sbuf : List SbEntry := []
  /-- cells that have executed a FENCE.S since their youngest entry entered (R250, R252) -/
  sfence : List (Option CellId) := []
  resv : Option Resv := none
  hold : Option Hold := none
  /-- the transaction issued for the waiting word, then its answer -/
  rdTxn : Option Txn := none
  rdAns : Option (BitVec 3 × List Byte) := none
  /-- a TLB invalidation that began since its issue waits for it (R234) -/
  rdInv : Bool := false
  /-- status and bytes of the parts of the waiting access that are already read (R153, R130) -/
  rdParts : List (BitVec 3 × List Byte) := []
  /-- failures of the ordering streams 1 and 2 of cells on this core, oldest first: block entry, stream, cell, status, VA (R254) -/
  blocked : List Blocked := []
  /-- source nodes of the lower and upper half (R194): physical address, 0 for none -/
  nodeLo : Nat := 0
  nodeHi : Nat := 0
  /-- WRITTEN/VALID of the nodes the halves came from -/
  validGroups : BitVec 6 := 0
  s1Root : Word := 0
  htRoot2 : Word := 0
  htRoot3 : Word := 0
  mttH2 : Word := 0x03020100
  mttH3 : Word := 0x03020100
  cellSel : CellId := 0
  cellResult : BitVec 2 := 0
  chk : Tbl ChkCtx := []
  /-- MPU registers of an S-core (R410) -/
  mpuEn : Bool := false
  mpuBase : Tbl Word := []
  mpuAttr : Tbl Word := []
  /-- STP stimulus values that wait for the trace path (R436, R437): port, value, timebase at the transport -/
  stim : List (Nat × Word × Word) := []
  /-- a debug stop is asked for at the next word boundary (R423) -/
  stopReq : Bool := false
  /-- a device read of the word was in flight at the stop -/
  stepOne : Bool := false
  lastTime : Word := 0
deriving DecidableEq, Repr

/-! ### Task control blocks and schedulers (chapter 09) -/

/-- Task states (R205), coded 0 to 5. -/
inductive TaskState where
  | dormant | waiting | ready | running | held | budgetHeld
deriving DecidableEq, Repr

/-- A task control block (CLU_TCB_W0 to W3), with what the scheduler keeps beside it. -/
structure Tcb where
  state : TaskState := .dormant
  /-- the state a HELD task left (R205) -/
  heldFrom : TaskState := .dormant
  cell : Nat := 0
  prio : Nat := 0
  cluster : Nat := 0
  coreMask : BitVec 8 := 0
  entryVa : Word := 0
  eager : Bool := false
  pending : Nat := 0
  saving : Bool := false
  /-- core of CLUSTER that runs the task, or ran it last -/
  core : Nat := 0
  /-- bound lower and upper node: physical address, 0 for none (R193) -/
  nodeLo : Nat := 0
  nodeHi : Nat := 0
  /-- lower and upper node of the last save, where a COMMIT has given back their binding (R51, R193) -/
  srcLo : Nat := 0
  srcHi : Nat := 0
  /-- the context is empty: no save has been made since the task was created (R205) -/
  fresh : Bool := true
  /-- save writes outstanding, and whether a hold answer is outstanding (R197) -/
  saves : Nat := 0
  holdOut : Bool := false
  /-- open deadline job -/
  job : Option Nat := none
  /-- the job whose overrun made the task BUDGET_HELD (R205) -/
  budgetJob : Option Nat := none
  /-- the task has been created and its block is in use -/
  made : Bool := false
deriving DecidableEq, Repr

/-- The free nodes of one half of a cell's save pool (R192): returned nodes, last in first, and the lowest-numbered
node never yet taken. -/
structure Pool where
  returned : List Nat := []
  next : Nat := 0
deriving DecidableEq, Repr

/-- An event on its way to the scheduler of its task: number, TCB and stamp of origin (R206, R304). -/
structure EvMsg where
  num : Nat
  tcb : Nat
  stamp : Word
  /-- the cell its route names (R39), and the cell that raised it (R13) -/
  dest : Nat := 0
  origin : Option Nat := none
deriving DecidableEq, Repr

/-- An asynchronous class on its way to L2 (R210, R315): class index, DETAIL and the cluster it is meant for first. -/
structure HvMsg where
  cls : Nat
  detail : Nat
  home : Nat
  /-- the cell that raised it (R13) -/
  origin : Option Nat := none
deriving DecidableEq, Repr

/-- A device event on its way to Mladette firmware, with the cell that raised it (R13, R339). -/
structure MldEvent where
  num : Nat
  cell : Option Nat := none
deriving DecidableEq, Repr

/-- What an event scheduler keeps (R206 to R210). -/
structure Clu where
  /-- events routed to the hypervisor, in arrival order (R210) -/
  hvQueue : List HvMsg := []
  merged : BitVec 16 := 0
  hvEnable : Bool := false
  hvCore : BitVec 3 := 0
  dropped : BitVec 32 := 0
  /-- frets that are open now -/
  openFrets : List Nat := []
  tcbSel : BitVec 16 := 0
  tcbResult : BitVec 2 := 0
  poolSel : CellId := 0
deriving DecidableEq, Repr

/-- The schedulers and their stores. -/
structure Sched where
  tcbs : Tbl Tcb := []
  /-- READY tasks in queue order, by cluster × 64 + PRIO -/
  ready : Tbl (List Nat) := []
  clus : Tbl Clu := []
  poolLo : Tbl Pool := []
  poolHi : Tbl Pool := []
  /-- routed events on their way to a task's scheduler, and events on their way to the hypervisor -/
  evTasks : List EvMsg := []
  evHv : List HvMsg := []
  /-- device events raised to Mladette firmware, oldest first (R339, R40) -/
  mld : List MldEvent := []
deriving DecidableEq, Repr

/-! ### Cells, translation and caches (chapters 10 to 12) -/

/-- Cell states (R215), coded 0 to 4. -/
inductive CellState where
  | absent | active | faulted | quiesced | halted
deriving DecidableEq, Repr

/-- What the device keeps for a cell beside its composition. -/
structure Cell where
  state : CellState := .absent
  /-- S1_CELL and the stage-1 and stage-2 type tables -/
  s1 : Word := 0
  mttS1 : Word := 0x03020100
  s2 : Word := 0
  mttS2 : Word := 0x03020100
  /-- sealed L1 descriptor tables by cluster (R171) -/
  tabs : Tbl DescTable := []
deriving DecidableEq, Repr

/-- The IOMMU (R235 to R237). -/
structure Iommu where
  iotlb : List TlbEntry := []
  fault : Word := 0
  faultAddr : Word := 0
  refused : BitVec 32 := 0
deriving DecidableEq, Repr

/-- A line held by an SLC slice (R265): class, owning cell, presence vector, way, and whether it is dirty. -/
structure SlcLine where
  line : Nat
  cls : Nat
  owner : Option Nat
  presence : BitVec 16 := 0
  way : Nat := 0
  dirty : Bool := false
deriving DecidableEq, Repr

/-- A line held by the L2 of a cluster: the cores that hold it in L1 data. -/
structure L2Line where
  line : Nat
  cls : Nat
  way : Nat := 0
  cores : BitVec 8 := 0
  dirty : Bool := false
deriving DecidableEq, Repr

/-- Who holds a site's maintenance token (SLC_TOKEN.HOLDER), coded 0 to 4. -/
inductive Holder where
  | none | hyp | commit | power | training
deriving DecidableEq, Repr

/-- A maintenance operation under way at a slice (R274): OP, ARG, LEN. -/
structure Mnt where
  op : Nat
  arg : Word
  len : Word
deriving DecidableEq, Repr

/-- What an SLC site keeps: its slice, its maintenance engine and its token. -/
structure Site where
  lines : List SlcLine := []
  /-- replacement orders (R263): ways, most recently used first, by set × 32 + class -/
  order : Tbl (List Nat) := []
  op : OpStatus := {}
  mnt : Option Mnt := none
  holder : Holder := .none
  qCommit : Bool := false
  qPower : Bool := false
  qTrain : Bool := false
  cause : BitVec 4 := 0
  trainHmc : BitVec 2 := 0
  /-- trainings that queue for the token: HMC number mod 4, in order -/
  trainQueue : List Nat := []
  ce : BitVec 32 := 0
  ue : BitVec 32 := 0
  /-- cores for which scratch lines of the site are reserved (R123): core and line -/
  marks : List (Nat × Nat) := []
deriving DecidableEq, Repr

/-- A REMASK that is not yet decided at every slice (R274): class, new mask, slices still running, and whether one ended
otherwise than DONE. -/
structure Remask where
  cls : Nat
  mask : BitVec 16
  slices : List Nat
  failed : Bool := false
deriving DecidableEq, Repr

/-- Caches, scratch and maintenance. -/
structure Cache where
  sites : Tbl Site := []
  /-- L2 lines of each cluster, and replacement orders by (cluster × 4,096 + set) × 32 + class -/
  l2 : Tbl (List L2Line) := []
  l2order : Tbl (List Nat) := []
  mntResult : BitVec 2 := 0
  remask : List Remask := []
  /-- WAY_MASKs that a REMASK has changed, by class -/
  masks : Tbl (BitVec 16) := []
  /-- units of a slice's data or of scratch with a single-bit or a double-bit check error, by address / 8: `true` for a
  double-bit error -/
  bad : Tbl Bool := []
  /-- sets whose tags hold an uncorrectable error (R272): of slices, by site × 8,192 + set, and of L2s, by cluster × 4,096 +
  set. No command makes one -/
  badTags : List Nat := []
  badL2Tags : List Nat := []
deriving DecidableEq, Repr

/-! ### Time (chapter 14) -/

/-- A timer (R306). -/
structure Timer where
  en : Bool := false
  periodic : Bool := false
  period : BitVec 32 := 0
  missed : BitVec 8 := 0
  cmp : Word := 0
deriving DecidableEq, Repr

/-- Job slot states (R308), coded 0 to 3. -/
inductive JobState where
  | unused | idle | opened | suspended
deriving DecidableEq, Repr

/-- A deadline job slot (R308 to R313). -/
structure Job where
  state : JobState := .unused
  deadline : Word := 0
  /-- USED of finished intervals, and the stamp of the interval that runs -/
  used : Nat := 0
  since : Option Word := none
  /-- its budget was exhausted in this instance (R313) -/
  exhausted : Option Word := none
  nDone : BitVec 16 := 0
  nMissed : BitVec 16 := 0
  nOverrun : BitVec 16 := 0
  nOverlap : BitVec 16 := 0
  /-- the next multiple of PERIOD_NS not yet taken as a release -/
  next : Nat := 0
deriving DecidableEq, Repr

/-- Cell watchdog states (TIME_WD_INFO.STATE), coded 0 to 3. -/
inductive WdState where
  | off | first | running | stopped
deriving DecidableEq, Repr

/-- The watchdog of a cell (R318 to R320): elapsed time counts from `base`; while frozen it is `kept`. -/
structure CellWd where
  state : WdState := .off
  base : Word := 0
  frozen : Bool := false
  kept : Nat := 0
deriving DecidableEq, Repr

/-- The TIME block. -/
structure TimeSt where
  locked : Bool := false
  refOk : Bool := false
  holdover : Bool := false
  /-- the reference is good again since this instant -/
  goodSince : Option Word := none
  ppsOut : Bool := false
  ppsRise : Word := 0
  ppsCap : Word := 0
  timers : Tbl Timer := []
  jobs : Tbl Job := []
  /-- closes on their way to the monitor: job and stamp, oldest first (R310) -/
  closes : List (Nat × Word) := []
  wds : Tbl CellWd := []
  /-- device watchdog: last kick or PORST_N, window, lock, tripped, and the WDO level -/
  devLast : Word := 0
  devMax : BitVec 16 := 200
  devMin : BitVec 16 := 0
  devLock : Bool := false
  devTripped : Bool := false
  wdo : Bool := false
deriving DecidableEq, Repr

/-! ### Zone network (chapter 16) -/

/-- A ring (R351 to R355): its configuration, its indices and its overflow count. -/
structure Ring where
  en : Bool := false
  /-- BASE, as a physical address -/
  base : Nat := 0
  logSlots : Nat := 0
  logSlot : Nat := 0
  result : BitVec 2 := 0
  prod : BitVec 16 := 0
  cons : BitVec 16 := 0
  overflow : BitVec 32 := 0
deriving DecidableEq, Repr

/-- Sequence recovery of an eliminating filter (R356): the highest number seen, the history of the 31 before it, the
last time a frame came, and for each port how many accepted numbers in a row it has not delivered. -/
structure Frer where
  last : Option (BitVec 16) := none
  hist : BitVec 32 := 0
  time : Word := 0
  missing : Tbl Nat := []
  noted : List Nat := []
deriving DecidableEq, Repr

/-- Egress stream states, coded 0 OFF, 1 LIVE, 2 STALE, 3 HOLD (R363). -/
inductive StreamState where
  | off | live | stale | hold
deriving DecidableEq, Repr

/-- A committed slot of an egress stream not yet freed: its index, the ports that have still to send it, and whether a
port has started it or it has been discarded. -/
structure EgSlot where
  index : BitVec 16
  ports : List Nat
  begun : Bool := false
deriving DecidableEq, Repr

/-- An egress stream (R360 to R366). -/
structure Stream where
  state : StreamState := .off
  /-- last commit -/
  commit : Word := 0
  /-- entry into STALE or HOLD: safe-frame periods start here -/
  since : Word := 0
  /-- the last instant at which a safe frame was queued -/
  lastSafe : Option Word := none
  nextCnt : BitVec 32 := 0
  rtag : BitVec 16 := 0
  safeSent : BitVec 32 := 0
  spoof : BitVec 32 := 0
  discarded : BitVec 32 := 0
  /-- committed slots not yet freed, in commit order -/
  slots : List EgSlot := []
deriving DecidableEq, Repr

/-- Where a frame that a port is to send comes from. -/
inductive FrameSrc where
  /-- slot of an egress stream -/
  | cell (stream : Nat) (index : BitVec 16)
  /-- safe frame of a stream -/
  | safe (stream : Nat)
  /-- slot of the host transmit ring -/
  | host (index : BitVec 16)
  /-- an answer of the boot ROM (R402) -/
  | boot
deriving DecidableEq, Repr

/-- A frame that waits at a port or is on its wire: class, bytes as they go out, and since when it is
ready. -/
structure TxFrame where
  src : FrameSrc
  tc : Nat
  bytes : List Byte
  ready : Word := 0
deriving DecidableEq, Repr

/-- A port (R346). -/
structure Port where
  up : Bool := false
  busOff : Bool := false
  preempt : Bool := false
  /-- frames ready, oldest first -/
  queue : List TxFrame := []
  /-- the frame on the wire, and when it started -/
  wire : Option (TxFrame × Word) := none
  /-- a preemptable frame stopped on its way, with the bytes already sent -/
  held : Option (TxFrame × Nat) := none
  /-- bytes of the frame on the wire that went out before it was last stopped -/
  sent : Nat := 0
  unmatched : BitVec 16 := 0
  bad : BitVec 16 := 0
  drop : BitVec 16 := 0
  /-- credit of each shaped class, in bits × 10⁶, and when it was last brought up to date (R348) -/
  credit : Tbl (Int × Word) := []
  /-- index of the gate list entry in force; `none` before BASE_TIME -/
  gate : Option Nat := none
  /-- the GATE_LIST that a COMMIT has replaced and that runs to the first cycle start of the new one (R349) -/
  oldGate : Option Rec := none
  /-- when the COMMIT replaced it -/
  gateSwap : Word := 0
deriving DecidableEq, Repr

/-- A received frame that is not yet reported: the cell it is for, and its lines that are still to be written, the one with
HDR last (R355). -/
structure RxPending where
  event : Nat
  index : BitVec 16
  hdr : BitVec 32
  stamp : Word
  cell : Option CellId := none
  lines : List (Nat × List Byte) := []
deriving DecidableEq, Repr

/-- The NET block. -/
structure NetSt where
  rx : Tbl Ring := []
  tx : Tbl Ring := []
  can : Tbl Ring := []
  hostRx : Ring := {}
  hostTx : Ring := {}
  frer : Tbl Frer := []
  streams : Tbl Stream := []
  ports : Tbl Port := []
  /-- watch entries of each site: the streams whose slot headers it watches (R352) -/
  watch : Tbl (List Nat) := []
  /-- writes of HDR on their way, oldest first -/
  hdrs : List RxPending := []
  /-- writes to a watched HDR not yet reported: stream (R360) -/
  reports : List Nat := []
deriving DecidableEq, Repr

/-! ### HBM controllers (chapter 13) -/

/-- Channel states, coded 0 to 4 (HMC_STATUS.STATE). -/
inductive ChanState where
  | untrained | training | ready | selfRefresh | failed
deriving DecidableEq, Repr

/-- Refresh states, coded 0 to 3 (HMC_REFRESH.STATE). -/
inductive RefState where
  | normal | catchUp | selfRefresh | stopped
deriving DecidableEq, Repr

/-- A request in the queue of a pseudo-channel (R283): how often it has been performed or reissued, and whether its
commands have been issued. -/
structure HmcReq where
  req : Req
  /-- its place in the order of arrival at the HMC (R283) -/
  num : Nat := 0
  /-- performances of a read that found it uncorrectable -/
  tries : Nat := 0
  /-- reissues after a parity error (R292) -/
  reissues : Nat := 0
  issued : Bool := false
  /-- status of R75 and bytes read, once performed -/
  ans : Option (BitVec 3 × List Byte) := none
deriving DecidableEq, Repr

/-- An answer of an HMC to its slice: the request, a status of R75 and the bytes read. -/
structure HmcAns where
  req : Req
  status : BitVec 3
  data : List Byte
deriving DecidableEq, Repr

/-- A pseudo-channel (R283 to R290). -/
structure PseudoChan where
  queue : List HmcReq := []
  ref : RefState := .stopped
  debt : Nat := 0
  /-- banks refreshed in the current round, and those that refresh now, oldest first -/
  banks : List Nat := []
  refreshing : List Nat := []
  /-- writes come ahead of reads until the buffer has drained to WQ_LOW -/
  draining : Bool := false
  /-- catch-up asked for by an entry into DOZE (R290) -/
  toSleep : Bool := false
  /-- a scrub read is under way -/
  scrubbing : Option Nat := none
  /-- since when the next scrub read waits (R285) -/
  scrubSince : Word := 0
  /-- since when a training access waits, if one does (R285, R295) -/
  trainSince : Option Word := none
deriving DecidableEq, Repr

/-- Kinds of training (R297). -/
inductive Training where
  | boot | retrain | scheduled
deriving DecidableEq, Repr

/-- An HMC. -/
structure Hmc where
  state : ChanState := .untrained
  /-- requests that have arrived (R283) -/
  arrived : Nat := 0
  op : OpStatus := {}
  rate : Nat := 0
  temp : BitVec 8 := 0
  /-- 0 3.9 µs, 1 1.95 µs, 2 0.975 µs; and the band HBM_HOT was last recorded for -/
  trefi : Nat := 0
  band : Nat := 0
  pc0 : PseudoChan := {}
  pc1 : PseudoChan := {}
  train : Option Training := none
  /-- step under way, rate tried -/
  step : Nat := 0
  tryRate : Nat := 0
  cause : Nat := 0
  repaired : BitVec 8 := 0
  started : Word := 0
  duration : BitVec 16 := 0
  /-- scheduled training due, last start and the temperature then -/
  due : Bool := false
  lastTrain : Word := 0
  lastTemp : BitVec 8 := 0
  result : BitVec 2 := 0
  position : BitVec 26 := 0
  errValid : Bool := false
  errOverflow : Bool := false
  errWord : Word := 0
  errPa : Word := 0
  ce : BitVec 32 := 0
  ue : BitVec 32 := 0
  armed : Bool := false
  answers : List HmcAns := []
deriving DecidableEq, Repr

/-! ### Power (chapters 02 and 18) -/

/-- Where a domain is (R385 to R388). -/
inductive DomState where
  /-- RUN at the PS kept beside -/
  | run
  /-- entering: steps 2, 3, 4 of R385, before the commit -/
  | quieting | fencing | settling
  /-- entering: committed -/
  | committed
  | doze | off
  /-- an entry that aborts -/
  | aborting
  | waking
deriving DecidableEq, Repr

/-- Well bias of a domain (R381): none, forward (PS0), reverse (DOZE). -/
inductive Bias where
  | none | forward | reverse
deriving DecidableEq, Repr

/-- SRAM assist of a domain (R381): nominal wordline, negative bitline on writes (PS2), read assist off (DOZE), and no
setting (OFF). -/
inductive Assist where
  | nominal | negBitline | readOff | unset
deriving DecidableEq, Repr

/-- A power domain. -/
structure Dom where
  state : DomState := .run
  /-- RUN state in force, and the one a change is on its way to -/
  ps : Nat := 1
  toPs : Option Nat := none
  target : Nat := 1
  /-- where an entry goes: 1 DOZE, 2 OFF -/
  goal : Nat := 1
  /-- the state that a wake leaves -/
  from' : Nat := 1
  /-- entry wanted: it has no vote and starts again when quiet (R386) -/
  wanted : Bool := false
  /-- a wake asked for after the commit, served when step 6 ends -/
  wakeAsked : Bool := false
  hvVote : Bool := true
  hvResult : BitVec 3 := 0
  /-- who started the entry under way: a cell, or `none` for the hypervisor; and who withdrew the last vote again before it
  ended -/
  starter : Option (Option Nat) := none
  nextStarter : Option (Option Nat) := none
  emulated : Bool := false
  /-- regulator output in mV -/
  mv : Nat := 0
  /-- well bias and SRAM assist in force -/
  bias : Bias := .none
  assist : Assist := .nominal
  /-- levels recorded for a state and temperature band (R22): key PS × 256 + band -/
  levels : Tbl Nat := []
  /-- states called for by the thermal controller, and when it last acted -/
  limited : Nat := 0
  thermAt : Word := 0
  /-- the slower state that a SPEED_FLOOR has moved it to (R25); 0 for none -/
  slowed : Nat := 0
  /-- event 18 raised for the crossing under way -/
  crossed : Bool := false
  /-- raises of 10 mV that wait for the PMIC -/
  raiseWaits : Nat := 0
deriving DecidableEq, Repr

/-- A canary (R19). -/
structure Canary where
  last : BitVec 10 := 0
  warn : BitVec 16 := 0
  floor : BitVec 16 := 0
  /-- consecutive samples low enough for R21 -/
  low : Nat := 0
deriving DecidableEq, Repr

/-- A junction sensor. -/
structure Sensor where
  temp : BitVec 8 := 0
  max : BitVec 8 := 0
deriving DecidableEq, Repr

/-- A command sent to the PMIC and not yet echoed (R451): its bytes and when it was sent. -/
structure PmicCmd where
  bytes : List Byte
  sent : Word
  dom : Nat
  /-- the rail it sets (0 VDD_CORE, 1 VDD_SLC), whether upward, and the raises of its domain that wait for its echo -/
  rail : Nat := 0
  up : Bool := false
  raises : Nat := 0
deriving DecidableEq, Repr

/-- The power controller. -/
structure PwrSt where
  doms : Tbl Dom := []
  /-- cell votes held: cell × 64 + domain -/
  votes : List Nat := []
  /-- RESULT and LAST_DOMAIN of each cell's last vote write -/
  results : Tbl (BitVec 3 × Nat) := []
  canaries : Tbl Canary := []
  sensors : Tbl Sensor := []
  pmic : List PmicCmd := []
  pmicOk : Bool := false
  coreMv : Nat := 0
  slcMv : Nat := 0
  /-- events held for a cluster's domain, in arrival order (R387) -/
  held : Tbl (List EvMsg) := []
  heldHv : Tbl (List HvMsg) := []
deriving DecidableEq, Repr

/-! ### Boot (chapter 19) -/

/-- Key gate region states, coded 0 to 3 (R396). -/
inductive KgState where
  | free | locked | checked | failed
deriving DecidableEq, Repr

/-- A key gate region. -/
structure KgRegion where
  base : Nat := 0
  len : Nat := 0
  state : KgState := .free
deriving DecidableEq, Repr

/-- Where the boot ROM is (R400 to R408). -/
inductive RomState where
  /-- device held in reset -/
  | reset
  /-- waiting for a source of the list -/
  | waiting
  /-- recovery loader: sends HELLO until BEGIN -/
  | hello
  /-- recovery loader: receives DATA -/
  | receiving
  /-- recovery loader: CHECK_ECDSA runs -/
  | verifying
  /-- firmware runs -/
  | done
  /-- END: pair 0 held -/
  | held
deriving DecidableEq, Repr

/-- The BOOT/KEY block and the boot ROM. -/
structure BootSt where
  /-- fuses blown since manufacture: what software has changed; the rest is `Config.fuseWord` -/
  lcBlown : Option (BitVec 2) := none
  lcNext : Option (BitVec 2) := none
  minBlown : BitVec 32 := 0
  /-- lifecycle in force: the fuses as sampled at PORST_N -/
  lc : BitVec 2 := 0
  strapPins : BitVec 3 := 0
  testEn : Bool := false
  strap : BitVec 3 := 0
  /-- BOOT_STATUS fields -/
  seq : BitVec 32 := 0
  failA : BitVec 4 := 0xF
  failB : BitVec 4 := 0xF
  statusLock : Bool := false
  recovery : Bool := false
  unverified : Bool := false
  seqTie : Bool := false
  slot : Bool := false
  srcIndex : BitVec 3 := 0
  source : BitVec 4 := 0xF
  lcResult : BitVec 2 := 0
  regions : Tbl KgRegion := []
  kgResult : BitVec 3 := 0
  /-- check under way: region and whether it is CHECK_ECDSA -/
  checking : Option (Nat × Bool) := none
  expect : List Word := []
  coreResult : BitVec 2 := 0
  skipA : Bool := false
  skipB : Bool := false
  skipSrc : BitVec 4 := 0
  rom : RomState := .reset
  /-- BOOT_KG_SEL and BOOT_ENTRY -/
  kgSel : Nat := 0
  entry : Nat := 0
  /-- position in the source list -/
  listPos : Nat := 0
  /-- the instant from which the timeout of the source waited for counts, once it does (R402) -/
  waitFrom : Option Word := none
  /-- bytes received into slot A and slot B over XG_1 (R402) -/
  gotA : Nat := 0
  gotB : Nat := 0
  /-- recovery loader: LENGTH and bytes accepted (R406) -/
  recLen : Nat := 0
  recGot : Nat := 0
  /-- SEQ of the END frame that awaits its ACK -/
  recSeq : BitVec 16 := 0
  /-- SEQ of the device's next HELLO or ACK -/
  txSeq : BitVec 16 := 0
  /-- BOOT_MAILBOX_IN and BOOT_MAILBOX_OUT -/
  mailIn : Word := 0
  mailOut : Word := 0
  /-- PORST_N is low -/
  porst : Bool := true
  /-- the device's own power-on reset lasts (R464) -/
  por : Bool := false
deriving DecidableEq, Repr

/-! ### Debug (chapter 20) -/

/-- AUTH_STATE, coded 0 to 4. -/
inductive AuthState where
  | idle | checking | challenged | opened | lockout
deriving DecidableEq, Repr

/-- What the debug block keeps for a cell. -/
structure DbgCell where
  ctrl : Word := 0
  result : BitVec 2 := 0
  cause : BitVec 3 := 0
  late : Bool := false
  /-- cores stopped for the cell, and cores that have still to stop -/
  stopped : List Nat := []
  waiting : List Nat := []
deriving DecidableEq, Repr

/-- The DBG block and the TAP. -/
structure DbgSt where
  ir : BitVec 5 := 0x02
  /-- STATUS and data of the TAP's last read -/
  tapStatus : BitVec 2 := 0
  tapData : Word := 0
  auth : AuthState := .idle
  /-- BEGIN or RESPOND is being checked: since when the state lasts -/
  since : Word := 0
  /-- session port: `none` no session, `some true` fabric -/
  port : Option Bool := none
  certLevel : BitVec 2 := 0
  /-- the ephemeral private key of a challenge (R417); 0 where it is erased -/
  ephKey : Nat := 0
  /-- the certificate that has passed, and the nonce drawn for it (R417) -/
  cert : List Byte := []
  nonce : List Byte := []
  level : BitVec 2 := 0
  fails : BitVec 8 := 0
  authResult : BitVec 3 := 0
  responding : Bool := false
  sideSuppressed : Bool := false
  window : Tbl Word := []
  cells : Tbl DbgCell := []
  coreResult : BitVec 2 := 0
  accResult : BitVec 2 := 0
  /-- cores stopped by DBG_CORE_CMD HALT -/
  coreHalts : List Nat := []
  stmMask : Tbl Word := []
  busResult : BitVec 4 := 0
  busBusy : Bool := false
  /-- a debug write has failed and its entry is not yet freed (R434) -/
  busBlocked : Bool := false
  trcResult : BitVec 2 := 0
  tbPtr : Nat := 0
  wrapped : Bool := false
  lostLines : BitVec 32 := 0
  lostPackets : BitVec 32 := 0
  /-- nibbles of packets emitted that await a full 64-bit block or a full line -/
  stream : List (BitVec 4) := []
  /-- nibbles since the last synchronisation packets -/
  sinceSync : Nat := 0
  /-- the last block that left on the trace port, and its lane -/
  portBlock : Word := 0
  portLane : BitVec 2 := 0
  /-- masters whose next packet is preceded by MERR -/
  merr : List Nat := []
  /-- the lowest core whose turn comes first at the trace path (R30) -/
  traceTurn : Nat := 0
deriving DecidableEq, Repr

/-! ### PCIe and peripheral ports (chapter 21) -/

/-- A PCIe port. -/
structure PcPort where
  l0 : Bool := false
  width : BitVec 5 := 0
  rate : BitVec 3 := 0
  aerC : BitVec 16 := 0
  aerU : BitVec 16 := 0
  /-- software has written PCIE_PORT_CTRL since reset, so its PERST holds for the pin (R465) -/
  perstSet : Bool := false
deriving DecidableEq, Repr
/-- An inbound request that PCIE has accepted and not yet seen performed (R443, R444), in the order received: a posted
write, a read, or an MSI. -/
structure Posted where
  port : Fin 4 := 0
  rid : BitVec 16
  cell : Nat
  tc : Nat
  write : Bool
  /-- the event that an MSI raises, and the instant PCIE received it (R304) -/
  msi : Option Nat := none
  stamp : Word := 0
  addr : Nat := 0
  size : Nat := 0
  data : List Byte := []
  /-- of type NORMAL_NC (R236) -/
  nc : Bool := false
  /-- its fabric transaction, once issued -/
  txn : Option Nat := none
deriving DecidableEq, Repr

/-- Completion statuses of PCI Express: successful completion, Unsupported Request, Completer Abort. -/
inductive CplStatus where
  | sc
  | ur
  | ca
deriving DecidableEq, Repr
/-- A completion that PCIE returns on a link (R237). -/
structure Cpl where
  port : Fin 4
  rid : BitVec 16
  status : CplStatus
  data : List Byte
deriving DecidableEq, Repr

/-- A DMA channel (R450). -/
structure DmaChan where
  desc : Word := 0
  dir : Bool := false
  port : BitVec 8 := 0
  /-- the instance and the direction that the last START bound the channel to -/
  bound : BitVec 8 := 0
  boundDir : Bool := false
  op : OpStatus := {}
  /-- IPA of the descriptor under way, and whether it has begun -/
  cur : Nat := 0
  begun : Bool := false
  /-- bytes of the descriptor already moved -/
  pos : Nat := 0
  /-- every data write of the descriptor is performed: DONE is next -/
  marked : Bool := false
  /-- a failed write holds its later writes (R330) -/
  paused : Bool := false
deriving DecidableEq, Repr

/-- A serial instance: UART, I3C_1 or xSPI: its registers, its receive FIFO, the bytes handed to the port, and the bytes
that found the FIFO full. -/
structure Serial where
  ctrl : Word := 0
  status : Word := 0
  rx : List Byte := []
  tx : List Byte := []
  lost : BitVec 32 := 0
deriving DecidableEq, Repr

/-- PCIE and PERI. -/
structure PeriSt where
  pcie : Tbl PcPort := []
  doorbell : BitVec 32 := 0
  posted : List Posted := []
  /-- the completion last returned -/
  cpl : Option Cpl := none
  dma : Tbl DmaChan := []
  /-- by KIND × 8 + INSTANCE -/
  serial : Tbl Serial := []
  /-- registers of the UFSHCI set, by number -/
  ufs : Tbl Word := []
  /-- UFS_RST_N has been released by the UFS host (R455) -/
  ufsOut : Bool := false
  /-- levels that the outside puts on the GPIO pads -/
  gpioIn : BitVec 32 := 0
deriving DecidableEq, Repr

/-! ### The device -/

/-- Why a step can stop. -/
inductive Fault where
  /-- A command whose operands no sender can present. No meaning of this model raises it (safe: it is there so that
  the outcome type is inhabited on every side). -/
  | illFormed
deriving DecidableEq, Repr

/-- Why a command has no meaning. -/
inductive Refusal where
  /-- The command of the table is not modelled: raised by an arm of `exec` only (safe: the run stops). -/
  | notModelled (mnemonic : String)
deriving DecidableEq, Repr

/-- The CSL-9140. -/
structure State where
  /-- commands that wait, first in, first out -/
  pending : List Instr := []
  /-- the model's own counter of free values drawn: nothing rests on its value -/
  free : Nat := 0
  /-- the timebase (R299) -/
  now : Word := 0
  /-- fields of registers that software writes and that no other field of the state holds, by address; an unlisted
  register holds its reset value -/
  regs : Tbl Word := []
  /-- memory: HBM, scratch and the Mladette SRAMs and boot ROM, in canonical form -/
  mem : List Host.Cell := []
  /-- poisoned aligned 8-byte units, by address / 8, rising (R329) -/
  poison : List Nat := []
  cores : Tbl Core := []
  sched : Sched := {}
  cells : Tbl Cell := []
  comp : Comp := {}
  fab : Fab := {}
  flt : Flt := {}
  cache : Cache := {}
  iommu : Iommu := {}
  time : TimeSt := {}
  net : NetSt := {}
  hbm : Tbl Hmc := []
  pwr : PwrSt := {}
  boot : BootSt := {}
  dbg : DbgSt := {}
  peri : PeriSt := {}
deriving DecidableEq, Repr

/-- The device right after reset: PORST_N has been asserted and nothing has happened since. -/
def State.reset : State := {}

end Sys2Proof.Machine
end

