-- ==== Sys2Proof/Machine/Bits.lean ====
section
/-! DEFINITION. Plain data helpers every operation uses: bit fields, bytes and words in little-endian order (R2),
sparse tables, and the three cyclic redundancy checks the device computes for itself. -/
namespace Sys2Proof.Machine

/-- Bits `hi` to `lo` of a 64-bit register, as a number. -/
def fld (w : Word) (hi lo : Nat) : Nat := (w.toNat >>> lo) % 2 ^ (hi - lo + 1)

/-- Bit `i` of a register. -/
def bit (w : Word) (i : Nat) : Bool := w.getLsbD i

/-- A register in which bits `hi` to `lo` take `x`. -/
def putFld (w : Word) (hi lo x : Nat) : Word :=
  let m : Nat := (2 ^ (hi - lo + 1) - 1) <<< lo
  (w &&& ~~~(BitVec.ofNat 64 m)) ||| (BitVec.ofNat 64 (x <<< lo) &&& BitVec.ofNat 64 m)

/-- A field value placed at bit `lo`, for a register put together from its fields. -/
def at' (x lo : Nat) : Nat := x <<< lo

/-- A Bool as a bit. -/
def b2n (b : Bool) : Nat := if b then 1 else 0

/-- A byte string as a number, least significant byte first (R2). -/
def leNat : List Byte → Nat
  | [] => 0
  | b :: bs => b.toNat + 256 * leNat bs

/-- The low `n` bytes of a number, least significant first (R2). -/
def natLe : Nat → Nat → List Byte
  | 0, _ => []
  | n + 1, x => BitVec.ofNat 8 x :: natLe n (x / 256)

/-- Big-endian number from bytes, bytes from a number (external protocols keep their own order, R2). -/
def beNat (bs : List Byte) : Nat := leNat bs.reverse
def natBe (n x : Nat) : List Byte := (natLe n x).reverse

/-- Is every item of the list distinct from the others? -/
def distinct {α : Type} [DecidableEq α] : List α → Bool
  | [] => true
  | x :: xs => !(xs.contains x) && distinct xs

/-- The entry of a table under key `k`, or `d` where none is listed. -/
def look {α : Type} (d : α) (k : Nat) : Tbl α → α
  | [] => d
  | (j, x) :: t => if j = k then x else look d k t

/-- A table with entry `k` set. -/
def put {α : Type} (k : Nat) (x : α) : Tbl α → Tbl α
  | [] => [(k, x)]
  | (j, y) :: t => if k < j then (k, x) :: (j, y) :: t else if k = j then (k, x) :: t else (j, y) :: put k x t

/-- A table without entry `k`. -/
def drop' {α : Type} (k : Nat) : Tbl α → Tbl α
  | [] => []
  | (j, y) :: t => if j = k then drop' k t else (j, y) :: drop' k t

/-- An item added at its place in a rising list without repeats. -/
def addSorted (k : Nat) : List Nat → List Nat
  | [] => [k]
  | j :: t => if k < j then k :: j :: t else if k = j then j :: t else j :: addSorted k t

/-- Saturating addition at width `w`. -/
def satAdd {w : Nat} (x : BitVec w) (n : Nat) : BitVec w :=
  if x.toNat + n < 2 ^ w then BitVec.ofNat w (x.toNat + n) else BitVec.allOnes w

/-- The low `n` bits of a number, in reverse order. -/
def revBits : Nat → Nat → Nat
  | 0, _ => 0
  | n + 1, x => (x % 2) * 2 ^ n + revBits n (x / 2)

/-- `n` steps of a most-significant-bit-first CRC register of width `w`. -/
def crcSteps (w poly : Nat) : Nat → Nat → Nat
  | 0, c => c
  | n + 1, c =>
    let d := (2 * c) % 2 ^ w
    crcSteps w poly n (if c / 2 ^ (w - 1) = 1 then d ^^^ poly else d)

/-- One byte fed into a CRC register of width `w` (R373): its bits most significant first, or least significant
first where the input is reflected. -/
def crcByte (w poly : Nat) (refin : Bool) (c : Nat) (b : Byte) : Nat :=
  let x := if refin then revBits 8 b.toNat else b.toNat
  -- a register narrower than a byte never occurs (WIDTH is 8 to 64)
  crcSteps w poly 8 (c ^^^ (x <<< (w - 8)))

/-- A CRC over bytes from a running value. -/
def crcFeed (w poly : Nat) (refin : Bool) : Nat → List Byte → Nat
  | c, [] => c
  | c, b :: bs => crcFeed w poly refin (crcByte w poly refin c b) bs

/-- CRC-32C over bytes (R36, R334): polynomial 0x1EDC6F41, reflected, initial and final value all ones. -/
def crc32c (bs : List Byte) : Nat :=
  revBits 32 (crcFeed 32 0x1EDC6F41 true 0xFFFFFFFF bs) ^^^ 0xFFFFFFFF

/-- CRC-8 SAE J1850 over bytes (R72): polynomial 0x1D, initial and final value 0xFF. -/
def crc8 (bs : List Byte) : Nat := crcFeed 8 0x1D false 0xFF bs ^^^ 0xFF

end Sys2Proof.Machine
end

