-- ==== Sys2Proof/Machine/Crypto.lean ====
section
/-! DEFINITION. The cryptographic functions that chapters 03, 19 and 20 name: SHA-384, HMAC-SHA-384, the counter-mode key
derivation of SP 800-108 (R395), ECDSA verification and ECDH over P-384 (R407, R417). Their algorithms are those of the
standards (PRESUMED, assumption 46); the spec names them. -/
namespace Sys2Proof.Machine

/-! ### SHA-384 and HMAC -/

/-- The round constants of SHA-512 and SHA-384. -/
def shaConstants : List Word :=
  [0x428a2f98d728ae22, 0x7137449123ef65cd, 0xb5c0fbcfec4d3b2f, 0xe9b5dba58189dbbc,
   0x3956c25bf348b538, 0x59f111f1b605d019, 0x923f82a4af194f9b, 0xab1c5ed5da6d8118] ++
  [0xd807aa98a3030242, 0x12835b0145706fbe, 0x243185be4ee4b28c, 0x550c7dc3d5ffb4e2,
   0x72be5d74f27b896f, 0x80deb1fe3b1696b1, 0x9bdc06a725c71235, 0xc19bf174cf692694] ++
  [0xe49b69c19ef14ad2, 0xefbe4786384f25e3, 0x0fc19dc68b8cd5b5, 0x240ca1cc77ac9c65,
   0x2de92c6f592b0275, 0x4a7484aa6ea6e483, 0x5cb0a9dcbd41fbd4, 0x76f988da831153b5] ++
  [0x983e5152ee66dfab, 0xa831c66d2db43210, 0xb00327c898fb213f, 0xbf597fc7beef0ee4,
   0xc6e00bf33da88fc2, 0xd5a79147930aa725, 0x06ca6351e003826f, 0x142929670a0e6e70] ++
  [0x27b70a8546d22ffc, 0x2e1b21385c26c926, 0x4d2c6dfc5ac42aed, 0x53380d139d95b3df,
   0x650a73548baf63de, 0x766a0abb3c77b2a8, 0x81c2c92e47edaee6, 0x92722c851482353b] ++
  [0xa2bfe8a14cf10364, 0xa81a664bbc423001, 0xc24b8b70d0f89791, 0xc76c51a30654be30,
   0xd192e819d6ef5218, 0xd69906245565a910, 0xf40e35855771202a, 0x106aa07032bbd1b8] ++
  [0x19a4c116b8d2d0c8, 0x1e376c085141ab53, 0x2748774cdf8eeb99, 0x34b0bcb5e19b48a8,
   0x391c0cb3c5c95a63, 0x4ed8aa4ae3418acb, 0x5b9cca4f7763e373, 0x682e6ff3d6b2b8a3] ++
  [0x748f82ee5defb2fc, 0x78a5636f43172f60, 0x84c87814a1f0ab72, 0x8cc702081a6439ec,
   0x90befffa23631e28, 0xa4506cebde82bde9, 0xbef9a3f7b2c67915, 0xc67178f2e372532b] ++
  [0xca273eceea26619c, 0xd186b8c721c0c207, 0xeada7dd6cde0eb1e, 0xf57d4f7fee6ed178,
   0x06f067aa72176fba, 0x0a637dc5a2c898a6, 0x113f9804bef90dae, 0x1b710b35131c471b] ++
  [0x28db77f523047d84, 0x32caab7b40c72493, 0x3c9ebe0a15c9bebc, 0x431d67c49c100d4c,
   0x4cc5d4becb3e42b6, 0x597f299cfc657e2a, 0x5fcb6fab3ad6faec, 0x6c44198c4a475817]
def beWord (bs : List Byte) : Word := BitVec.ofNat 64 (leNat bs.reverse)
/-- The eight working words of a hash. -/
structure Sha where
  a : Word
  b : Word
  c : Word
  d : Word
  e : Word
  f : Word
  g : Word
  h : Word
deriving DecidableEq, Repr
def shaStart : Sha :=
  { a := 0xcbbb9d5dc1059ed8, b := 0x629a292a367cd507, c := 0x9159015a3070dd17, d := 0x152fecd8f70e5939,
    e := 0x67332667ffc00b31, f := 0x8eb44a8768581511, g := 0xdb0c2e0d64f98fa7, h := 0x47b5481dbefa4fa4 }
/-- Rounds with their constants: the 16 next words of the schedule are in `w`. -/
def shaRounds : List Word → List Word → Sha → Sha
  | [], _, x => x
  | k :: ks, w, x =>
    let at' (i : Nat) : Word := w.getD i 0
    let t1 := x.h + (x.e.rotateRight 14 ^^^ x.e.rotateRight 18 ^^^ x.e.rotateRight 41) + ((x.e &&& x.f) ^^^ (~~~x.e &&& x.g)) + k + at' 0
    let t2 := (x.a.rotateRight 28 ^^^ x.a.rotateRight 34 ^^^ x.a.rotateRight 39) + ((x.a &&& x.b) ^^^ (x.a &&& x.c) ^^^ (x.b &&& x.c))
    let next := ((at' 14).rotateRight 19 ^^^ (at' 14).rotateRight 61 ^^^ (at' 14 >>> 6)) + at' 9 +
      ((at' 1).rotateRight 1 ^^^ (at' 1).rotateRight 8 ^^^ (at' 1 >>> 7)) + at' 0
    shaRounds ks (w.drop 1 ++ [next]) { a := t1 + t2, b := x.a, c := x.b, d := x.c, e := x.d + t1, f := x.e, g := x.f, h := x.g }
/-- Blocks of 128 bytes hashed in turn. -/
def shaBlocks : Nat → List Byte → Sha → Sha
  | 0, _, x => x
  | n + 1, bs, x =>
    let y := shaRounds shaConstants ((List.range 16).map (fun i => beWord ((bs.drop (8 * i)).take 8))) x
    shaBlocks n (bs.drop 128) { a := x.a + y.a, b := x.b + y.b, c := x.c + y.c, d := x.d + y.d, e := x.e + y.e, f := x.f + y.f, g := x.g + y.g, h := x.h + y.h }
/-- SHA-384 of some bytes. -/
@[irreducible] def sha384 (bs : List Byte) : List Byte :=
  let n := (bs.length + 17 + 127) / 128
  let m := bs ++ [0x80] ++ List.replicate (128 * n - bs.length - 17) 0 ++ natBe 16 (8 * bs.length)
  let x := shaBlocks n m shaStart
  [x.a, x.b, x.c, x.d, x.e, x.f].flatMap (fun w => natBe 8 w.toNat)
/-- HMAC-SHA-384 of a message under a key of at most 128 bytes. -/
def hmac384 (key bs : List Byte) : List Byte :=
  let k := key ++ List.replicate (128 - key.length) 0
  sha384 (k.map (fun b => b ^^^ 0x5C) ++ sha384 (k.map (fun b => b ^^^ 0x36) ++ bs))

/-! ### P-384 -/

def ecP : Nat := 0xfffffffffffffffffffffffffffffffffffffffffffffffffffffffffffffffeffffffff0000000000000000ffffffff
def ecN : Nat := 0xffffffffffffffffffffffffffffffffffffffffffffffffc7634d81f4372ddf581a0db248b0a77aecec196accc52973
def ecB : Nat := 0xb3312fa7e23ee7e4988e056be3f82d19181d9c6efe8141120314088f5013875ac656398d8a2ed19d2a85c8edd3ec2aef
/-- A point in Jacobian coordinates; z = 0 is the point at infinity. -/
structure EcPoint where
  x : Nat
  y : Nat
  z : Nat
deriving DecidableEq, Repr
def ecBase : EcPoint :=
  { x := 0xaa87ca22be8b05378eb1c71ef320ad746e1d3b628ba79b9859f741e082542a385502f25dbf55296c3a545e3872760ab7,
    y := 0x3617de4a96262c6f5d9e98bf9292dc29f8f41dbd289a147ce9da3113b5f0b8c00a60b1ce1d7e819d7a431d7c90ea0e5f, z := 1 }
/-- Difference modulo the field's prime. -/
def ecSub (a b : Nat) : Nat := (a + (ecP - b % ecP)) % ecP
def ecDouble (p : EcPoint) : EcPoint :=
  let d := p.z * p.z % ecP
  let g := p.y * p.y % ecP
  let b := p.x * g % ecP
  let a := 3 * (ecSub p.x d * (p.x + d)) % ecP
  let x := ecSub (a * a) (8 * b)
  { x := x, y := ecSub (a * ecSub (4 * b) x) (8 * (g * g)), z := 2 * (p.y * p.z) % ecP }
def ecAdd (p q : EcPoint) : EcPoint :=
  if p.z = 0 then q
  else if q.z = 0 then p
  else
    let zp := p.z * p.z % ecP
    let zq := q.z * q.z % ecP
    let u := p.x * zq % ecP
    let h := ecSub (q.x * zp) u
    let s := p.y * (q.z * zq % ecP) % ecP
    let r := ecSub (q.y * (p.z * zp % ecP)) s
    if h = 0 then (if r = 0 then ecDouble p else { x := 1, y := 1, z := 0 })
    else
      let h2 := h * h % ecP
      let h3 := h * h2 % ecP
      let x := ecSub (r * r) (h3 + 2 * (u * h2))
      { x := x, y := ecSub (r * ecSub (u * h2) x) (s * h3), z := h * (p.z * q.z % ecP) % ecP }
/-- The low `n` bits of a number times a point. -/
def ecMulBits : Nat → Nat → EcPoint → EcPoint
  | 0, _, _ => { x := 1, y := 1, z := 0 }
  | n + 1, k, p =>
    let r := ecMulBits n (k / 2) (ecDouble p)
    if k % 2 = 1 then ecAdd r p else r
@[irreducible] def ecMul (k : Nat) (p : EcPoint) : EcPoint := ecMulBits 384 k p
/-- The low `n` bits of an exponent: a power modulo m. -/
def powMod (m : Nat) : Nat → Nat → Nat → Nat
  | 0, _, _ => 1 % m
  | n + 1, e, a => let r := powMod m n (e / 2) (a * a % m); if e % 2 = 1 then r * a % m else r
/-- Inverse modulo a prime. -/
def invMod (m a : Nat) : Nat := powMod m 384 (m - 2) (a % m)
/-- Affine coordinates. -/
def ecX (p : EcPoint) : Nat := let i := invMod ecP p.z; p.x * (i * i % ecP) % ecP
def ecY (p : EcPoint) : Nat := let i := invMod ecP p.z; p.y * (i * (i * i % ecP) % ecP) % ecP
/-- A public key in SEC1 uncompressed form, 97 bytes: read, and written. -/
def ecRead (bs : List Byte) : EcPoint := { x := leNat ((bs.drop 1).take 48).reverse, y := leNat ((bs.drop 49).take 48).reverse, z := 1 }
def ecWrite (p : EcPoint) : List Byte := 0x04 :: (natBe 48 (ecX p) ++ natBe 48 (ecY p))
/-- Is it the form of a point of the curve? -/
def ecValid (bs : List Byte) : Bool :=
  let p := ecRead bs
  bs.length = 97 && bs.head? == some 0x04 && p.x < ecP && p.y < ecP && p.y * p.y % ecP = (p.x * p.x * p.x + (ecP - 3) * p.x + ecB) % ecP
/-- ECDSA verification: public key, message, and r then s in 48 bytes each. -/
@[irreducible] def ecdsaOk (key msg sig : List Byte) : Bool :=
  let r := leNat (sig.take 48).reverse
  let s := leNat ((sig.drop 48).take 48).reverse
  let e := leNat (sha384 msg).reverse
  let w := invMod ecN s
  let p := ecAdd (ecMul (e * w % ecN) ecBase) (ecMul (r * w % ecN) (ecRead key))
  ecValid key && 1 ≤ r && r < ecN && 1 ≤ s && s < ecN && p.z ≠ 0 && ecX p % ecN = r

/-! ### The fused keys (R395, R407) -/

/-- BOOT_UID. -/
def uidBytes : List Byte := natLe 8 (Config.fuseWord 2).toNat ++ natLe 8 (Config.fuseWord 3).toNat
def fuseBytes (k n : Nat) : List Byte := (List.range n).flatMap (fun i => natLe 8 (Config.fuseWord (k + i)).toNat)
def customerKeyHash : List Byte := fuseBytes 8 6
/-- The device key: one block of SP 800-108 in counter mode; its context is the lifecycle's byte and BOOT_UID. -/
def deviceKey (s : State) : List Byte :=
  let context : Byte := if s.boot.lc = 2 then 2 else 1
  hmac384 (fuseBytes 4 4) ([0, 0, 0, 1] ++ [0x43, 0x53, 0x4C, 0x39, 0x31, 0x34, 0x30, 0x20, 0x44, 0x4B] ++ [0, context] ++ uidBytes ++ natBe 4 384)
/-- HMAC-SHA-384 under the device key. -/
def macOf (s : State) (bs : List Byte) : List Byte := hmac384 (deviceKey s) bs

end Sys2Proof.Machine
end

