-- ==== Sys2Proof/Machine/Records.lean ====
section
/-! DEFINITION. Reading the composition: record types, fields and the questions the device asks of the composition in
force (chapter 03). -/
namespace Sys2Proof.Machine

/-- `n` bytes of a record's payload from offset `o`, as a number (R39). -/
def rfld (r : Rec) (o n : Nat) : Nat := leNat ((r.data.drop o).take n)
/-- One byte, two, four and eight bytes of a payload. -/
def ru8 (r : Rec) (o : Nat) : Nat := rfld r o 1
def ru16 (r : Rec) (o : Nat) : Nat := rfld r o 2
def ru32 (r : Rec) (o : Nat) : Nat := rfld r o 4
def ru64 (r : Rec) (o : Nat) : Nat := rfld r o 8

/-- Record types (R39). -/
def tCELL := 0x0001
def tTASK := 0x0002
def tRECOMP := 0x0003
def tPLACE := 0x1001
def tHBM := 0x2001
def tPCRES := 0x2002
def tCLASS := 0x2003
def tCCLASS := 0x2004
def tSCRATCH := 0x2005
def tPOOL := 0x2006
def tSWITCH := 0x3001
def tPASS := 0x3002
def tDEVTO := 0x3003
def tROUTE := 0x4001
def tMAJOR := 0x5001
def tFRET := 0x5002
def tJOB := 0x6001
def tFILTER := 0x7001
def tEGRESS := 0x7002
def tGATE := 0x7003
def tSAFE := 0x8001
def tVOTE := 0x9001
def tFLOOR := 0x9002
def tCHK := 0xA001
def tREACT := 0xB001
def tEXTSAFE := 0xB002
def tDEBUG := 0xC001
def tEXPERT := 0xC002
def tOWNER := 0xD001
def tGPIO := 0xD002
def tIOMMU := 0xD003

/-- The records of one type, in image order. -/
def recsOf (rs : List Rec) (t : Nat) : List Rec := rs.filter (fun r => r.typ = t)

/-- The first record of a type that a test accepts. -/
def findRec (rs : List Rec) (t : Nat) (p : Rec → Bool) : Option Rec := rs.find? (fun r => r.typ = t && p r)

/-- The CELL record of a cell. -/
def cellRec (rs : List Rec) (c : Nat) : Option Rec := findRec rs tCELL (fun r => ru16 r 0 = c)

/-- KIND of a cell: 0 open, 1 real-time, 2 safety; 0 for a cell that is not composed. -/
def kindIn (rs : List Rec) (c : Nat) : Nat := ((cellRec rs c).map (fun r => ru8 r 2)).getD 0

/-- Is the cell composed? -/
def cellIn (rs : List Rec) (c : Nat) : Bool := (cellRec rs c).isSome

/-- Safety cells, and safety or real-time cells. -/
def isSafety (rs : List Rec) (c : Nat) : Bool := cellIn rs c && kindIn rs c == 2
def isProtected (rs : List Rec) (c : Nat) : Bool := cellIn rs c && (kindIn rs c == 1 || kindIn rs c == 2)

/-- The cells of a composition. -/
def cellsOf (rs : List Rec) : List Nat := (recsOf rs tCELL).map (fun r => ru16 r 0)

/-- CLUSTER_MASK and CORE_MASK of a cell's CELL_PLACE (R39). -/
def clusterMask (rs : List Rec) (c : Nat) : Nat := ((findRec rs tPLACE (fun r => ru16 r 0 = c)).map (fun r => ru16 r 2)).getD 0
def coreMask (rs : List Rec) (c : Nat) : Nat := ((findRec rs tPLACE (fun r => ru16 r 0 = c)).map (fun r => rfld r 8 16)).getD 0

/-- Is core `k` (n × 8 + k) in the cell's CORE_MASK? -/
def onCore (rs : List Rec) (c k : Nat) : Bool := (coreMask rs c).testBit k

/-- The class a cell uses (CELL_CLASS). -/
def classOf (rs : List Rec) (c : Nat) : Option Nat := (findRec rs tCCLASS (fun r => ru16 r 0 = c)).map (fun r => ru8 r 2)
/-- The cells that use a class. -/
def classUsers (rs : List Rec) (k : Nat) : List Nat := (recsOf rs tCCLASS).filterMap (fun r => if ru8 r 2 = k then some (ru16 r 0) else none)

/-- The EVENT_ROUTE of an event. -/
def routeOf (rs : List Rec) (e : Nat) : Option Rec := findRec rs tROUTE (fun r => ru16 r 0 = e)

/-- The owner of a peripheral (PERIPH_OWNER); `none` is the hypervisor (R40). -/
def ownerOf (rs : List Rec) (kind inst : Nat) : Option Nat := (findRec rs tOWNER (fun r => ru8 r 0 = kind && ru8 r 1 = inst)).map (fun r => ru16 r 2)

/-- EXPERT_PERMIT of instance `n` of block code `b` (R6, R40). -/
def expertPermit (rs : List Rec) (b n : Nat) : Bool := ((findRec rs tEXPERT (fun r => ru8 r 0 = b)).map (fun r => (ru64 r 4).testBit n)).getD false

/-- Number of RUN states' slowest one: what an absent DOMAIN_FLOOR gives (R40). -/
def slowestOffered (d : Nat) : Nat := if d < 16 then 2 else 1
/-- SLOWEST_PS and IDLE_STATE of a domain (R40). -/
def slowestPs (rs : List Rec) (d : Nat) : Nat := ((findRec rs tFLOOR (fun r => ru8 r 0 = d)).map (fun r => ru8 r 1)).getD (slowestOffered d)
def idleState (rs : List Rec) (d : Nat) : Nat := ((findRec rs tFLOOR (fun r => ru8 r 0 = d)).map (fun r => ru8 r 2)).getD 1

/-- ENABLE and FILTER_US of EXT_SAFE (R40). -/
def extSafe (rs : List Rec) : Bool × Nat := ((findRec rs tEXTSAFE (fun _ => true)).map (fun r => (ru8 r 0 == 1, ru8 r 1))).getD (true, 0)

/-- MAX_LEVEL, WD_FREEZE and GRACE_US of DEBUG_POLICY (R40). -/
def debugPolicy (rs : List Rec) : Nat × Bool × Nat :=
  ((findRec rs tDEBUG (fun _ => true)).map (fun r => (ru8 r 0, ru8 r 1 == 1, ru32 r 4))).getD (0, true, 1000)

/-- Node address of lower or upper node `n` of a cell's pool (R192). -/
def poolRec (rs : List Rec) (c : Nat) : Option Rec := findRec rs tPOOL (fun r => ru16 r 0 = c)
def poolCount (rs : List Rec) (c : Nat) (hi : Bool) : Nat := ((poolRec rs c).map (fun r => ru16 r (if hi then 4 else 2))).getD 0
def nodeAddr (rs : List Rec) (c : Nat) (hi : Bool) (n : Nat) : Nat :=
  match poolRec rs c with
  | none => 0
  | some r => if hi then ru64 r 8 + 512 * ru16 r 2 + 1536 * n else ru64 r 8 + 512 * n

/-- Home HMC and pseudo-channel of an HBM address are given in `Hbm.lean`; the home stack is the 48 GiB it lies in. -/
def hbmLimit : Nat := 0x03000000000
def scratchBase : Nat := 0xF0000000000
def scratchLimit : Nat := 0xF0002000000

end Sys2Proof.Machine
end

