-- ==== Sys2Proof/Machine/Ops.lean ====
section
/-! DEFINITION. The named operations over memory, cores, cells, faults and events that every meaning uses. -/
namespace Sys2Proof.Machine

/-! ### Memory -/

/-- What an address holds that memory does not list: zero. Scratch is zeroed at PORST_N (R271); for every other
memory the spec gives no content before a write, and zero is a DESIGN CHOICE (assumption 2). -/
def unlistedByte : Byte := 0

/-- Read one byte of a memory list. -/
def cellGet (a : Nat) : List Host.Cell → Byte
  | [] => unlistedByte
  | (b, x) :: t => if b = a then x else cellGet a t

/-- Write one byte of a memory list, keeping it rising and without entries equal to what an unlisted address reads. -/
def cellPut (a : Nat) (x : Byte) : List Host.Cell → List Host.Cell
  | [] => if x = unlistedByte then [] else [(a, x)]
  | (b, y) :: t =>
    if a < b then (if x = unlistedByte then (b, y) :: t else (a, x) :: (b, y) :: t)
    else if a = b then (if x = unlistedByte then t else (a, x) :: t)
    else (b, y) :: cellPut a x t

/-- The canonical form of a memory list, below a bound already passed. -/
def cellsWf : Option Nat → List Host.Cell → Bool
  | _, [] => true
  | lo, (a, x) :: t => (match lo with | none => true | some b => decide (b < a)) && decide (x ≠ unlistedByte) && cellsWf (some a) t

/-- The canonical form of the device's memory. -/
def Memory.wf (m : List Host.Cell) : Bool := cellsWf none m

/-- The byte at a physical address. -/
def rdByte (s : State) (a : Nat) : Byte := cellGet a s.mem
/-- The byte at a physical address written. -/
def wrByte (s : State) (a : Nat) (x : Byte) : State := { s with mem := cellPut a x s.mem }

/-- `n` bytes from a physical address upward. -/
def rdBytes (s : State) (a : Nat) : Nat → List Byte
  | 0 => []
  | n + 1 => rdByte s a :: rdBytes s (a + 1) n

/-- Bytes written from a physical address upward. -/
def cellsPut (a : Nat) : List Byte → List Host.Cell → List Host.Cell
  | [], m => m
  | x :: xs, m => cellsPut (a + 1) xs (cellPut a x m)

/-- A number of `n` bytes at an address, little-endian (R2). -/
def rdNat (s : State) (a n : Nat) : Nat := leNat (rdBytes s a n)

/-- Is any of the `n` bytes from `a` in a poisoned unit (R329)? -/
def poisonedAt (s : State) (a n : Nat) : Bool := s.poison.any (fun u => a / 8 ≤ u && u ≤ (a + n - 1) / 8)

/-- The units that a write of `n` bytes from `a` covers whole lose their poison; one it covers in part keeps it
(R329). -/
def clearPoison (p : List Nat) (a n : Nat) : List Nat := p.filter (fun u => !(a ≤ 8 * u && 8 * u + 8 ≤ a + n))

/-- A write of bytes to memory, with its effect on poison (R329). -/
def wrBytes (s : State) (a : Nat) (bs : List Byte) : State :=
  { s with mem := cellsPut a bs s.mem, poison := clearPoison s.poison a bs.length }

/-- Mark the unit of an address poisoned. -/
def setPoison (s : State) (a : Nat) : State := { s with poison := addSorted (a / 8) s.poison }

/-- Every byte from `a` of `n` bytes becomes zero with valid check bits. -/
def zeroRange (s : State) (a n : Nat) : State :=
  { s with mem := s.mem.filter (fun c => !(a ≤ c.1 && c.1 < a + n)), poison := s.poison.filter (fun u => !(a ≤ 8 * u && 8 * u < a + n)) }

/-! ### The address map (R478, R479) -/

/-- What a physical address reaches. -/
inductive Region where
  | hbm | scratch (n : Nat) | rom | sram (pair : Nat) | pcie (port : Nat) | regs (ep : Nat) | none
deriving DecidableEq, Repr

/-- Endpoint of the register block that holds a register address (R479), if a block covers it. -/
def blockEp (a : Nat) : Option Nat :=
  let o := a - 0xF8000000000
  if a < 0xF8000000000 ∨ 0xF8000AFFFFF < a then none
  else if o < 0x10000 then some 0x63
  else if o < 0x30000 then some 0x64
  else if o < 0x70000 then some 0x63
  else if o < 0x80000 then some 0x64
  else if o < 0x100000 then none
  else if o < 0x200000 then some ((o - 0x100000) / 0x10000)
  else if o < 0x600000 then some (0x20 + (o - 0x200000) / 0x10000)
  else if o < 0x700000 then some 0x10
  else if o < 0x800000 then some 0x60
  else if o < 0xA00000 then some 0x61
  else some 0x62

/-- The map of R478. -/
def regionOf (a : Nat) : Region :=
  if a < hbmLimit then .hbm
  else if 0xC0000000000 ≤ a ∧ a < 0xE0000000000 then .pcie ((a - 0xC0000000000) / 0x8000000000)
  else if scratchBase ≤ a ∧ a < scratchLimit then .scratch ((a - scratchBase) / 0x200000)
  else if 0xF0040000000 ≤ a ∧ a < 0xF0040040000 then .rom
  else if 0xF0040100000 ≤ a ∧ a < 0xF0040180000 then .sram 0
  else if 0xF0040180000 ≤ a ∧ a < 0xF0040200000 then .sram 1
  else match blockEp a with
    | some e => .regs e
    | none => .none

/-- Stack and stack offset of an HBM address. -/
def stackOf (a : Nat) : Nat := a / 0xC00000000
/-- Pseudo-channel index q of a stack offset (R281). -/
def pcIndex (o : Nat) : Nat :=
  if o < 0x800000000 then
    (o >>> 8) % 32 ^^^ (o >>> 13) % 32 ^^^ (o >>> 18) % 32 ^^^ (o >>> 23) % 32 ^^^ (o >>> 28) % 32 ^^^ (o >>> 33) % 4
  else (o - 0x800000000) / 0x20000000
/-- HMC, pseudo-channel and local offset of an HBM address (R281). -/
def hmcOf (a : Nat) : Nat := 16 * stackOf a + pcIndex (a % 0xC00000000) / 2
def pcOf (a : Nat) : Nat := pcIndex (a % 0xC00000000) % 2
def localOf (a : Nat) : Nat :=
  let o := a % 0xC00000000
  if o < 0x800000000 then (o >>> 13) * 256 + o % 256
  else 0x40000000 + (o - 0x800000000) % 0x20000000
/-- Home site of an HBM address (R261, R282). -/
def homeSite (a : Nat) : Nat := hmcOf a / 4
/-- Is the address in the window of a pseudo-channel (R282)? -/
def windowOf (a : Nat) : Option (Nat × Nat) :=
  if a < hbmLimit ∧ 0x800000000 ≤ a % 0xC00000000 then some (hmcOf a, pcOf a) else none

/-- The endpoint that serves an address (R56, R478). -/
def endpointOf (a : Nat) : Option Nat :=
  match regionOf a with
  | .hbm => some (0x10 + homeSite a)
  | .scratch n => some (0x10 + n)
  | .rom | .sram _ => some 0x63
  | .pcie _ => some 0x61
  | .regs e => some e
  | .none => none

/-! ### Parties (R58, R53) -/

/-- Endpoint and unit of an initiator ID. -/
def initEp (i : InitId) : Nat := i.toNat / 8
def initUnit (i : InitId) : Nat := i.toNat % 8
/-- A Mladette pair. -/
def isMld (a : Access) : Bool := initEp a.init == 0x63 && initUnit a.init ≤ 1
/-- The hypervisor: level L2 on an A-core (R53). -/
def isHyp (a : Access) : Bool := initEp a.init ≤ 15 && a.level == 2
/-- The initiator ID of a core: its endpoint and unit; a Mladette pair is AON unit 0 or 1. -/
def coreInit (c : Nat) : InitId := if c < 128 then BitVec.ofNat 10 c else BitVec.ofNat 10 (0x63 * 8 + (c - 128))

/-! ### Cores and cells -/

/-- A core, and a core replaced. -/
def getCore (s : State) (c : Nat) : Core := look {} c s.cores
def setCore (s : State) (c : Nat) (k : Core) : State := { s with cores := put c k s.cores }
/-- A core changed. -/
def updCore (s : State) (c : Nat) (f : Core → Core) : State := setCore s c (f (getCore s c))
/-- An S-core of a Mladette pair. -/
def isS (c : Nat) : Bool := 128 ≤ c
/-- The cluster of an A-core. -/
def cluOf (c : Nat) : Nat := c / 8

/-- The numbers of all cores. -/
def allCores : List Nat := List.range 130
/-- The cores whose entry the state lists (any other core is as at reset). -/
def listedCores (s : State) : List Nat := s.cores.map (·.1)

/-- A cell, and a cell changed. -/
def getCell (s : State) (c : Nat) : Cell := look {} c s.cells
def updCell (s : State) (c : Nat) (f : Cell → Cell) : State := { s with cells := put c (f (getCell s c)) s.cells }
/-- The state of a cell (R215). -/
def cellState (s : State) (c : Nat) : CellState := (getCell s c).state

/-- A task control block, and one changed. -/
def getTcb (s : State) (t : Nat) : Tcb := look {} t s.sched.tcbs
def updTcb (s : State) (t : Nat) (f : Tcb → Tcb) : State :=
  { s with sched := { s.sched with tcbs := put t (f (getTcb s t)) s.sched.tcbs } }
/-- A cluster's scheduler, and one changed. -/
def getClu (s : State) (n : Nat) : Clu := look {} n s.sched.clus
def updClu (s : State) (n : Nat) (f : Clu → Clu) : State :=
  { s with sched := { s.sched with clus := put n (f (getClu s n)) s.sched.clus } }

/-- An SLC site, and one changed. -/
def getSite (s : State) (n : Nat) : Site := look {} n s.cache.sites
def updSite (s : State) (n : Nat) (f : Site → Site) : State :=
  { s with cache := { s.cache with sites := put n (f (getSite s n)) s.cache.sites } }

/-! ### Free values -/

/-- Draw the number of a fresh free value: the counter stands for nothing but itself. -/
def drawFree (s : State) : Nat × State := (s.free, { s with free := s.free + 1 })

/-! ### Faults (R324, R334, R335) -/

/-- Default class of a fault code (R338); for a code whose class depends on the case, its lowest. -/
def defaultClass (code : Nat) : Nat :=
  if code = 0x0206 ∨ code = 0x0503 ∨ code = 0x0602 then 1
  else if code ∈ [0x0301, 0x0302, 0x0303, 0x0306, 0x0405, 0x0504, 0x0507, 0x0701, 0x0704, 0x0705, 0x0706, 0x0708, 0x0C06] then 2
  else if code ∈ [0x0207, 0x0505, 0x0607, 0x0609, 0x0707, 0x070A, 0x0802, 0x0C01, 0x0C02, 0x0C04, 0x0C05] then 3
  else 0

/-- The fault codes that R338 lists. -/
def faultCodes : List Nat :=
  [0x0001, 0x0002, 0x0003, 0x0101, 0x0102, 0x0103, 0x0201, 0x0202, 0x0203, 0x0204, 0x0205, 0x0206, 0x0207,
   0x0301, 0x0302, 0x0303, 0x0304, 0x0305, 0x0306] ++
  [0x0401, 0x0402, 0x0403, 0x0404, 0x0405, 0x0501, 0x0502, 0x0503, 0x0504, 0x0505, 0x0506, 0x0507, 0x0508,
   0x0601, 0x0602, 0x0603, 0x0604, 0x0605, 0x0606, 0x0607, 0x0608, 0x0609] ++
  [0x0701, 0x0702, 0x0703, 0x0704, 0x0705, 0x0706, 0x0707, 0x0708, 0x0709, 0x070A, 0x070B, 0x0801, 0x0802, 0x0803,
   0x0901, 0x0902, 0x0903, 0x0904, 0x0905, 0x0906] ++
  [0x0A01, 0x0A02, 0x0A03, 0x0A04, 0x0B01, 0x0B02, 0x0C01, 0x0C02, 0x0C03, 0x0C04, 0x0C05, 0x0C06, 0x0C07]

/-- SOURCE of a unit (R335): endpoint, unit, SUB. -/
def src (ep unit sub : Nat) : BitVec 16 := BitVec.ofNat 16 (sub * 1024 + ep * 8 + unit)

/-- A fault is detected: its message sets out for the collector (R324). -/
def raise (s : State) (m : FaultMsg) : State :=
  { s with flt := { s.flt with raised := s.flt.raised ++ [{ m with time := s.now }] } }

/-- A fault of default class with no address. -/
def fault (s : State) (code : Nat) (source : BitVec 16) (cell : Option Nat) : State :=
  raise s { code := code, cls := BitVec.ofNat 2 (defaultClass code), source := source, cell := cell.map (BitVec.ofNat 12) }

/-- A fault of a given class. -/
def faultC (s : State) (code cls : Nat) (source : BitVec 16) (cell : Option Nat) : State :=
  raise s { code := code, cls := BitVec.ofNat 2 cls, source := source, cell := cell.map (BitVec.ofNat 12) }

/-- A refused register access is recorded once: the register's address, the refusing unit, the accessor (R335, R484). -/
def refuse (s : State) (a : Access) (code : Nat) (source : BitVec 16) (pa : Nat) : State :=
  raise s { code := code, cls := BitVec.ofNat 2 (defaultClass code), source := source, cell := a.cell,
            addr := some (BitVec.ofNat 64 pa, false), init := some (a.init, 2) }

/-! ### Classes (R325) -/

/-- COMPOSED of a code: the class of its REACTION record, or its lowest default class. -/
def composedClass (s : State) (code : Nat) : Nat :=
  if s.comp.isSealed then ((findRec s.comp.live tREACT (fun r => ru16 r 0 = code)).map (fun r => max (ru8 r 2) (defaultClass code))).getD (defaultClass code)
  else defaultClass code
/-- The class of a REACTION record alone. -/
def reactionClass (s : State) (code : Nat) : Nat :=
  if s.comp.isSealed then ((findRec s.comp.live tREACT (fun r => ru16 r 0 = code)).map (fun r => ru8 r 2)).getD 0 else 0
/-- FLT_REACT.RAISE of a code; its derived value is COMPOSED, which raises nothing. -/
def raiseClass (s : State) (code : Nat) : Nat := ((s.flt.raise.find? (fun e => e.1 = code)).map (fun e => e.2.toNat)).getD (reactionClass s code)

/-- The class in force: whether it was raised above the detecting logic's, and whether a class K fault without a present
cell was taken as class D. -/
def classInForce (s : State) (m : FaultMsg) : Nat × Bool × Bool :=
  let c := max m.cls.toNat (max (reactionClass s m.code) (raiseClass s m.code))
  let lost : Bool := c = 2 && (match m.cell with | none => true | some x => cellState s x.toNat = .absent)
  (if lost then 3 else c, m.cls.toNat < c, lost)

/-! ### Device events (R481, R40, R339) -/

/-- Is the event held for its target: its cell is a target being recomposed (R49)? Held events are delivered at RELEASE. -/
def quiescing (s : State) : Bool :=
  match s.comp.engine with
  | .quiescing | .quiesced | .committing | .committed => true
  | _ => false

/-- The cell in which an event originates (R13, R481): the owner of its timer, peripheral, DMA channel's instance or
filter. A device event has none, and an MSI has that of its requester's map. -/
def originOf (s : State) (e : Nat) : Option Nat :=
  if !s.comp.isSealed ∨ e < 128 then none
  else if e < 384 then (routeOf s.comp.live e).bind (fun r => if ru8 r 6 = 0 then some (ru16 r 2) else none)
  else if e < 896 then none
  else if e < 928 then ownerOf s.comp.live 4 (e - 896)
  else if e < 930 then ownerOf s.comp.live 0 (e - 928)
  else if e = 930 then ownerOf s.comp.live 1 1
  else if e < 933 then ownerOf s.comp.live 2 (e - 931)
  else if e = 933 then ownerOf s.comp.live 3 0
  else if e < 936 then ownerOf s.comp.live 5 (e - 934)
  else if e < 940 then ownerOf s.comp.live 6 (e - 936)
  else if e < 956 then
    let b := (look ({} : DmaChan) (e - 940) s.peri.dma).bound.toNat
    ownerOf s.comp.live (b / 8) (b % 8)
  else (findRec s.comp.live tFILTER (fun r => ru16 r 2 = e)).map (fun r => ru16 r 4)

/-- An event is raised at its source: device events 0 to 127 reach Mladette firmware whether routed or not, and a route
sends the event to its task's scheduler or to the hypervisor (R39, R40). It carries its cell on every way (R13). -/
def raiseEventBy (s : State) (e : Nat) (stamp : Word) (origin : Option Nat) : State :=
  let s1 := if e < 128 then { s with sched := { s.sched with mld := s.sched.mld ++ [{ num := e, cell := origin }] } } else s
  if s.comp.isSealed then
    match routeOf s.comp.live e with
    | none => s1
    | some r =>
      if ru8 r 6 = 0 then
        { s1 with sched := { s1.sched with evTasks := s1.sched.evTasks ++ [{ num := e, tcb := ru16 r 4, stamp := stamp, dest := ru16 r 2, origin := origin }] } }
      else if ru8 r 6 = 1 then
        { s1 with sched := { s1.sched with evHv := s1.sched.evHv ++ [{ cls := 0x18, detail := e, home := e % 16, origin := origin }] } }
      else if e < 128 then s1
      else { s1 with sched := { s1.sched with mld := s1.sched.mld ++ [{ num := e, cell := origin }] } }
  else s1
def raiseEventAt (s : State) (e : Nat) (stamp : Word) : State := raiseEventBy s e stamp (originOf s e)

/-- An event raised now (R304). -/
def raiseEvent (s : State) (e : Nat) : State := raiseEventAt s e s.now

/-! ### Operation status (R31 to R34) -/

/-- A new operation starts (R31). -/
def OpStatus.start : OpStatus := { st := 1 }
/-- An operation reaches its completion, DONE (2) or ERROR (4): a pending abort request has lost (R31). -/
def OpStatus.finish (o : OpStatus) (st : BitVec 3) : OpStatus :=
  { o with st := st, abortReq := false, abortLate := o.abortReq || o.abortLate }
/-- An abort is granted (R31). -/
def OpStatus.aborted (o : OpStatus) : OpStatus := { o with st := 3, abortReq := false }
/-- An abort request: it counts only while an operation is in progress (R33). -/
def OpStatus.request (o : OpStatus) : OpStatus := if o.st = 1 then { o with abortReq := true } else o
/-- The register layout of R34. -/
def OpStatus.word (o : OpStatus) : Word :=
  BitVec.ofNat 64 (at' o.progress.toNat 32 + at' (b2n o.abortReq) 8 + at' (b2n o.abortLate) 3 + o.st.toNat)

end Sys2Proof.Machine
end

