-- ==== Sys2Proof/Machine/RegTab.lean ====
section
/-! DEFINITION. The device registers of R482 (chapter 23): their names, where they lie, their writable fields with
access code, level and listed encodings as the defining chapters give them, and their reset values. -/
namespace Sys2Proof.Machine

/-- Access codes (R3); fields of code RO are not listed. -/
inductive Acc where
  | rw | wo | w1c | w1s | rc | rwl
deriving DecidableEq, Repr

/-- A field: bits, access code, whether it is an expert field, and the ranges of its listed encodings (none: all). -/
structure Fld where
  hi : Nat
  lo : Nat
  acc : Acc
  expert : Bool
  legal : List (Nat × Nat)
deriving DecidableEq, Repr

/-- The device registers (R482). -/
inductive Reg where
  | sysId | sysStrap | sysExpert | compCtrl | compStatus | compOpStatus
  | compSrcAddr | compSrcLen | compReject | compSeq | fabCtrl | fabStatus
  | fabTimeout | fabReplayLimit | fabErrInject | fabLinkSel | fabLinkStatus | fabPassSel
  | fabPassInfo | fabPassCount | fabFence0 | fabFence1 | fabLate | fabSwmap
  | timeCtrl | timeStatus | timeNow | timeRate | timeStep | timePps
  | timePpsCap | timeJobSel | timeJobInfo | timeJobDeadline | timeJobUsed | timeJobCount
  | timeTmrSel | timeTmrActrl | timeTmrAcmp | timeWdSel | timeWdInfo | timeDevWd
  | timeDevWdKick | timeWdKick | timeTmrCtrl | timeTmrCmp | fltCtrl | fltStatus
  | fltRingBase | fltRingSize | fltRingHead | fltRingTail | fltLost | fltPin
  | fltSafeCmd | fltBlkSel | fltBlkInfo | fltBlkAddr | fltBlkCmd | fltReactSel
  | fltReact | fltDrec | pwrCtrl | pwrStatus | pwrDomSel | pwrDomCtrl
  | pwrDomStatus | pwrCanarySel | pwrCanary | pwrThermSel | pwrTherm | pwrVote
  | bootStatus | bootFuse | bootRollback | bootUid0 | bootUid1 | bootLcCmd
  | bootKgSel | bootKgRegion | bootKgLen | bootKgCmd | bootKgExp | bootEntry
  | bootCoreCmd | bootResetCmd | bootMailboxIn | bootMailboxOut | dbgCtrl | dbgStatus
  | dbgHvLimit | dbgAuthCmd | dbgCellSel | dbgCellCtrl | dbgCellCmd | dbgCellStatus
  | dbgCtiPulse | dbgCoreSel | dbgCoreCmd | dbgCoreAcc | dbgCoreData | dbgStmMask
  | dbgBusCtrl | dbgBusAddr | dbgBusData | dbgTrcCtrl | dbgTbBase | dbgTbPtr
  | dbgTrcLost | dbgAuthData | cluSchedCtrl | cluSchedStatus | cluTcbSel | cluTcbW0
  | cluTcbW1 | cluTcbW2 | cluTcbW3 | cluTcbCmd | cluHvEvent | cluPoolSel
  | cluPoolInfo | cluEventDropped | hmcCtrl | hmcStatus | hmcTrainCmd | hmcOpStatus
  | hmcTrainInfo | hmcRate | hmcTiming0 | hmcTiming1 | hmcRefresh | hmcScrub
  | hmcErrStatus | hmcErrAddr | hmcErrCount | hmcErrInject | hmcPcOwner | slcCtrl
  | slcMntCmd | slcMntArg | slcMntLen | slcSliceSel | slcOpStatus | slcToken
  | slcClassSel | slcClassInfo | slcErr | slcErrInject | netCtrl | netStatus
  | netPortSel | netPortCtrl | netPortCbs | netPortStatus | netEgSel | netEgInfo
  | netEgCnt | netEgDrop | netRingSel | netRingAcfg | netRingAidx | netHostRxCfg
  | netHostRxIdx | netHostTxCfg | netHostTxIdx | netRxrCfg | netRxrIdx | netTxrCfg
  | netTxrIdx | netCrxrCfg | netCrxrIdx | pcieCtrl | pciePortSel | pciePortCtrl
  | pciePortStatus | pcieEpWin | iommuCtrl | iommuStatus | iommuMapSel | iommuMapInfo
  | iommuFault | iommuFaultAddr | iommuCount | periCtrl | periDmaSel | periDmaCfg
  | periDmaCtrl | periDmaOpStatus | periGpioDir | periGpioOut | periGpioIn | periGpioEdge
  | periCtrlPage | periStatusPage | periDataPage | ufshci
deriving DecidableEq, Repr

/-- The register at an offset of SYS (R482), with its number where it repeats. -/
def sysAt (o : Nat) : Option (Reg × Nat) :=
  if o = 0x0 then some (.sysId, 0)
  else if o = 0x8 then some (.sysStrap, 0)
  else if o = 0x10 then some (.sysExpert, 0)
  else none

/-- The register at an offset of COMP (R482), with its number where it repeats. -/
def compAt (o : Nat) : Option (Reg × Nat) :=
  if o = 0x0 then some (.compCtrl, 0)
  else if o = 0x8 then some (.compStatus, 0)
  else if o = 0x10 then some (.compOpStatus, 0)
  else if o = 0x18 then some (.compSrcAddr, 0)
  else if o = 0x20 then some (.compSrcLen, 0)
  else if o = 0x28 then some (.compReject, 0)
  else if o = 0x30 then some (.compSeq, 0)
  else none

/-- The register at an offset of FAB (R482), with its number where it repeats. -/
def fabAt (o : Nat) : Option (Reg × Nat) :=
  if o = 0x0 then some (.fabCtrl, 0)
  else if o = 0x8 then some (.fabStatus, 0)
  else if o = 0x10 then some (.fabTimeout, 0)
  else if o = 0x18 then some (.fabReplayLimit, 0)
  else if o = 0x20 then some (.fabErrInject, 0)
  else if o = 0x28 then some (.fabLinkSel, 0)
  else if o = 0x30 then some (.fabLinkStatus, 0)
  else if o = 0x38 then some (.fabPassSel, 0)
  else if o = 0x40 then some (.fabPassInfo, 0)
  else if o = 0x48 then some (.fabPassCount, 0)
  else if o = 0x50 then some (.fabFence0, 0)
  else if o = 0x58 then some (.fabFence1, 0)
  else if o = 0x60 then some (.fabLate, 0)
  else if 0x80 ≤ o ∧ o < 0xC0 ∧ (o - 0x80) % 0x8 = 0 then some (.fabSwmap, (o - 0x80) / 0x8)
  else none

/-- The register at an offset of TIME (R482), with its number where it repeats. -/
def timeAt (o : Nat) : Option (Reg × Nat) :=
  if o = 0x0 then some (.timeCtrl, 0)
  else if o = 0x8 then some (.timeStatus, 0)
  else if o = 0x10 then some (.timeNow, 0)
  else if o = 0x18 then some (.timeRate, 0)
  else if o = 0x20 then some (.timeStep, 0)
  else if o = 0x28 then some (.timePps, 0)
  else if o = 0x30 then some (.timePpsCap, 0)
  else if o = 0x38 then some (.timeJobSel, 0)
  else if o = 0x40 then some (.timeJobInfo, 0)
  else if o = 0x48 then some (.timeJobDeadline, 0)
  else if o = 0x50 then some (.timeJobUsed, 0)
  else if o = 0x58 then some (.timeJobCount, 0)
  else if o = 0x60 then some (.timeTmrSel, 0)
  else if o = 0x68 then some (.timeTmrActrl, 0)
  else if o = 0x70 then some (.timeTmrAcmp, 0)
  else if o = 0x80 then some (.timeWdSel, 0)
  else if o = 0x88 then some (.timeWdInfo, 0)
  else if o = 0x90 then some (.timeDevWd, 0)
  else if o = 0x98 then some (.timeDevWdKick, 0)
  else if o = 0x1000 then some (.timeWdKick, 0)
  else if 0x2000 ≤ o ∧ o < 0x3000 ∧ (o - 0x2000) % 0x10 = 0 then some (.timeTmrCtrl, (o - 0x2000) / 0x10)
  else if 0x2008 ≤ o ∧ o < 0x3008 ∧ (o - 0x2008) % 0x10 = 0 then some (.timeTmrCmp, (o - 0x2008) / 0x10)
  else none

/-- The register at an offset of FLT (R482), with its number where it repeats. -/
def fltAt (o : Nat) : Option (Reg × Nat) :=
  if o = 0x0 then some (.fltCtrl, 0)
  else if o = 0x8 then some (.fltStatus, 0)
  else if o = 0x10 then some (.fltRingBase, 0)
  else if o = 0x18 then some (.fltRingSize, 0)
  else if o = 0x20 then some (.fltRingHead, 0)
  else if o = 0x28 then some (.fltRingTail, 0)
  else if o = 0x30 then some (.fltLost, 0)
  else if o = 0x38 then some (.fltPin, 0)
  else if o = 0x40 then some (.fltSafeCmd, 0)
  else if o = 0x48 then some (.fltBlkSel, 0)
  else if o = 0x50 then some (.fltBlkInfo, 0)
  else if o = 0x58 then some (.fltBlkAddr, 0)
  else if o = 0x60 then some (.fltBlkCmd, 0)
  else if o = 0x68 then some (.fltReactSel, 0)
  else if o = 0x70 then some (.fltReact, 0)
  else if 0x80 ≤ o ∧ o < 0xC0 ∧ (o - 0x80) % 0x8 = 0 then some (.fltDrec, (o - 0x80) / 0x8)
  else none

/-- The register at an offset of PWR (R482), with its number where it repeats. -/
def pwrAt (o : Nat) : Option (Reg × Nat) :=
  if o = 0x0 then some (.pwrCtrl, 0)
  else if o = 0x8 then some (.pwrStatus, 0)
  else if o = 0x10 then some (.pwrDomSel, 0)
  else if o = 0x18 then some (.pwrDomCtrl, 0)
  else if o = 0x20 then some (.pwrDomStatus, 0)
  else if o = 0x28 then some (.pwrCanarySel, 0)
  else if o = 0x30 then some (.pwrCanary, 0)
  else if o = 0x38 then some (.pwrThermSel, 0)
  else if o = 0x40 then some (.pwrTherm, 0)
  else if o = 0x1000 then some (.pwrVote, 0)
  else none

/-- The register at an offset of BOOT (R482), with its number where it repeats. -/
def bootAt (o : Nat) : Option (Reg × Nat) :=
  if o = 0x0 then some (.bootStatus, 0)
  else if o = 0x8 then some (.bootFuse, 0)
  else if o = 0x10 then some (.bootRollback, 0)
  else if o = 0x18 then some (.bootUid0, 0)
  else if o = 0x20 then some (.bootUid1, 0)
  else if o = 0x28 then some (.bootLcCmd, 0)
  else if o = 0x30 then some (.bootKgSel, 0)
  else if o = 0x38 then some (.bootKgRegion, 0)
  else if o = 0x40 then some (.bootKgLen, 0)
  else if o = 0x48 then some (.bootKgCmd, 0)
  else if 0x50 ≤ o ∧ o < 0x80 ∧ (o - 0x50) % 0x8 = 0 then some (.bootKgExp, (o - 0x50) / 0x8)
  else if o = 0x80 then some (.bootEntry, 0)
  else if o = 0x88 then some (.bootCoreCmd, 0)
  else if o = 0x90 then some (.bootResetCmd, 0)
  else if o = 0x98 then some (.bootMailboxIn, 0)
  else if o = 0xA0 then some (.bootMailboxOut, 0)
  else none

/-- The register at an offset of DBG (R482), with its number where it repeats. -/
def dbgAt (o : Nat) : Option (Reg × Nat) :=
  if o = 0x0 then some (.dbgCtrl, 0)
  else if o = 0x8 then some (.dbgStatus, 0)
  else if o = 0x10 then some (.dbgHvLimit, 0)
  else if o = 0x18 then some (.dbgAuthCmd, 0)
  else if o = 0x20 then some (.dbgCellSel, 0)
  else if o = 0x28 then some (.dbgCellCtrl, 0)
  else if o = 0x30 then some (.dbgCellCmd, 0)
  else if o = 0x38 then some (.dbgCellStatus, 0)
  else if o = 0x40 then some (.dbgCtiPulse, 0)
  else if o = 0x48 then some (.dbgCoreSel, 0)
  else if o = 0x50 then some (.dbgCoreCmd, 0)
  else if o = 0x58 then some (.dbgCoreAcc, 0)
  else if o = 0x60 then some (.dbgCoreData, 0)
  else if o = 0x68 then some (.dbgStmMask, 0)
  else if o = 0x70 then some (.dbgBusCtrl, 0)
  else if o = 0x78 then some (.dbgBusAddr, 0)
  else if o = 0x80 then some (.dbgBusData, 0)
  else if o = 0x88 then some (.dbgTrcCtrl, 0)
  else if o = 0x90 then some (.dbgTbBase, 0)
  else if o = 0x98 then some (.dbgTbPtr, 0)
  else if o = 0xA0 then some (.dbgTrcLost, 0)
  else if 0x100 ≤ o ∧ o < 0x500 ∧ (o - 0x100) % 0x8 = 0 then some (.dbgAuthData, (o - 0x100) / 0x8)
  else none

/-- The register at an offset of CLU (R482), with its number where it repeats. -/
def cluAt (o : Nat) : Option (Reg × Nat) :=
  if o = 0x0 then some (.cluSchedCtrl, 0)
  else if o = 0x8 then some (.cluSchedStatus, 0)
  else if o = 0x10 then some (.cluTcbSel, 0)
  else if o = 0x18 then some (.cluTcbW0, 0)
  else if o = 0x20 then some (.cluTcbW1, 0)
  else if o = 0x28 then some (.cluTcbW2, 0)
  else if o = 0x30 then some (.cluTcbW3, 0)
  else if o = 0x38 then some (.cluTcbCmd, 0)
  else if o = 0x40 then some (.cluHvEvent, 0)
  else if o = 0x48 then some (.cluPoolSel, 0)
  else if o = 0x50 then some (.cluPoolInfo, 0)
  else if o = 0x58 then some (.cluEventDropped, 0)
  else none

/-- The register at an offset of HMC (R482), with its number where it repeats. -/
def hmcAt (o : Nat) : Option (Reg × Nat) :=
  if o = 0x0 then some (.hmcCtrl, 0)
  else if o = 0x8 then some (.hmcStatus, 0)
  else if o = 0x10 then some (.hmcTrainCmd, 0)
  else if o = 0x18 then some (.hmcOpStatus, 0)
  else if o = 0x20 then some (.hmcTrainInfo, 0)
  else if o = 0x28 then some (.hmcRate, 0)
  else if o = 0x30 then some (.hmcTiming0, 0)
  else if o = 0x38 then some (.hmcTiming1, 0)
  else if o = 0x40 then some (.hmcRefresh, 0)
  else if o = 0x48 then some (.hmcScrub, 0)
  else if o = 0x50 then some (.hmcErrStatus, 0)
  else if o = 0x58 then some (.hmcErrAddr, 0)
  else if o = 0x60 then some (.hmcErrCount, 0)
  else if o = 0x68 then some (.hmcErrInject, 0)
  else if o = 0x70 then some (.hmcPcOwner, 0)
  else none

/-- The register at an offset of SLC (R482), with its number where it repeats. -/
def slcAt (o : Nat) : Option (Reg × Nat) :=
  if o = 0x0 then some (.slcCtrl, 0)
  else if o = 0x8 then some (.slcMntCmd, 0)
  else if o = 0x10 then some (.slcMntArg, 0)
  else if o = 0x18 then some (.slcMntLen, 0)
  else if o = 0x20 then some (.slcSliceSel, 0)
  else if o = 0x28 then some (.slcOpStatus, 0)
  else if o = 0x30 then some (.slcToken, 0)
  else if o = 0x38 then some (.slcClassSel, 0)
  else if o = 0x40 then some (.slcClassInfo, 0)
  else if o = 0x48 then some (.slcErr, 0)
  else if o = 0x50 then some (.slcErrInject, 0)
  else none

/-- The register at an offset of NET (R482), with its number where it repeats. -/
def netAt (o : Nat) : Option (Reg × Nat) :=
  if o = 0x0 then some (.netCtrl, 0)
  else if o = 0x8 then some (.netStatus, 0)
  else if o = 0x10 then some (.netPortSel, 0)
  else if o = 0x18 then some (.netPortCtrl, 0)
  else if o = 0x20 then some (.netPortCbs, 0)
  else if o = 0x28 then some (.netPortStatus, 0)
  else if o = 0x30 then some (.netEgSel, 0)
  else if o = 0x38 then some (.netEgInfo, 0)
  else if o = 0x40 then some (.netEgCnt, 0)
  else if o = 0x48 then some (.netEgDrop, 0)
  else if o = 0x50 then some (.netRingSel, 0)
  else if o = 0x58 then some (.netRingAcfg, 0)
  else if o = 0x60 then some (.netRingAidx, 0)
  else if o = 0x70 then some (.netHostRxCfg, 0)
  else if o = 0x78 then some (.netHostRxIdx, 0)
  else if o = 0x80 then some (.netHostTxCfg, 0)
  else if o = 0x88 then some (.netHostTxIdx, 0)
  else if 0x10000 ≤ o ∧ o < 0x1C000 ∧ (o - 0x10000) % 0x10 = 0 then some (.netRxrCfg, (o - 0x10000) / 0x10)
  else if 0x10008 ≤ o ∧ o < 0x1C008 ∧ (o - 0x10008) % 0x10 = 0 then some (.netRxrIdx, (o - 0x10008) / 0x10)
  else if 0x20000 ≤ o ∧ o < 0x30000 ∧ (o - 0x20000) % 0x10 = 0 then some (.netTxrCfg, (o - 0x20000) / 0x10)
  else if 0x20008 ≤ o ∧ o < 0x30008 ∧ (o - 0x20008) % 0x10 = 0 then some (.netTxrIdx, (o - 0x20008) / 0x10)
  else if 0x30000 ≤ o ∧ o < 0x30020 ∧ (o - 0x30000) % 0x10 = 0 then some (.netCrxrCfg, (o - 0x30000) / 0x10)
  else if 0x30008 ≤ o ∧ o < 0x30028 ∧ (o - 0x30008) % 0x10 = 0 then some (.netCrxrIdx, (o - 0x30008) / 0x10)
  else none

/-- The register at an offset of PCIE (R482), with its number where it repeats. -/
def pcieAt (o : Nat) : Option (Reg × Nat) :=
  if o = 0x0 then some (.pcieCtrl, 0)
  else if o = 0x8 then some (.pciePortSel, 0)
  else if o = 0x10 then some (.pciePortCtrl, 0)
  else if o = 0x18 then some (.pciePortStatus, 0)
  else if o = 0x20 then some (.pcieEpWin, 0)
  else none

/-- The register at an offset of IOMMU (R482), with its number where it repeats. -/
def iommuAt (o : Nat) : Option (Reg × Nat) :=
  if o = 0x0 then some (.iommuCtrl, 0)
  else if o = 0x8 then some (.iommuStatus, 0)
  else if o = 0x10 then some (.iommuMapSel, 0)
  else if o = 0x18 then some (.iommuMapInfo, 0)
  else if o = 0x20 then some (.iommuFault, 0)
  else if o = 0x28 then some (.iommuFaultAddr, 0)
  else if o = 0x30 then some (.iommuCount, 0)
  else none

/-- The register at an offset of PERI (R482), with its number where it repeats. -/
def periAt (o : Nat) : Option (Reg × Nat) :=
  if o = 0x0 then some (.periCtrl, 0)
  else if o = 0x8 then some (.periDmaSel, 0)
  else if o = 0x10 then some (.periDmaCfg, 0)
  else if o = 0x18 then some (.periDmaCtrl, 0)
  else if o = 0x20 then some (.periDmaOpStatus, 0)
  else if o = 0x30 then some (.periGpioDir, 0)
  else if o = 0x38 then some (.periGpioOut, 0)
  else if o = 0x40 then some (.periGpioIn, 0)
  else if o = 0x48 then some (.periGpioEdge, 0)
  else if 0x10000 ≤ o ∧ o < 0x20000 ∧ o % 8 = 0 then some (.ufshci, (o - 0x10000) / 8)
  else if 0x20000 ≤ o ∧ o < 0x38000 ∧ o % 0x1000 = 0x0 ∧ ((o - 0x20000) / 0x1000) ∈ [0, 1, 9, 16, 17] then some (.periCtrlPage, (o - 0x20000) / 0x1000)
  else if 0x20000 ≤ o ∧ o < 0x38000 ∧ o % 0x1000 = 0x8 ∧ ((o - 0x20000) / 0x1000) ∈ [0, 1, 9, 16, 17] then some (.periStatusPage, (o - 0x20000) / 0x1000)
  else if 0x20000 ≤ o ∧ o < 0x38000 ∧ o % 0x1000 = 0x10 ∧ ((o - 0x20000) / 0x1000) ∈ [0, 1, 9, 16, 17] then some (.periDataPage, (o - 0x20000) / 0x1000)
  else none

/-- The register at a physical address, aligned to 8 (R479), with the number of its instance or its own number. -/
def regAt (pa : Nat) : Option (Reg × Nat) :=
  let o := pa - 0xF8000000000
  if pa < 0xF8000000000 then none
  else if 0x0 ≤ o ∧ o < 0x10000 then sysAt (o - 0x0)
  else if 0x10000 ≤ o ∧ o < 0x20000 then compAt (o - 0x10000)
  else if 0x20000 ≤ o ∧ o < 0x30000 then fabAt (o - 0x20000)
  else if 0x30000 ≤ o ∧ o < 0x40000 then timeAt (o - 0x30000)
  else if 0x40000 ≤ o ∧ o < 0x50000 then fltAt (o - 0x40000)
  else if 0x50000 ≤ o ∧ o < 0x60000 then pwrAt (o - 0x50000)
  else if 0x60000 ≤ o ∧ o < 0x70000 then bootAt (o - 0x60000)
  else if 0x70000 ≤ o ∧ o < 0x80000 then dbgAt (o - 0x70000)
  else if 0x100000 ≤ o ∧ o < 0x200000 then (cluAt (o % 0x10000)).map (fun r => (r.1, (o - 0x100000) / 0x10000))
  else if 0x200000 ≤ o ∧ o < 0x600000 then (hmcAt (o % 0x10000)).map (fun r => (r.1, (o - 0x200000) / 0x10000))
  else if 0x600000 ≤ o ∧ o < 0x700000 then slcAt (o - 0x600000)
  else if 0x700000 ≤ o ∧ o < 0x800000 then netAt (o - 0x700000)
  else if 0x800000 ≤ o ∧ o < 0x900000 then pcieAt (o - 0x800000)
  else if 0x900000 ≤ o ∧ o < 0xA00000 then iommuAt (o - 0x900000)
  else if 0xA00000 ≤ o ∧ o < 0xB00000 then periAt (o - 0xA00000)
  else none

/-- The writable and clearing fields of each register. -/
def regFlds : Reg → List Fld
  | .sysId => []
  | .sysStrap => []
  | .sysExpert => []
  | .compCtrl => [⟨8, 8, .rw, false, []⟩, ⟨5, 5, .wo, false, []⟩, ⟨4, 4, .wo, false, []⟩, ⟨3, 3, .wo, false, []⟩, ⟨2, 2, .wo, false, []⟩, ⟨1, 1, .wo, false, []⟩, ⟨0, 0, .wo, false, []⟩]
  | .compStatus => [⟨63, 32, .rc, false, []⟩]
  | .compOpStatus => [⟨8, 8, .w1s, false, []⟩, ⟨3, 3, .w1c, false, []⟩]
  | .compSrcAddr => [⟨43, 12, .rw, false, []⟩]
  | .compSrcLen => [⟨26, 0, .rw, false, []⟩]
  | .compReject => []
  | .compSeq => []
  | .fabCtrl => [⟨0, 0, .rw, false, []⟩]
  | .fabStatus => []
  | .fabTimeout => [⟨7, 0, .rw, true, [(1, 128)]⟩]
  | .fabReplayLimit => [⟨3, 0, .rw, true, [(1, 8)]⟩]
  | .fabErrInject => [⟨14, 14, .w1s, true, []⟩, ⟨13, 9, .rw, true, []⟩, ⟨8, 6, .rw, true, []⟩, ⟨5, 0, .rw, true, []⟩]
  | .fabLinkSel => [⟨8, 6, .rw, false, []⟩, ⟨5, 0, .rw, false, []⟩]
  | .fabLinkStatus => [⟨47, 32, .rc, false, []⟩, ⟨31, 16, .rc, false, []⟩]
  | .fabPassSel => [⟨9, 0, .rw, false, []⟩]
  | .fabPassInfo => []
  | .fabPassCount => [⟨31, 0, .rc, false, []⟩]
  | .fabFence0 => []
  | .fabFence1 => []
  | .fabLate => [⟨31, 0, .rc, false, []⟩]
  | .fabSwmap => []
  | .timeCtrl => [⟨23, 16, .rw, true, [(1, 200)]⟩, ⟨8, 8, .rw, false, []⟩, ⟨0, 0, .rw, false, []⟩]
  | .timeStatus => []
  | .timeNow => []
  | .timeRate => [⟨31, 0, .rw, false, []⟩]
  | .timeStep => [⟨63, 0, .wo, false, []⟩]
  | .timePps => [⟨63, 32, .rw, false, [(0, 999999999)]⟩, ⟨23, 16, .rw, true, [(1, 250)]⟩]
  | .timePpsCap => [⟨63, 63, .w1c, false, []⟩, ⟨62, 62, .w1c, false, []⟩]
  | .timeJobSel => [⟨13, 0, .rw, false, [(0, 16383)]⟩]
  | .timeJobInfo => []
  | .timeJobDeadline => []
  | .timeJobUsed => []
  | .timeJobCount => [⟨63, 48, .rc, false, []⟩, ⟨47, 32, .rc, false, []⟩, ⟨31, 16, .rc, false, []⟩, ⟨15, 0, .rc, false, []⟩]
  | .timeTmrSel => [⟨7, 0, .rw, false, []⟩]
  | .timeTmrActrl => [⟨63, 32, .rw, false, []⟩, ⟨15, 8, .rc, false, []⟩, ⟨1, 1, .rw, false, []⟩, ⟨0, 0, .rw, false, []⟩]
  | .timeTmrAcmp => [⟨63, 0, .rw, false, []⟩]
  | .timeWdSel => [⟨11, 0, .rw, false, []⟩]
  | .timeWdInfo => []
  | .timeDevWd => [⟨63, 48, .rwl, false, [(1, 10000)]⟩, ⟨47, 32, .rwl, false, []⟩, ⟨0, 0, .w1s, false, []⟩]
  | .timeDevWdKick => [⟨7, 0, .wo, false, []⟩]
  | .timeWdKick => [⟨7, 0, .wo, false, []⟩]
  | .timeTmrCtrl => [⟨63, 32, .rw, false, []⟩, ⟨15, 8, .rc, false, []⟩, ⟨1, 1, .rw, false, []⟩, ⟨0, 0, .rw, false, []⟩]
  | .timeTmrCmp => [⟨63, 0, .rw, false, []⟩]
  | .fltCtrl => [⟨23, 16, .rw, true, []⟩, ⟨2, 2, .w1s, false, []⟩, ⟨1, 1, .rwl, false, []⟩, ⟨0, 0, .rw, false, []⟩]
  | .fltStatus => []
  | .fltRingBase => [⟨43, 12, .rwl, false, []⟩]
  | .fltRingSize => [⟨3, 0, .rwl, false, [(6, 15)]⟩]
  | .fltRingHead => []
  | .fltRingTail => [⟨31, 0, .rw, false, []⟩]
  | .fltLost => [⟨63, 48, .rc, false, []⟩, ⟨47, 32, .rc, false, []⟩, ⟨31, 16, .rc, false, []⟩, ⟨15, 0, .rc, false, []⟩]
  | .fltPin => [⟨1, 1, .rw, false, []⟩, ⟨0, 0, .w1s, false, []⟩]
  | .fltSafeCmd => [⟨7, 0, .wo, false, []⟩]
  | .fltBlkSel => [⟨8, 0, .rw, false, []⟩]
  | .fltBlkInfo => []
  | .fltBlkAddr => []
  | .fltBlkCmd => [⟨22, 16, .wo, false, []⟩, ⟨13, 12, .wo, false, [(1, 2)]⟩, ⟨8, 0, .wo, false, []⟩]
  | .fltReactSel => [⟨15, 0, .rw, false, []⟩]
  | .fltReact => [⟨1, 0, .rw, true, []⟩]
  | .fltDrec => []
  | .pwrCtrl => [⟨0, 0, .rw, false, []⟩]
  | .pwrStatus => []
  | .pwrDomSel => [⟨5, 0, .rw, false, [(0, 38)]⟩]
  | .pwrDomCtrl => [⟨27, 24, .rw, true, [(1, 15)]⟩, ⟨23, 16, .rw, true, [(90, 120)]⟩, ⟨8, 8, .rw, false, []⟩, ⟨1, 0, .rw, false, [(0, 2)]⟩]
  | .pwrDomStatus => []
  | .pwrCanarySel => [⟨7, 0, .rw, false, []⟩]
  | .pwrCanary => [⟨47, 32, .rc, false, []⟩, ⟨31, 16, .rc, false, []⟩]
  | .pwrThermSel => [⟨5, 0, .rw, false, []⟩]
  | .pwrTherm => [⟨23, 16, .rc, false, []⟩]
  | .pwrVote => [⟨47, 46, .wo, false, [(0, 2)]⟩, ⟨45, 40, .wo, false, [(0, 38)]⟩]
  | .bootStatus => [⟨63, 32, .rwl, false, []⟩, ⟨19, 16, .rwl, false, []⟩, ⟨15, 12, .rwl, false, []⟩, ⟨11, 11, .w1s, false, []⟩, ⟨10, 10, .rwl, false, []⟩, ⟨9, 9, .w1s, false, []⟩, ⟨8, 8, .rwl, false, []⟩, ⟨7, 7, .rwl, false, []⟩, ⟨6, 4, .rwl, false, []⟩, ⟨3, 0, .rwl, false, [(0, 5), (15, 15)]⟩]
  | .bootFuse => []
  | .bootRollback => [⟨63, 32, .wo, false, []⟩]
  | .bootUid0 => []
  | .bootUid1 => []
  | .bootLcCmd => [⟨15, 8, .wo, false, []⟩, ⟨1, 0, .wo, false, []⟩]
  | .bootKgSel => [⟨3, 0, .rw, false, []⟩]
  | .bootKgRegion => [⟨43, 12, .rw, false, []⟩]
  | .bootKgLen => [⟨31, 0, .rw, false, []⟩]
  | .bootKgCmd => [⟨1, 0, .wo, false, []⟩]
  | .bootKgExp => [⟨63, 0, .wo, false, []⟩]
  | .bootEntry => [⟨43, 3, .rw, false, []⟩]
  | .bootCoreCmd => [⟨9, 8, .wo, false, [(0, 2)]⟩, ⟨7, 0, .wo, false, [(0, 127), (129, 129), (255, 255)]⟩]
  | .bootResetCmd => [⟨9, 9, .wo, false, []⟩, ⟨8, 8, .wo, false, []⟩, ⟨7, 0, .wo, false, []⟩]
  | .bootMailboxIn => [⟨63, 0, .rw, false, []⟩]
  | .bootMailboxOut => [⟨63, 0, .rw, false, []⟩]
  | .dbgCtrl => [⟨16, 16, .wo, false, []⟩, ⟨8, 8, .rw, false, []⟩, ⟨0, 0, .rw, false, []⟩]
  | .dbgStatus => [⟨8, 8, .w1c, false, []⟩]
  | .dbgHvLimit => [⟨1, 0, .rw, false, []⟩]
  | .dbgAuthCmd => [⟨1, 0, .wo, false, [(0, 2)]⟩]
  | .dbgCellSel => [⟨11, 0, .rw, false, []⟩]
  | .dbgCellCtrl => [⟨35, 34, .rw, false, [(0, 2)]⟩, ⟨33, 33, .rw, false, []⟩, ⟨32, 32, .rw, false, []⟩, ⟨31, 16, .rw, false, []⟩, ⟨15, 0, .rw, false, []⟩]
  | .dbgCellCmd => [⟨1, 0, .wo, false, [(0, 2)]⟩]
  | .dbgCellStatus => []
  | .dbgCtiPulse => [⟨15, 0, .w1s, false, []⟩]
  | .dbgCoreSel => [⟨7, 0, .rw, false, [(0, 129)]⟩]
  | .dbgCoreCmd => [⟨1, 0, .wo, false, []⟩]
  | .dbgCoreAcc => [⟨20, 20, .wo, false, []⟩, ⟨17, 16, .rw, false, []⟩, ⟨13, 12, .rw, false, [(0, 2)]⟩, ⟨11, 0, .rw, false, []⟩]
  | .dbgCoreData => [⟨63, 0, .rw, false, []⟩]
  | .dbgStmMask => [⟨63, 0, .rw, false, []⟩]
  | .dbgBusCtrl => [⟨21, 20, .wo, false, [(0, 2)]⟩, ⟨17, 16, .rw, false, [(2, 3)]⟩, ⟨12, 12, .rw, false, []⟩, ⟨11, 0, .rw, false, []⟩]
  | .dbgBusAddr => [⟨63, 0, .rw, false, []⟩]
  | .dbgBusData => [⟨63, 0, .rw, false, []⟩]
  | .dbgTrcCtrl => [⟨43, 32, .rw, false, []⟩, ⟨23, 16, .rw, true, [(1, 255)]⟩, ⟨4, 4, .rw, false, []⟩, ⟨3, 2, .rw, false, [(0, 2)]⟩, ⟨1, 1, .rw, false, []⟩, ⟨0, 0, .rw, false, []⟩]
  | .dbgTbBase => [⟨43, 12, .rw, false, []⟩, ⟨4, 0, .rw, false, [(12, 30)]⟩]
  | .dbgTbPtr => []
  | .dbgTrcLost => [⟨63, 32, .rc, false, []⟩, ⟨31, 0, .rc, false, []⟩]
  | .dbgAuthData => [⟨63, 0, .rw, false, []⟩]
  | .cluSchedCtrl => [⟨8, 8, .rw, true, []⟩, ⟨0, 0, .rw, false, []⟩]
  | .cluSchedStatus => []
  | .cluTcbSel => [⟨15, 0, .rw, false, []⟩]
  | .cluTcbW0 => []
  | .cluTcbW1 => []
  | .cluTcbW2 => []
  | .cluTcbW3 => []
  | .cluTcbCmd => [⟨1, 0, .wo, false, [(0, 2)]⟩]
  | .cluHvEvent => [⟨47, 32, .rc, false, []⟩, ⟨8, 8, .rw, false, []⟩, ⟨2, 0, .rw, false, []⟩]
  | .cluPoolSel => [⟨11, 0, .rw, false, []⟩]
  | .cluPoolInfo => []
  | .cluEventDropped => [⟨31, 0, .rc, false, []⟩]
  | .hmcCtrl => [⟨8, 8, .rw, false, []⟩, ⟨0, 0, .rw, false, []⟩]
  | .hmcStatus => []
  | .hmcTrainCmd => [⟨1, 0, .wo, false, [(0, 2)]⟩]
  | .hmcOpStatus => [⟨8, 8, .w1s, false, []⟩, ⟨3, 3, .w1c, false, []⟩]
  | .hmcTrainInfo => []
  | .hmcRate => [⟨3, 0, .rw, true, [(1, 5)]⟩]
  | .hmcTiming0 => [⟨47, 40, .rw, true, []⟩, ⟨39, 32, .rw, true, []⟩, ⟨31, 24, .rw, true, []⟩, ⟨23, 16, .rw, true, []⟩, ⟨15, 8, .rw, true, []⟩, ⟨7, 0, .rw, true, []⟩]
  | .hmcTiming1 => [⟨31, 16, .rw, true, []⟩, ⟨15, 0, .rw, true, []⟩]
  | .hmcRefresh => [⟨35, 32, .rw, true, [(1, 8)]⟩]
  | .hmcScrub => [⟨63, 48, .rw, true, [(1, 168)]⟩]
  | .hmcErrStatus => [⟨63, 63, .w1c, false, []⟩, ⟨62, 62, .w1c, false, []⟩]
  | .hmcErrAddr => []
  | .hmcErrCount => [⟨63, 32, .rc, false, []⟩, ⟨31, 0, .rc, false, []⟩]
  | .hmcErrInject => [⟨9, 9, .w1s, true, []⟩, ⟨8, 8, .rw, true, []⟩, ⟨5, 4, .rw, true, [(0, 2)]⟩]
  | .hmcPcOwner => []
  | .slcCtrl => [⟨8, 8, .rw, true, []⟩, ⟨0, 0, .rw, false, []⟩]
  | .slcMntCmd => [⟨63, 48, .rw, false, []⟩, ⟨3, 0, .wo, false, []⟩]
  | .slcMntArg => [⟨63, 0, .rw, false, []⟩]
  | .slcMntLen => [⟨43, 6, .rw, false, []⟩]
  | .slcSliceSel => [⟨3, 0, .rw, false, []⟩]
  | .slcOpStatus => [⟨8, 8, .w1s, false, []⟩, ⟨3, 3, .w1c, false, []⟩]
  | .slcToken => []
  | .slcClassSel => [⟨4, 0, .rw, false, []⟩]
  | .slcClassInfo => []
  | .slcErr => [⟨63, 32, .rc, false, []⟩, ⟨31, 0, .rc, false, []⟩]
  | .slcErrInject => [⟨9, 9, .w1s, true, []⟩, ⟨8, 8, .rw, true, []⟩, ⟨5, 4, .rw, true, [(0, 1)]⟩, ⟨3, 0, .rw, true, []⟩]
  | .netCtrl => [⟨1, 1, .rw, false, []⟩, ⟨0, 0, .rw, false, []⟩]
  | .netStatus => []
  | .netPortSel => [⟨3, 0, .rw, false, [(0, 11)]⟩]
  | .netPortCtrl => [⟨43, 40, .rw, false, [(0, 5)]⟩, ⟨35, 32, .rw, false, [(0, 1)]⟩, ⟨23, 16, .rw, true, []⟩, ⟨8, 8, .rw, false, []⟩, ⟨1, 0, .rw, false, [(0, 2)]⟩]
  | .netPortCbs => [⟨63, 32, .rw, true, []⟩, ⟨2, 0, .rw, true, []⟩]
  | .netPortStatus => [⟨63, 48, .rc, false, []⟩, ⟨47, 32, .rc, false, []⟩, ⟨31, 16, .rc, false, []⟩]
  | .netEgSel => [⟨11, 0, .rw, false, []⟩]
  | .netEgInfo => []
  | .netEgCnt => [⟨63, 32, .rc, false, []⟩]
  | .netEgDrop => [⟨63, 32, .rc, false, []⟩, ⟨31, 0, .rc, false, []⟩]
  | .netRingSel => [⟨13, 12, .rw, false, [(0, 2)]⟩, ⟨11, 0, .rw, false, []⟩]
  | .netRingAcfg => [⟨43, 12, .rw, false, []⟩, ⟨11, 8, .rw, false, [(2, 10)]⟩, ⟨7, 4, .rw, false, [(7, 12)]⟩, ⟨0, 0, .rw, false, []⟩]
  | .netRingAidx => [⟨63, 32, .rc, false, []⟩, ⟨31, 16, .rw, false, []⟩]
  | .netHostRxCfg => [⟨43, 12, .rw, false, []⟩, ⟨11, 8, .rw, false, [(2, 10)]⟩, ⟨7, 4, .rw, false, [(7, 12)]⟩, ⟨0, 0, .rw, false, []⟩]
  | .netHostRxIdx => [⟨63, 32, .rc, false, []⟩, ⟨31, 16, .rw, false, []⟩]
  | .netHostTxCfg => [⟨43, 12, .rw, false, []⟩, ⟨11, 8, .rw, false, [(2, 10)]⟩, ⟨7, 4, .rw, false, [(7, 12)]⟩, ⟨0, 0, .rw, false, []⟩]
  | .netHostTxIdx => [⟨15, 0, .rw, false, []⟩]
  | .netRxrCfg => [⟨43, 12, .rw, false, []⟩, ⟨11, 8, .rw, false, [(2, 10)]⟩, ⟨7, 4, .rw, false, [(7, 12)]⟩, ⟨0, 0, .rw, false, []⟩]
  | .netRxrIdx => [⟨63, 32, .rc, false, []⟩, ⟨31, 16, .rw, false, []⟩]
  | .netTxrCfg => [⟨43, 12, .rw, false, []⟩, ⟨11, 8, .rw, false, [(2, 10)]⟩, ⟨7, 4, .rw, false, [(7, 12)]⟩, ⟨0, 0, .rw, false, []⟩]
  | .netTxrIdx => []
  | .netCrxrCfg => [⟨43, 12, .rw, false, []⟩, ⟨11, 8, .rw, false, [(2, 10)]⟩, ⟨7, 4, .rw, false, [(7, 12)]⟩, ⟨0, 0, .rw, false, []⟩]
  | .netCrxrIdx => [⟨63, 32, .rc, false, []⟩, ⟨31, 16, .rw, false, []⟩]
  | .pcieCtrl => [⟨3, 3, .rw, false, []⟩, ⟨2, 1, .rw, false, [(0, 2)]⟩, ⟨0, 0, .rw, false, []⟩]
  | .pciePortSel => [⟨1, 0, .rw, false, []⟩]
  | .pciePortCtrl => [⟨10, 8, .rw, true, [(1, 6)]⟩, ⟨1, 1, .rw, false, []⟩, ⟨0, 0, .rw, false, []⟩]
  | .pciePortStatus => [⟨63, 48, .rc, false, []⟩, ⟨47, 32, .rc, false, []⟩]
  | .pcieEpWin => [⟨63, 32, .rc, false, []⟩, ⟨24, 0, .rw, false, [(0, 1048575)]⟩]
  | .iommuCtrl => [⟨8, 8, .rw, true, []⟩, ⟨0, 0, .rw, false, []⟩]
  | .iommuStatus => []
  | .iommuMapSel => [⟨11, 0, .rw, false, []⟩]
  | .iommuMapInfo => []
  | .iommuFault => [⟨63, 63, .w1c, false, []⟩]
  | .iommuFaultAddr => []
  | .iommuCount => [⟨31, 0, .rc, false, []⟩]
  | .periCtrl => [⟨0, 0, .rw, false, []⟩]
  | .periDmaSel => [⟨3, 0, .rw, false, []⟩]
  | .periDmaCfg => [⟨63, 3, .rw, false, []⟩, ⟨2, 2, .rw, false, []⟩]
  | .periDmaCtrl => [⟨15, 8, .rw, false, []⟩, ⟨0, 0, .wo, false, []⟩]
  | .periDmaOpStatus => [⟨8, 8, .w1s, false, []⟩, ⟨3, 3, .w1c, false, []⟩]
  | .periGpioDir => [⟨63, 0, .rw, false, []⟩]
  | .periGpioOut => [⟨31, 0, .rw, false, []⟩]
  | .periGpioIn => []
  | .periGpioEdge => [⟨63, 0, .rw, false, []⟩]
  | .periCtrlPage => [⟨63, 0, .rw, false, []⟩]
  | .periStatusPage => [⟨63, 0, .rw, false, []⟩]
  | .periDataPage => [⟨63, 0, .rw, false, []⟩]
  | .ufshci => [⟨63, 0, .rw, false, []⟩]

/-- The reset values that are not 0 (R482); for a register with status fields, the value of its stored fields. -/
def regReset : Reg → Word
  | .sysId => 0x34E209140
  | .fabTimeout => 0x4
  | .fabReplayLimit => 0x4
  | .timeCtrl => 0xC80000
  | .timePps => 0x640000
  | .timeDevWd => 0xC8000000000000
  | .fltCtrl => 0x100000
  | .fltStatus => 0x2
  | .fltRingSize => 0x6
  | .pwrDomCtrl => 0x5730101
  | .pwrDomStatus => 0x1
  | .bootStatus => 0xFF00F
  | .dbgCtrl => 0x100
  | .dbgHvLimit => 0x3
  | .dbgBusCtrl => 0x30000
  | .dbgTrcCtrl => 0x400008
  | .cluSchedCtrl => 0x100
  | .hmcCtrl => 0x100
  | .hmcRate => 0x5
  | .hmcTiming0 => 0x18041C38241C
  | .hmcTiming1 => 0x168008C
  | .hmcRefresh => 0x800300030
  | .hmcScrub => 0xC000000000000
  | .slcCtrl => 0x100
  | .netPortCtrl => 0xC00000
  | .pciePortCtrl => 0x600
  | _ => 0

/-- Block code of EXPERT_PERMIT for a register (R480); `none` for a block without expert fields. -/
def expertCode (pa : Nat) : Option (Nat × Nat) :=
  let o := pa - 0xF8000000000
  if 0x20000 ≤ o ∧ o < 0x30000 then some (0, 0)
  else if 0x30000 ≤ o ∧ o < 0x40000 then some (1, 0)
  else if 0x40000 ≤ o ∧ o < 0x50000 then some (2, 0)
  else if 0x50000 ≤ o ∧ o < 0x60000 then some (3, 0)
  else if 0x70000 ≤ o ∧ o < 0x80000 then some (11, 0)
  else if 0x100000 ≤ o ∧ o < 0x200000 then some (4, (o - 0x100000) / 0x10000)
  else if 0x200000 ≤ o ∧ o < 0x600000 then some (5, (o - 0x200000) / 0x10000)
  else if 0x600000 ≤ o ∧ o < 0x700000 then some (6, 0)
  else if 0x700000 ≤ o ∧ o < 0x800000 then some (7, 0)
  else if 0x800000 ≤ o ∧ o < 0x900000 then some (8, 0)
  else if 0x900000 ≤ o ∧ o < 0xA00000 then some (9, 0)
  else if 0xA00000 ≤ o ∧ o < 0xB00000 then some (10, 0)
  else none

end Sys2Proof.Machine
end

