-- ==== Sys2Proof/Machine/RegOps.lean ====
section
/-! DEFINITION. How a register write is judged (R3 to R9, R484), where its plain fields are kept, and how a refusal is
recorded (R335). -/
namespace Sys2Proof.Machine

/-- The bits a half reaches (R4), and a written value put at its half. -/
def halfMask : Half → Word
  | .full => BitVec.allOnes 64
  | .low => 0xFFFFFFFF
  | .high => 0xFFFFFFFF00000000
def halfVal (h : Half) (v : Word) : Word := match h with | .high => v <<< 32 | _ => v

/-- The key under which a register keeps its plain fields: its address, and the selected instance where it is banked. -/
def bank (pa sel : Nat) : Nat := pa + sel * 2 ^ 44

/-- Plain fields as stored; an unlisted register holds its reset value. -/
def stored (s : State) (r : Reg) (key : Nat) : Word := look (regReset r) key s.regs
/-- Plain fields stored. -/
def store (s : State) (key : Nat) (w : Word) : State := { s with regs := put key w s.regs }

/-- SOURCE of a refused register write (R335). -/
def regSource (pa : Nat) : BitVec 16 :=
  let o := pa - 0xF8000000000
  if o < 0x10000 then src 0x63 7 0
  else if o < 0x20000 then src 0x64 0 0
  else if o < 0x30000 then src 0x64 4 0
  else if o < 0x40000 then src 0x63 4 0
  else if o < 0x50000 then src 0x63 2 0
  else if o < 0x60000 then src 0x63 3 0
  else if o < 0x70000 then src 0x63 5 0
  else if o < 0x80000 then src 0x64 3 0
  else if 0x100000 ≤ o ∧ o < 0x200000 then src ((o - 0x100000) / 0x10000) 0 2
  else if 0x200000 ≤ o ∧ o < 0x600000 then src (0x20 + (o - 0x200000) / 0x10000) 2 0
  else if 0x600000 ≤ o ∧ o < 0x700000 then src 0x10 0 0
  else if 0x700000 ≤ o ∧ o < 0x800000 then src 0x60 3 0
  else if 0x800000 ≤ o ∧ o < 0x900000 then src 0x61 2 0
  else if 0x900000 ≤ o ∧ o < 0xA00000 then src 0x61 1 0
  else if 0xA20000 ≤ o ∧ o < 0xA38000 then src 0x62 1 ((o - 0xA20000) / 0x1000)
  else if 0xA10000 ≤ o ∧ o < 0xA20000 then src 0x62 1 24
  else if 0xA00030 ≤ o ∧ o < 0xA00050 then src 0x62 1 32
  else src 0x62 0 0

/-- Address of the CTRL register of the block instance that holds a register: its EXPERT_EN is bit 0. -/
def ctrlOf (pa : Nat) : Nat :=
  let o := pa - 0xF8000000000
  if o < 0x600000 then 0xF8000000000 + o / 0x10000 * 0x10000 else 0xF8000000000 + o / 0x100000 * 0x100000

/-- EXPERT_EN of the block instance that holds a register (R6). -/
def expertOn (s : State) (pa : Nat) : Bool :=
  match expertCode pa with
  | none => false
  | some _ => (look 0 (ctrlOf pa) s.regs).getLsbD 0

/-- May this party change EXPERT_EN of the block instance (R6)? -/
def mayExpert (s : State) (a : Access) (pa : Nat) : Bool :=
  match expertCode pa with
  | none => false
  | some (b, n) => isHyp a && s.comp.isSealed && expertPermit s.comp.live b n

/-- How a write stands to the expert fields it carries (R7, R9): they may be written, they may not, or the write clears
EXPERT_EN and they are ignored in silence. -/
inductive ExpertMode where
  | on | off | clearing
deriving DecidableEq, Repr

/-- What a judged write does: the plain fields after it, the accepted bits of WO, W1C and W1S fields, and the fault
codes of what it refused. -/
structure Judged where
  word : Word
  cmd : Word := 0
  codes : List Nat := []
deriving DecidableEq, Repr

/-- Is a value listed for a field (R5)? -/
def legalVal (f : Fld) (x : Nat) : Bool := f.legal.isEmpty || f.legal.any (fun r => r.1 ≤ x && x ≤ r.2)

/-- One field of a write judged (R3 to R9, R484). -/
def judgeFld (ex : ExpertMode) (lock : Bool) (cur v m : Word) (j : Judged) (f : Fld) : Judged :=
  let written : Bool := fld m f.hi f.lo ≠ 0
  if !written then j else
  let old := fld cur f.hi f.lo
  let new := fld ((cur &&& ~~~m) ||| (v &&& m)) f.hi f.lo
  let raw := fld (v &&& m) f.hi f.lo
  match f.acc with
  | .rc => j
  | .wo | .w1c | .w1s =>
    if raw = 0 ∧ legalVal f 0 then j
    else if f.expert ∧ ex = .clearing then j
    else if f.expert ∧ ex = .off then (if raw = old then j else { j with codes := j.codes ++ [0x0002] })
    else if legalVal f raw then { j with cmd := putFld j.cmd f.hi f.lo raw }
    else { j with codes := j.codes ++ [0x0003] }
  | .rw | .rwl =>
    if new = old then j
    else if f.acc = .rwl ∧ lock then { j with codes := j.codes ++ [0x0001] }
    else if f.expert ∧ ex = .clearing then j
    else if f.expert ∧ ex = .off then { j with codes := j.codes ++ [0x0002] }
    else if legalVal f new then { j with word := putFld j.word f.hi f.lo new }
    else { j with codes := j.codes ++ [0x0003] }

/-- A whole write judged against the value the register reads before it. -/
def judge (fs : List Fld) (ex : ExpertMode) (lock : Bool) (cur v m : Word) : Judged :=
  fs.foldl (judgeFld ex lock cur v m) { word := cur }

/-- The list without repeats, in order of first occurrence. -/
def dedup : List Nat → List Nat
  | [] => []
  | x :: xs => x :: (dedup xs).filter (fun y => y ≠ x)

/-- At most one record of each fault code for one write (R484). -/
def recordCodes (s : State) (a : Access) (pa : Nat) (codes : List Nat) : State :=
  (dedup codes).foldl (fun s c => refuse s a c (regSource pa) pa) s

/-- Expert fields of a stored word returned to their derived values (R8). -/
def underive (r : Reg) (w : Word) : Word :=
  (regFlds r).foldl (fun w f => if f.expert then putFld w f.hi f.lo (fld (regReset r) f.hi f.lo) else w) w

/-- EXPERT_EN cleared: every expert field of the block instance that is kept by address returns to its derived value
(R8); a key beside a register's own address (TC of a port's shaper) follows its register. -/
def clearExpert (s : State) (pa : Nat) : State :=
  { s with regs := s.regs.map (fun e =>
      if ctrlOf (e.1 % 2 ^ 44) = ctrlOf pa then
        (match regAt (e.1 % 2 ^ 44 / 8 * 8) with | some (r, _) => (e.1, underive r e.2) | none => e)
      else e) }

/-- The expert mode of a write to a register: what EXPERT_EN was before the write (R9). -/
def expertMode (s : State) (a : Access) (r : Reg) (pa : Nat) (v m : Word) : ExpertMode :=
  let isCtrl : Bool := pa = ctrlOf pa && (regFlds r).any (fun f => f.lo = 0 && f.hi = 0)
  if expertOn s pa then
    (if isCtrl && m.getLsbD 0 && !v.getLsbD 0 && mayExpert s a pa then .clearing else .on)
  else .off

/-- A write of plain fields under key `key`: judged against the value read, refusals recorded, the accepted word and
the accepted command bits handed on. -/
def judgeReg (s : State) (a : Access) (r : Reg) (pa : Nat) (lock : Bool) (cur v m : Word) : Judged :=
  judge (regFlds r) (expertMode s a r pa v m) lock cur v m

/-- A block's CTRL register written: EXPERT_EN by the right party only (R6), its other fields judged, and the block's
expert fields returned when EXPERT_EN is cleared (R8). -/
def writeCtrl (s : State) (a : Access) (r : Reg) (pa : Nat) (v m : Word) : State :=
  let cur := stored s r pa
  let j := judgeReg s a r pa false cur v m
  let wants : Bool := (expertCode pa).isSome && j.word.getLsbD 0 != cur.getLsbD 0
  if wants then
    if mayExpert s a pa then
      let s1 := store s pa j.word
      let s2 := if j.word.getLsbD 0 then s1 else clearExpert s1 pa
      recordCodes s2 a pa j.codes
    else recordCodes (store s pa (putFld j.word 0 0 (b2n (cur.getLsbD 0)))) a pa (j.codes ++ [0x0002])
  else recordCodes (store s pa j.word) a pa j.codes

/-- A register of plain fields only, written under `key`. -/
def writePlain (s : State) (a : Access) (r : Reg) (pa key : Nat) (lock : Bool) (v m : Word) : State :=
  let j := judgeReg s a r pa lock (stored s r key) v m
  recordCodes (store s key j.word) a pa j.codes

end Sys2Proof.Machine
end

