-- ==== Sys2Proof/Machine/Paths.lean ====
section
/-! DEFINITION. How a packet goes through the mesh: switch points, enabled links, routes, Passes, links that are DOWN, and
what a source port answers by itself (R55, R60, R62, R66, R75 to R77, R81). -/
namespace Sys2Proof.Machine

def fabBase : Nat := 0xF8000020000
def updFab (s : State) (f : Fab → Fab) : State := { s with fab := f s.fab }

/-- Statuses of an answer (R75). -/
def stOK : BitVec 3 := 0
def stPOISON : BitVec 3 := 1
def stFENCED : BitVec 3 := 2
def stTIMEOUT : BitVec 3 := 3
def stNOPATH : BitVec 3 := 4
def stDECODE : BitVec 3 := 5

/-- The initiators that are no core (R58). -/
def dbgInit : InitId := BitVec.ofNat 10 (0x64 * 8 + 1)
def netWriter : InitId := BitVec.ofNat 10 (0x60 * 8)
def netGuard : InitId := BitVec.ofNat 10 (0x60 * 8 + 1)
def pcieInit : InitId := BitVec.ofNat 10 (0x61 * 8)
def iommuInit : InitId := BitVec.ofNat 10 (0x61 * 8 + 1)
def collectorInit : InitId := BitVec.ofNat 10 (0x63 * 8 + 2)

/-! ### The mesh (R55, R60) -/

/-- The switch point that an endpoint hangs at (R55). -/
def epSwitch (e : Nat) : Nat :=
  let at2 (n dx dy : Nat) : Nat := 2 * (n % 4) + dx + 8 * (2 * (n / 4) + dy)
  if e < 0x10 then at2 e 1 1
  else if e < 0x20 then at2 (e - 0x10) 0 0
  else if e < 0x60 then (if (e - 0x20) % 4 < 2 then at2 ((e - 0x20) / 4) 1 0 else at2 ((e - 0x20) / 4) 0 1)
  else if e = 0x60 then 23 else if e = 0x61 then 47 else if e = 0x62 then 16 else 40

/-- The port of switch point `a` that faces its neighbour `b`: 0 north, 1 east, 2 south, 3 west. -/
def portTo (a b : Nat) : Option Nat :=
  if 64 ≤ a ∨ 64 ≤ b then none
  else if b + 8 = a then some 0
  else if b = a + 1 ∧ a % 8 ≠ 7 then some 1
  else if b = a + 8 then some 2
  else if b + 1 = a ∧ a % 8 ≠ 0 then some 3
  else none

/-- LINK_EN of a switch point in a SWITCH_MAP. -/
def linkEn (m : List Byte) (n : Nat) : Nat := ((m.drop n).head?.getD 0).toNat
/-- Is the mesh link between two switch points enabled (R60)? -/
def linkOn (m : List Byte) (a b : Nat) : Bool :=
  match portTo a b with | some p => (linkEn m a).testBit p && (linkEn m b).testBit ((p + 2) % 4) | none => false
/-- Is the local link of an endpoint enabled? -/
def localOn (m : List Byte) (e : Nat) : Bool := (linkEn m (epSwitch e)).testBit 4
/-- Is a list of switch points a chain of enabled links? -/
def chainOn (m : List Byte) : List Nat → Bool
  | a :: b :: rest => linkOn m a b && chainOn m (b :: rest)
  | _ => true
/-- The links between one switch point and the next of a route, each named by its lower and upper end. -/
def routeLinks : List Nat → List (Nat × Nat)
  | a :: b :: rest => (min a b, max a b) :: routeLinks (b :: rest)
  | _ => []
/-- The switch points of a PASS record's ROUTE. -/
def routeOfPass (r : Rec) : List Nat := (List.range (ru8 r 9 + 1)).map (fun i => ru8 r (10 + i))
/-- The SWITCH_MAP of a composition. -/
def switchMap (rs : List Rec) : List Byte := ((recsOf rs tSWITCH).head?.map (·.data)).getD []

/-- The switch map before the first SEAL: every existing mesh link and every local link (R80). -/
def fullMap : List Byte :=
  (List.range 64).map (fun n => BitVec.ofNat 8 (16 + b2n (8 ≤ n) + 2 * b2n (n % 8 ≠ 7) + 4 * b2n (n < 56) + 8 * b2n (n % 8 ≠ 0)))
/-- The switch map in force. -/
def mapNow (s : State) : List Byte := if s.fab.structLive then s.fab.swmap else fullMap
/-- The Passes of a composition. -/
def passesOf (rs : List Rec) : List Pass :=
  (recsOf rs tPASS).map (fun r => { id := ru16 r 0, cell := ru16 r 2, src := ru16 r 4, dst := ru16 r 6, lanes := ru8 r 8, hops := ru8 r 9, route := routeOfPass r })
/-- DEVICE_TIMEOUT of a composition (R40). -/
def composedTimeout (rs : List Rec) : Nat := ((recsOf rs tDEVTO).head?.map (fun r => ru16 r 0)).getD 4
/-- DEVICE_TIMEOUT in force: the composed value, or FAB_TIMEOUT under expert control (R77). -/
def timeoutNow (s : State) : Nat := (look (BitVec.ofNat 64 s.fab.timeout) (fabBase + 0x10) s.regs).toNat % 256

/-! ### Paths (R62, R66) -/

/-- `n` switch points onward from `a` in steps of `d` (added or taken away). -/
def walkLine (up : Bool) (d : Nat) : Nat → Nat → List Nat
  | 0, _ => []
  | n + 1, a => let b := if up then a + d else a - d; b :: walkLine up d n b
/-- The switch points of the dimension-order path: along the row, then along the column. -/
def orderPath (a b : Nat) : List Nat :=
  let ax := a % 8; let bx := b % 8; let ay := a / 8; let by' := b / 8
  let row := walkLine (ax < bx) 1 (if ax < bx then bx - ax else ax - bx) a
  let m := ay * 8 + bx
  a :: row ++ walkLine (ay < by') 8 (if ay < by' then by' - ay else ay - by') m
/-- Do the local links of both endpoints and every link between carry traffic? -/
def pathOn (m : List Byte) (e f : Nat) : Bool := localOn m e && localOn m f && chainOn m (orderPath (epSwitch e) (epSwitch f))
/-- Does the fabric have a path for a request and for its answer? -/
def pathBoth (s : State) (e f : Nat) : Bool := pathOn (mapNow s) e f && pathOn (mapNow s) f e

/-- The Pass that a transaction uses: of those that match, the one with the lowest PASS_ID (R66). Debug traffic takes none
(R79). -/
def passFor (s : State) (i : InitId) (cell : Option CellId) (f : Nat) : Option Pass :=
  let e := initEp i
  match cell with
  | none => none
  | some c =>
    if i = dbgInit then none
    else (s.fab.passes.filter (fun p => p.cell = c.toNat && ((p.src = e && p.dst = f) || (p.src = f && p.dst = e)))).foldl
      (fun b p => match b with | none => some p | some q => if p.id < q.id then some p else some q) none
/-- The switch points that a request crosses from endpoint `e` to `f`, and that its answer crosses back. -/
def routeThere (p : Option Pass) (e f : Nat) : List Nat :=
  match p with
  | some p => if p.src = e then p.route else p.route.reverse
  | none => orderPath (epSwitch e) (epSwitch f)
def routeBack (p : Option Pass) (e f : Nat) : List Nat :=
  match p with
  | some p => if p.src = e then p.route.reverse else p.route
  | none => orderPath (epSwitch f) (epSwitch e)
/-- Words on a Pass counted (FAB_PASS_COUNT). -/
def countWords (s : State) (p : Option Nat) (n : Nat) : State :=
  match p with
  | none => s
  | some i => updFab s (fun f => { f with words := put i (look (0 : BitVec 32) i f.words + BitVec.ofNat 32 n) f.words })
/-- Data words of a packet (R61). -/
def dataWords (n : Nat) : Nat := (n + 7) / 8
/-- Words of a request and of its answer (R61). That a compare-and-swap carries its new value alone as data is the model's
reading: the spec does not say where the value compared with travels (DESIGN CHOICE, assumption 63). -/
def reqWords (t : Txn) : Nat := 2 + (match t.kind with | .read | .fetch | .lr => 0 | _ => dataWords t.data.length)
def ansWords (t : Txn) : Nat := match t.kind with | .write => 1 | _ => 1 + dataWords t.size
/-- A transaction by its number. -/
def findTxn (s : State) (id : Nat) : Option Txn := s.fab.txns.find? (fun t => t.id = id)

/-! ### Links that are DOWN (R72, R74) -/

/-- The endpoints at the local ports of a switch point, in local port order (R55). -/
def localEps (sp : Nat) : List Nat := (List.range 0x65).filter (fun e => epSwitch e = sp)
/-- The local port of an endpoint at its switch point. -/
def localPort (e : Nat) : Nat := ((localEps (epSwitch e)).findIdx? (· = e)).getD 0
/-- The key of a link direction: ports 0 to 3 north, east, south, west, and 4 to 7 the local ports, as they leave a switch
point; 8 to 11 the local ports, as they enter it. -/
def linkKey (sp port : Nat) : Nat := sp * 16 + port
def getLink (s : State) (sp port : Nat) : LinkDir := look {} (linkKey sp port) s.fab.links
def updLink (s : State) (sp port : Nat) (f : LinkDir → LinkDir) : State :=
  updFab s (fun b => { b with links := put (linkKey sp port) (f (getLink s sp port)) b.links })
/-- The mesh link directions of a route: the switch point that each leaves, and its port. -/
def meshHops : List Nat → List (Nat × Nat)
  | a :: b :: rest => (match portTo a b with | some p => [(a, p)] | none => []) ++ meshHops (b :: rest)
  | _ => []
/-- The link directions that a packet crosses, in order: into the mesh at its source, along its route, out of it at its
target. -/
def hopsOf (route : List Nat) (e f : Nat) : List (Nat × Nat) :=
  (epSwitch e, 8 + localPort e) :: meshHops route ++ [(epSwitch f, 4 + localPort f)]
/-- Is the way of a packet cut by a DOWN link? A DOWN link stays so until reset. -/
def wayDown (s : State) (route : List Nat) (e f : Nat) : Bool :=
  s.fab.links.any (fun l => l.2.down) && (hopsOf route e f).any (fun h => (getLink s h.1 h.2).down)

/-! ### A transfer as one step (R62, R66, R75 to R77, R81) -/

/-- A transfer of an engine that the model takes as one step (a walk's table read, a context line, a line of a ring, a DMA
piece, a fault record), at its source port: the status it is answered with, and its words counted on its Pass. `none`: it
waits, because the structure changes, or because its way is cut by a DOWN link and DEVICE_TIMEOUT has not passed since its
issue. -/
def carry (s : State) (i : InitId) (st : BitVec 4) (cell : Option CellId) (d req ans : Nat) : State × Option (BitVec 3) :=
  let e := initEp i
  let key := i.toNat * 16 + st.toNat
  if s.fab.changing then (s, none)
  else if s.fab.fences.contains d then (s, some stFENCED)
  else
    let p := passFor s i cell d
    if p.isNone ∧ !pathBoth s e d then (s, some stNOPATH)
    else if wayDown s (routeThere p e d) e d ∨ wayDown s (routeBack p e d) d e then
      match s.fab.cut.find? (fun x => x.1 = key) with
      | none => (updFab s (fun f => { f with cut := put key (s.now, timeoutNow s) f.cut }), none)
      | some (_, at0, limit) =>
        if s.now.toNat < at0.toNat + limit * 500 then (s, none)
        else (updFab s (fun f => { f with cut := drop' key f.cut }), some stTIMEOUT)
    else (countWords s (p.map (·.id)) (req + ans), some stOK)
/-- The words of a read of `n` bytes and of a write of `n` bytes, with their answers (R61). -/
def carryRead (s : State) (i : InitId) (st : BitVec 4) (cell : Option CellId) (d n : Nat) : State × Option (BitVec 3) :=
  carry s i st cell d 2 (1 + dataWords n)
def carryWrite (s : State) (i : InitId) (st : BitVec 4) (cell : Option CellId) (d n : Nat) : State × Option (BitVec 3) :=
  carry s i st cell d (2 + dataWords n) 1
/-- Such a transfer to a physical address: DECODE where no endpoint has it (R478). -/
def carryReadPa (s : State) (i : InitId) (st : BitVec 4) (cell : Option CellId) (pa n : Nat) : State × Option (BitVec 3) :=
  match endpointOf pa with | none => (s, some stDECODE) | some d => carryRead s i st cell d n
def carryWritePa (s : State) (i : InitId) (st : BitVec 4) (cell : Option CellId) (pa n : Nat) : State × Option (BitVec 3) :=
  match endpointOf pa with | none => (s, some stDECODE) | some d => carryWrite s i st cell d n

end Sys2Proof.Machine
end

