-- ==== Sys2Proof/Machine/Hbm.lean ====
section
/-! DEFINITION. The HBM controllers: requests and their order, the command scheduler, refresh, errors and retry, scrub,
training and self-refresh (chapter 13). -/
namespace Sys2Proof.Machine

def getHmc (s : State) (m : Nat) : Hmc := look {} m s.hbm
def updHmc (s : State) (m : Nat) (f : Hmc → Hmc) : State := { s with hbm := put m (f (getHmc s m)) s.hbm }
def getPc (h : Hmc) (p : Nat) : PseudoChan := if p = 0 then h.pc0 else h.pc1
def setPc (h : Hmc) (p : Nat) (x : PseudoChan) : Hmc := if p = 0 then { h with pc0 := x } else { h with pc1 := x }
def updPc (s : State) (m p : Nat) (f : PseudoChan → PseudoChan) : State := updHmc s m (fun h => setPc h p (f (getPc h p)))

def hmcBase (m : Nat) : Nat := 0xF8000200000 + m * 0x10000
/-- Records of an HMC: a pseudo-channel, or the channel (R335). -/
def pcSource (m p : Nat) : BitVec 16 := src (0x20 + m) p 0
def chanSource (m : Nat) : BitVec 16 := src (0x20 + m) 2 0


/-- Owner of a reserved pseudo-channel, live from SEAL (R287). -/
def pcOwner (s : State) (m p : Nat) : Option Nat :=
  if s.comp.isSealed then (findRec s.comp.live tPCRES (fun r => ru8 r 2 = m && ru8 r 3 = p)).map (fun r => ru16 r 0) else none

/-- POSTPONE_MAX (R290). -/
def postponeMax (s : State) (m : Nat) : Nat := fld (stored s .hmcRefresh (hmcBase m + 0x40)) 35 32

/-! ### The tokens of the sites (R279) -/

/-- Site that an HMC is homed at. -/
def hmcSite (m : Nat) : Nat := m / 4
/-- A holder lets go of a site's token. -/
def releaseToken (s : State) (site : Nat) : State := updSite s site (fun x => { x with holder := .none })
/-- Does no activity hold or seek a site's token (R279)? A freed token belongs to what queues for it. -/
def tokenFree (x : Site) : Bool := x.holder = .none && !x.qCommit && !x.qPower && x.trainQueue.isEmpty

/-! ### Errors (R292, R293) -/

/-- An error is counted and, where HMC_ERR_STATUS is free or an uncorrectable error replaces a corrected one, latched. -/
def latchErr (s : State) (m p kind sym : Nat) (req : Option Req) (pa tries : Nat) : State :=
  let ue : Bool := kind = 3 || kind = 5 || kind = 7
  updHmc s m (fun h =>
    let w : Word := BitVec.ofNat 64 (
      at' ((req.bind (·.cell)).map (·.toNat) |>.getD 0) 48 + at' sym 40 + at' ((req.map (fun r => r.init.toNat)).getD 0) 30 +
      at' ((req.map (fun r => r.stream.toNat)).getD 0) 26 + at' kind 16 + at' p 8 + min tries 15)
    let oldUe : Bool := let k := fld h.errWord 19 16; k = 3 || k = 5 || k = 7
    let take : Bool := !h.errValid || (ue && !oldUe)
    { h with
      ue := if ue then satAdd h.ue 1 else h.ue, ce := if ue then h.ce else satAdd h.ce 1
      errValid := true, errOverflow := h.errOverflow || h.errValid
      errWord := if take then w else h.errWord, errPa := if take then BitVec.ofNat 64 (pa / 64 * 64) else h.errPa })

/-- An HBM fault record with its address and initiator. -/
def hbmFault (s : State) (m p code : Nat) (req : Option Req) (pa : Nat) : State :=
  raise s { code := code, cls := BitVec.ofNat 2 (defaultClass code), source := pcSource m p, cell := req.bind (·.cell),
            addr := some (BitVec.ofNat 64 pa, false), init := req.map (fun r => (r.init, r.stream)) }

/-! ### Requests (R283) -/

/-- Answers leave in the order of their source's requests (O-2): an answered request whose source has none before it. -/
def releaseAnswers : List HmcReq → List HmcReq → List HmcReq × List HmcAns
  | [], kept => (kept, [])
  | q :: qs, kept =>
    match q.ans with
    | some (st, d) =>
      if kept.any (fun k => k.req.init = q.req.init && k.req.stream = q.req.stream) then releaseAnswers qs (kept ++ [q])
      else
        let r := releaseAnswers qs kept
        (r.1, { req := q.req, status := st, data := d } :: r.2)
    | none => releaseAnswers qs (kept ++ [q])
/-- A request put into its place in the order of arrival. -/
def insertReq (q : HmcReq) : List HmcReq → List HmcReq
  | [] => [q]
  | k :: ks => if q.num ≤ k.num then q :: k :: ks else k :: insertReq q ks
/-- The requests that an HMC holds, in the order of their arrival at it, whatever their pseudo-channels. -/
def arrivals (h : Hmc) : List HmcReq := (h.pc0.queue ++ h.pc1.queue).foldr insertReq []
/-- The answers of an HMC that may leave do. -/
def flushHmc (s : State) (m : Nat) : State :=
  updHmc s m (fun h =>
    let r := releaseAnswers (arrivals h) []
    let keep (x : PseudoChan) : PseudoChan := { x with queue := x.queue.filter (fun q => r.1.contains q) }
    { h with pc0 := keep h.pc0, pc1 := keep h.pc1, answers := h.answers ++ r.2 })
/-- A request of a pseudo-channel answered. -/
def answerReq (s : State) (m p : Nat) (q : HmcReq) (st : BitVec 3) (d : List Byte) : State :=
  flushHmc (updPc s m p (fun x => { x with queue := x.queue.map (fun k => if k = q then { k with ans := some (st, d) } else k) })) m

/-- Is a request a write? -/
def isWrite (r : Req) : Bool := r.kind = .write
/-- Lines in the write-data buffer of a pseudo-channel. -/
def bufferedWrites (x : PseudoChan) : Nat := (x.queue.filter (fun q => isWrite q.req && q.ans.isNone)).length

/-- A request that a FAILED channel answers with POISON is recorded: HBM_UE for a read, HBM_WRITE_FAIL for a write (R293,
R296). -/
def failReq (s : State) (m p : Nat) (r : Req) : State := hbmFault s m p (if isWrite r then 0x0604 else 0x0603) (some r) r.addr.toNat
/-- Every request of a channel that is FAILED is answered with POISON (R296). -/
def failAll (s : State) (m : Nat) : State :=
  let f (x : PseudoChan) : PseudoChan := { x with queue := x.queue.map (fun q => if q.ans.isNone then { q with ans := some (stPOISON, []) } else q) }
  let note (s : State) (p : Nat) : State := ((getPc (getHmc s m) p).queue.filter (fun q => q.ans.isNone)).foldl (fun s q => failReq s m p q.req) s
  flushHmc (updHmc (note (note s 0) 1) m (fun h => { h with pc0 := f h.pc0, pc1 := f h.pc1 })) m

/-- What the newest queued write answers a read that it matches (R283): one that overlaps it and holds all its bytes. A read
of which it holds a part alone waits for the writes before it. -/
def fromWrite (x : PseudoChan) (r : Req) : Option (List Byte) :=
  let a := r.addr.toNat
  if isWrite r then none
  else match x.queue.reverse.find? (fun q => isWrite q.req && q.ans.isNone && q.req.addr.toNat < a + r.size && a < q.req.addr.toNat + q.req.data.length) with
    | none => none
    | some q => let b := q.req.addr.toNat; if b ≤ a ∧ a + r.size ≤ b + q.req.data.length then some ((q.req.data.drop (a - b)).take r.size) else none

/-- A request joins the queue of its pseudo-channel, with its answer where it has one already. -/
def joinQueue (s : State) (m p : Nat) (r : Req) (ans : Option (BitVec 3 × List Byte)) : State :=
  updHmc (updPc s m p (fun x => { x with queue := x.queue ++ [{ req := r, num := (getHmc s m).arrived, ans := ans }] })) m (fun h => { h with arrived := h.arrived + 1 })
/-- HMC_REQUEST. A request for another HMC's address does not reach this one; a full queue or write buffer holds the
slice by handshake. -/
def execHmcRequest (hmc : BitVec 6) (r : Req) (s : State) : Host.Outcome State Fault Refusal :=
  let m := hmc.toNat
  let a := r.addr.toNat
  let p := pcOf a
  let x := getPc (getHmc s m) p
  .next (
    if hbmLimit ≤ a ∨ hmcOf a ≠ m then s
    else if (getHmc s m).state = .failed then flushHmc (joinQueue (failReq s m p r) m p r (some (stPOISON, []))) m
    else if 64 ≤ x.queue.length ∨ (isWrite r ∧ 32 ≤ bufferedWrites x) then s
    else match fromWrite x r with
      | some d => flushHmc (joinQueue s m p r (some (stOK, d))) m
      | none => joinQueue s m p r none)

/-! ### The command scheduler (R284, R285) -/

/-- Bank of a request. -/
def bankOfReq (r : Req) : Nat := Config.bankOf (localOf r.addr.toNat) % 64

/-- The injection armed for the next write on a pseudo-channel: its KIND. -/
def injection (s : State) (m p : Nat) : Option Nat :=
  let w := stored s .hmcErrInject (hmcBase m + 0x68)
  if (getHmc s m).armed ∧ fld w 8 8 = p then some (fld w 5 4) else none

/-- A write's data reach the stack: the bytes, their poison, and an injected error. -/
def writeStack (s : State) (m p : Nat) (q : HmcReq) : State :=
  let a := q.req.addr.toNat
  let s1 := wrBytes s a q.req.data
  let s1 := { s1 with cache := { s1.cache with bad := s1.cache.bad.filter (fun b => !(a / 8 ≤ b.1 && b.1 < (a + q.req.data.length + 7) / 8)) } }
  match injection s m p with
  | some 0 => updHmc { s1 with cache := { s1.cache with bad := put (a / 8) false s1.cache.bad } } m (fun h => { h with armed := false })
  | some 1 => updHmc { s1 with cache := { s1.cache with bad := put (a / 8) true s1.cache.bad } } m (fun h => { h with armed := false })
  | some _ => hbmFault (latchErr (updHmc s1 m (fun h => { h with armed := false })) m p 4 0 (some q.req) a 2) m p 0x0602 (some q.req) a
  | none => s1

/-- The write under way on a pseudo-channel is performed once its commands have passed. -/
def completeWrites (s : State) (m p : Nat) : State :=
  match (getPc (getHmc s m) p).queue.find? (fun q => q.issued && isWrite q.req && q.ans.isNone) with
  | none => s
  | some q =>
    answerReq (writeStack s m p q) m p q stOK []

/-- A request that may issue: not yet issued, no earlier access to its line before it (R283), its bank not refreshing,
and no non-owner's request while an owner's waits (R287). -/
def mayIssue (own : Option Nat) (x : PseudoChan) : List HmcReq → List HmcReq → List HmcReq
  | _, [] => []
  | before, q :: qs =>
    let line := q.req.addr.toNat / 64
    let ok : Bool := !q.issued && q.ans.isNone && before.all (fun b => b.ans.isSome || b.req.addr.toNat / 64 ≠ line) &&
      !(x.refreshing.contains (bankOfReq q.req)) &&
      (match own with
       | some c => q.req.cell == some (BitVec.ofNat 12 c) ||
           x.queue.all (fun k => k.ans.isSome || k.issued || k.req.cell != some (BitVec.ofNat 12 c))
       | none => true)
    if ok then q :: mayIssue own x (before ++ [q]) qs else mayIssue own x (before ++ [q]) qs

/-- What the scheduler does next (R285). -/
inductive HmcPick where
  | refresh (bank : Nat) | access (q : HmcReq) | training | scrub | nothing
deriving DecidableEq, Repr

/-- The banks that the round has still to refresh, in bank order. -/
def roundBanks (x : PseudoChan) : List Nat := (List.range 64).filter (fun b => !(x.banks.contains b) && !(x.refreshing.contains b))
/-- A bank not yet refreshed in the round and without a queued request. -/
def idleBank (x : PseudoChan) : Option Nat := (roundBanks x).find? (fun b => x.queue.all (fun q => q.ans.isSome || bankOfReq q.req ≠ b))

/-- Has a bank an access in progress? -/
def bankBusy (x : PseudoChan) (b : Nat) : Bool := x.queue.any (fun q => q.issued && q.ans.isNone && bankOfReq q.req = b)
/-- The refresh state of a pseudo-channel: while it is reserved no catch-up takes place on it, but to sleep (R287, R290). -/
def refOf (own : Option Nat) (x : PseudoChan) : RefState := if x.ref = .catchUp ∧ own.isSome ∧ !x.toSleep then .normal else x.ref
/-- Are refreshes forced on a pseudo-channel: is it reserved and two rounds behind (R290)? -/
def forcedRefresh (own : Option Nat) (x : PseudoChan) : Bool := refOf own x = .normal && own.isSome && decide (2 ≤ x.debt)
/-- The refresh of kind 1 that may start: in CATCH_UP in bank order, a forced one on any bank of the round, each once the
bank's access in progress has ended. -/
def firstRefresh (own : Option Nat) (x : PseudoChan) : Option Nat :=
  if x.debt = 0 then none
  else if refOf own x = .catchUp then (roundBanks x).head?.filter (fun b => !(bankBusy x b))
  else if forcedRefresh own x then (roundBanks x).find? (fun b => !(bankBusy x b))
  else none
/-- Has the patrol scrub's next read waited 1 µs (R285)? -/
def scrubLate (s : State) (x : PseudoChan) : Bool := decide (x.scrubSince.toNat + 1000 ≤ s.now.toNat)
/-- Has a training access waited 1 µs (R285)? -/
def trainingLate (s : State) (x : PseudoChan) : Bool := match x.trainSince with | some t => decide (t.toNat + 1000 ≤ s.now.toNat) | none => false
/-- May the patrol scrub read a line of the pseudo-channel now (R279, R294)? -/
def scrubDue (s : State) (m p : Nat) : Bool :=
  bit (stored s .hmcCtrl (hmcBase m)) 8 && (getPc (getHmc s m) p).scrubbing.isNone && (getSite s (hmcSite m)).holder = .none &&
    (getHmc s m).position.toNat / 0x1800000 = p

/-- The candidates of R285 in their order. -/
def hmcPick (s : State) (m p : Nat) : HmcPick :=
  let h := getHmc s m
  let x := getPc h p
  let own := pcOwner s m p
  -- no ACT to a bank that has a forced refresh pending
  let cands := (mayIssue own x [] x.queue).filter (fun q => !(forcedRefresh own x) || x.banks.contains (bankOfReq q.req))
  let drain : Bool := if Config.wqHigh ≤ bufferedWrites x then true else x.draining && Config.wqLow < bufferedWrites x
  let owners := cands.filter (fun q => match own with | some c => q.req.cell == some (BitVec.ofNat 12 c) | none => false)
  let reads := cands.filter (fun q => !(isWrite q.req))
  let writes := cands.filter (fun q => isWrite q.req)
  match firstRefresh own x with
  | some b => .refresh b
  | none =>
    match owners.head?, (if drain then writes.head? else none), reads.head?, writes.head? with
    | some q, _, _, _ => .access q
    | none, w, r, v =>
      if trainingLate s x then .training
      else if scrubDue s m p && scrubLate s x then .scrub
      else match w, r, v with
        | some q, _, _ => .access q
        | none, some q, _ => .access q
        | none, none, some q => .access q
        | none, none, none =>
          match (if refOf own x = .normal ∧ 0 < x.debt then idleBank x else none) with
          | some b => .refresh b
          | none => if x.trainSince.isSome then .training else if scrubDue s m p then .scrub else .nothing

/-- HMC_COMMAND_ISSUE: nothing is issued on a channel that is not READY. -/
def execHmcCommandIssue (hmc : BitVec 6) (pc : Fin 2) (s : State) : Host.Outcome State Fault Refusal :=
  let m := hmc.toNat
  let p := pc.val
  .next (
    if (getHmc s m).state ≠ .ready then s
    else
      let s1 := completeWrites s m p
      let x := getPc (getHmc s1 m) p
      let s2 := updPc s1 m p (fun x => { x with
        draining := if Config.wqHigh ≤ bufferedWrites x then true else x.draining && Config.wqLow < bufferedWrites x })
      match hmcPick s1 m p with
      | .refresh b => updPc s1 m p (fun x => { x with refreshing := x.refreshing ++ [b] })
      | .training => updPc s1 m p (fun x => { x with trainSince := none })
      | .access q => updPc s2 m p (fun x => { x with queue := x.queue.map (fun k => if k = q then { k with issued := true } else k) })
      | .scrub =>
        let w := (getHmc s1 m).position.toNat % 0x1800000
        updPc s1 m p (fun _ => { x with scrubbing := some w })
      | .nothing => s1)

/-! ### Read data and parity (R292) -/

/-- Physical address of a line of a pseudo-channel, by local offset (R281 turned round). -/
def lineAddr (m p loc : Nat) : Nat :=
  let q := 2 * (m % 16) + p
  let stack := m / 16 * 0xC00000000
  if loc < 0x40000000 then
    let hi := loc / 256
    -- o[34:13] is `hi`; o[12:8] follows from q
    let x := (hi ^^^ (hi >>> 5) ^^^ (hi >>> 10) ^^^ (hi >>> 15)) % 32 ^^^ (hi >>> 20) % 4
    stack + hi * 8192 + (q ^^^ x) % 32 * 256 + loc % 256
  else stack + 0x800000000 + q * 0x20000000 + (loc - 0x40000000)

/-- What a read of a line finds: the error put there, poison, or what the command says. -/
def eccOf (s : State) (a n : Nat) (e : EccResult) : EccResult :=
  if poisonedAt s a n then .uncorrectable
  else match (s.cache.bad.filter (fun b => a / 8 ≤ b.1 && b.1 ≤ (a + n - 1) / 8)).map (·.2) with
    | [] => e
    | l => if l.contains true then .uncorrectable else (match e with | .clean => .corrected 0 | x => x)

/-- The scrub moves on to the next line of its channel (R294). -/
def scrubNext (s : State) (m p : Nat) : State :=
  let since (x : PseudoChan) : PseudoChan := { x with scrubSince := s.now }
  updHmc (updPc s m p (fun x => { x with scrubbing := none })) m (fun h =>
    { h with position := BitVec.ofNat 26 ((h.position.toNat + 1) % 0x3000000), pc0 := since h.pc0, pc1 := since h.pc1 })

/-- HMC_READ_DATA: the oldest read under way, or else the scrub read. -/
def execHmcReadData (hmc : BitVec 6) (pc : Fin 2) (e : EccResult) (s : State) : Host.Outcome State Fault Refusal :=
  let m := hmc.toNat
  let p := pc.val
  let x := getPc (getHmc s m) p
  let answer (s : State) (q : HmcReq) (st : BitVec 3) (d : List Byte) : State := answerReq s m p q st d
  .next (
    match x.queue.find? (fun q => q.issued && !(isWrite q.req) && q.ans.isNone) with
    | some q =>
      let a := q.req.addr.toNat
      let d := rdBytes s a q.req.size
      let times := q.tries + q.reissues + 1
      match eccOf s a q.req.size e with
      | .clean =>
        if q.tries = 0 then answer s q stOK d
        else answer (hbmFault (latchErr s m p 2 0 (some q.req) a times) m p 0x0602 (some q.req) a) q stOK d
      | .corrected sym =>
        if q.tries = 0 then answer (hbmFault (latchErr s m p 1 sym.toNat (some q.req) a times) m p 0x0601 (some q.req) a) q stOK d
        else answer (hbmFault (latchErr s m p 2 sym.toNat (some q.req) a times) m p 0x0602 (some q.req) a) q stOK d
      | .uncorrectable =>
        if q.tries = 0 then
          updPc s m p (fun x => { x with queue := x.queue.map (fun k => if k = q then { k with tries := 1 } else k) })
        else answer (hbmFault (latchErr s m p 3 0 (some q.req) a times) m p 0x0603 (some q.req) a) q stPOISON d
    | none =>
      match x.scrubbing with
      | none => s
      | some l =>
        let a := lineAddr m p (l * 64)
        let later : Bool := x.queue.any (fun q => isWrite q.req && q.req.addr.toNat / 64 = a / 64)
        match eccOf s a 64 e with
        | .clean => scrubNext s m p
        | .corrected sym =>
          let s1 := hbmFault (latchErr s m p 6 sym.toNat none a 1) m p 0x0601 none a
          let s2 := if later then s1 else { s1 with cache := { s1.cache with bad := s1.cache.bad.filter (fun b => b.1 / 8 ≠ a / 64) } }
          scrubNext s2 m p
        | .uncorrectable => scrubNext (hbmFault (latchErr s m p 7 0 none a 1) m p 0x0603 none a) m p)

/-- HBM_PARITY_ERROR: the access under way is reissued, at most twice; `ok` tells whether the reissue succeeds. -/
def execHbmParityError (hmc : BitVec 6) (pc : Fin 2) (ok : Bool) (s : State) : Host.Outcome State Fault Refusal :=
  let m := hmc.toNat
  let p := pc.val
  .next (
    match (getPc (getHmc s m) p).queue.find? (fun q => q.issued && q.ans.isNone) with
    | none => s
    | some q =>
      let a := q.req.addr.toNat
      let setQ (s : State) (k : HmcReq) : State := updPc s m p (fun x => { x with queue := x.queue.map (fun y => if y = q then k else y) })
      let times := q.tries + q.reissues + 2
      if ok then hbmFault (latchErr (setQ s { q with reissues := q.reissues + 1 }) m p 4 0 (some q.req) a times) m p 0x0602 (some q.req) a
      else if q.reissues < 1 then setQ s { q with reissues := q.reissues + 1 }
      else if isWrite q.req then
        let s1 := ((List.range ((q.req.data.length + 7) / 8)).foldl (fun s i => setPoison s (a + 8 * i)) (latchErr s m p 5 0 (some q.req) a times))
        answerReq (hbmFault s1 m p 0x0604 (some q.req) a) m p q stPOISON []
      else answerReq (hbmFault (latchErr s m p 3 0 (some q.req) a times) m p 0x0603 (some q.req) a) m p q stPOISON [])

/-! ### Refresh (R290, R291) and self-refresh (R298) -/

/-- A channel asked to sleep goes to self-refresh once its writes are performed and its debt is repaid (R298). -/
def sleepCheck (s : State) (m : Nat) : State :=
  let h := getHmc s m
  let ready (x : PseudoChan) : Bool := x.toSleep && x.debt = 0 && x.refreshing.isEmpty && bufferedWrites x = 0
  if h.state = .ready ∧ ready h.pc0 ∧ ready h.pc1 then
    updHmc s m (fun h => { h with
      state := .selfRefresh, pc0 := { h.pc0 with ref := .selfRefresh, toSleep := false }, pc1 := { h.pc1 with ref := .selfRefresh, toSleep := false } })
  else s

/-- Entry into DOZE: every queued write is performed, and refresh catches up before self-refresh (R290, R298). -/
def sleepStart (s : State) (m : Nat) : State :=
  let s0 := (List.range 64).foldl (fun s _ => completeWrites (completeWrites s m 0) m 1) s
  let drain (s : State) (p : Nat) : State :=
    (getPc (getHmc s m) p).queue.foldl (fun s q => if isWrite q.req ∧ q.ans.isNone then answerReq (writeStack s m p q) m p q stOK [] else s) s
  let s1 := drain (drain s0 0) 1
  let f (x : PseudoChan) : PseudoChan := { x with toSleep := true, ref := if x.ref = .normal then .catchUp else x.ref }
  sleepCheck (if (getHmc s1 m).state = .ready then updHmc s1 m (fun h => { h with pc0 := f h.pc0, pc1 := f h.pc1 }) else s1) m

/-- An entry into DOZE given up: the channel leaves catch-up or self-refresh (R386). -/
def sleepStop (s : State) (m : Nat) : State :=
  let f (x : PseudoChan) : PseudoChan :=
    { x with toSleep := false, ref := if x.ref = .selfRefresh ∨ x.ref = .catchUp ∧ x.debt = 0 then .normal else x.ref
             debt := if x.ref = .selfRefresh then 0 else x.debt }
  let h := getHmc s m
  updHmc s m (fun k => { k with state := if h.state = .selfRefresh then .ready else k.state, pc0 := f k.pc0, pc1 := f k.pc1,
                                due := k.due || h.state == .selfRefresh })

/-- Is a channel ready for the commit of an entry into DOZE? A channel that holds no trained stack has nothing to do. -/
def asleep (s : State) (m : Nat) : Bool := (getHmc s m).state ≠ .ready

/-- TREFI_TICK. -/
def execTrefiTick (hmc : BitVec 6) (pc : Fin 2) (s : State) : Host.Outcome State Fault Refusal :=
  let m := hmc.toNat
  let p := pc.val
  let x := getPc (getHmc s m) p
  let own : Bool := (pcOwner s m p).isSome
  .next (
    if x.ref = .normal ∨ x.ref = .catchUp then
      let d := min (x.debt + 1) (if own then max 2 x.debt else 8)
      updPc s m p (fun x => { x with debt := d, ref := if !own ∧ postponeMax s m ≤ d then .catchUp else if own ∧ !x.toSleep then .normal else x.ref })
    else s)

/-- REFRESH_DONE. -/
def execRefreshDone (hmc : BitVec 6) (pc : Fin 2) (s : State) : Host.Outcome State Fault Refusal :=
  let m := hmc.toNat
  let p := pc.val
  let x := getPc (getHmc s m) p
  .next (
    match x.refreshing with
    | [] => s
    | b :: rest =>
      let banks := addSorted b x.banks
      if banks.length < 64 then updPc s m p (fun x => { x with refreshing := rest, banks := banks })
      else
        let d := x.debt - 1
        let x1 : PseudoChan := { x with refreshing := rest, banks := [], debt := d,
                                        ref := if x.ref = .catchUp ∧ d = 0 ∧ !x.toSleep then .normal else x.ref }
        sleepCheck (updPc s m p (fun _ => x1)) m)

/-- Two's complement of a temperature field. -/
def tempOf (t : BitVec 8) : Int := t.toInt
/-- Band of a stack temperature (R291): 0, 1, 2, 3. -/
def hbmBand (t : Int) : Nat := if t ≤ 85 then 0 else if t ≤ 95 then 1 else if t ≤ 105 then 2 else 3

/-- HBM_TEMP_READ. -/
def execHbmTempRead (hmc : BitVec 6) (temp : BitVec 8) (s : State) : Host.Outcome State Fault Refusal :=
  let m := hmc.toNat
  let h := getHmc s m
  let b := hbmBand temp.toInt
  let far : Bool := 8 ≤ (temp.toInt - h.lastTemp.toInt).natAbs
  let s1 := updHmc s m (fun h => { h with temp := temp, trefi := min b 2, band := b, due := h.due || (far && h.state == .ready) })
  .next (
    if b = 2 ∧ h.band ≠ 2 then fault s1 0x0608 (chanSource m) none
    else if b = 3 then fault s1 0x0609 (chanSource m) none
    else s1)

/-! ### Training (R295 to R297) -/

def trainInfoRate (s : State) (m : Nat) : Nat := fld (stored s .hmcRate (hmcBase m + 0x28)) 3 0

/-- A training begins. -/
def trainStart (s : State) (m : Nat) (k : Training) (step : Nat) : State :=
  let stop (x : PseudoChan) : PseudoChan := { x with ref := .stopped, refreshing := [], banks := [] }
  let seek (x : PseudoChan) : PseudoChan := { x with trainSince := some s.now }
  updHmc s m (fun h =>
    let h1 := { h with op := .start, train := some k, step := step, started := s.now, cause := 0, due := false
                       tryRate := if k = Training.scheduled then h.rate else trainInfoRate s m }
    if k = .scheduled then { h1 with pc0 := seek h1.pc0, pc1 := seek h1.pc1 } else { h1 with state := .training, pc0 := stop h1.pc0, pc1 := stop h1.pc1, repaired := 0 })

/-- A channel becomes READY: refresh starts with no debt (R290). -/
def toReady (h : Hmc) : Hmc :=
  let f (x : PseudoChan) : PseudoChan := if x.ref = .stopped ∨ x.ref = .selfRefresh then { x with ref := .normal, debt := 0, banks := [], refreshing := [] } else x
  { h with state := .ready, pc0 := f h.pc0, pc1 := f h.pc1 }

/-- Every line of a channel zero with valid check bits (R295 step 10); its content lost and zeroed. -/
def zeroChannel (s : State) (m : Nat) : State :=
  { s with
    mem := s.mem.filter (fun c => !(c.1 < hbmLimit && hmcOf c.1 = m))
    poison := s.poison.filter (fun u => !(8 * u < hbmLimit && hmcOf (8 * u) = m))
    cache := { s.cache with bad := s.cache.bad.filter (fun b => !(8 * b.1 < hbmLimit && hmcOf (8 * b.1) = m)) } }

/-- The HMCs of a site run at the lowest rate that any of them reached (R296). -/
def siteRate (s : State) (site : Nat) : State :=
  let ms := (List.range 4).map (fun k => 4 * site + k)
  let rs := ms.filterMap (fun m => if (getHmc s m).rate = 0 ∨ (getHmc s m).state = .failed then none else some (getHmc s m).rate)
  let low := rs.foldl min 5
  ms.foldl (fun s m => if (getHmc s m).rate = 0 ∨ (getHmc s m).state = .failed then s else updHmc s m (fun h => { h with rate := low })) s

/-- The end of a training: DURATION_US, and the token given back where it was held. -/
def trainEnd (s : State) (m : Nat) (k : Training) : State :=
  let s1 := updHmc s m (fun h => { h with
    train := none, lastTrain := s.now, lastTemp := h.temp
    pc0 := { h.pc0 with trainSince := none }, pc1 := { h.pc1 with trainSince := none }
    duration := satAdd (0 : BitVec 16) ((s.now - h.started).toNat / 1000) })
  if k = .boot then s1 else releaseToken s1 (hmcSite m)

/-- A training that fails: ERROR, its cause, and the channel FAILED (R296). -/
def trainFail (s : State) (m cause : Nat) (k : Training) : State :=
  let stop (x : PseudoChan) : PseudoChan := { x with ref := .stopped, debt := 0, refreshing := [], banks := [] }
  let s1 := updHmc s m (fun h => { h with
    state := .failed, op := h.op.finish 4, cause := cause, pc0 := stop h.pc0, pc1 := stop h.pc1 })
  fault (trainEnd (failAll s1 m) m k) 0x0607 (chanSource m) none

/-- A training that ends DONE. -/
def trainPass (s : State) (m : Nat) (k : Training) : State :=
  let s0 := if k = .boot then zeroChannel s m else s
  let s1 := updHmc s0 m (fun h => { (toReady h) with op := h.op.finish 2, rate := if k = .scheduled then h.rate else h.tryRate })
  let s2 := siteRate (trainEnd s1 m k) (hmcSite m)
  if k ≠ .scheduled ∧ (getHmc s2 m).rate < 5 then fault s2 0x0606 (chanSource m) none else s2

/-- A training that an abort ends (R297). -/
def trainAbort (s : State) (m : Nat) (k : Training) : State :=
  let s1 := updHmc s m (fun h =>
    let h1 := { h with op := h.op.aborted }
    match k with | .boot => { h1 with state := .untrained, rate := 0 } | _ => toReady h1)
  trainEnd s1 m k

/-- The step that follows a passed one; `none` after the last (R295). -/
def nextStep (k : Training) (step : Nat) : Option Nat :=
  match k with
  | .boot => if step < 10 then some (step + 1) else none
  | .retrain => if step < 9 then some (step + 1) else none
  | .scheduled => if step < 6 then some (step + 1) else none

/-- A training goes to a step; one by schedule then has an access to make on each pseudo-channel (R285, R295). -/
def toStep (s : State) (m : Nat) (k : Training) (n : Nat) : State :=
  let seek (x : PseudoChan) : PseudoChan := { x with trainSince := some s.now }
  updHmc s m (fun h => if k = .scheduled then { h with step := n, pc0 := seek h.pc0, pc1 := seek h.pc1 } else { h with step := n })
/-- TRAIN_STEP_DONE. `lanes` is the number of lanes that step 2 repaired. -/
def execTrainStepDone (hmc : BitVec 6) (ok : Bool) (lanes : BitVec 8) (s : State) : Host.Outcome State Fault Refusal :=
  let m := hmc.toNat
  let h := getHmc s m
  .next (
    match h.train with
    | none => s
    | some k =>
      if ok then
        let s1 := updHmc s m (fun h => { h with op := { h.op with progress := h.op.progress + 1 } })
        let s2 := if h.step = 2 ∧ lanes ≠ 0 then
            fault (updHmc s1 m (fun h => { h with repaired := lanes })) 0x0605 (chanSource m) none else s1
        match nextStep k h.step with
        | none => trainPass s2 m k
        | some n => if h.op.abortReq then trainAbort s2 m k else toStep s2 m k n
      else if 3 ≤ h.step ∧ h.step ≤ 6 ∧ k ≠ .scheduled ∧ 1 < h.tryRate then
        if h.op.abortReq then trainAbort s m k
        else updHmc s m (fun h => { h with step := 3, tryRate := h.tryRate - 1 })
      else trainFail s m (if h.step = 1 then 1 else if h.step = 2 then 2 else if h.step ≤ 7 then 3 else 4) k)

/-- CMD BOOT of HMC_TRAIN_CMD: RESULT, and the training started (R297). -/
def bootTrain (s : State) (a : Access) (m : Nat) : State :=
  let h := getHmc s m
  let res (s : State) (x : BitVec 2) : State := updHmc s m (fun h => { h with result := x })
  if !(isMld a) then res s 2
  else if h.state ≠ .untrained ∧ h.state ≠ .failed then res s 2
  else res (trainStart s m .boot 1) 0

/-- Does a reserved pseudo-channel of a channel have an ACTIVE owner? -/
def activeOwner (s : State) (m : Nat) : Bool :=
  [0, 1].any (fun p => match pcOwner s m p with | some c => cellState s c == .active | none => false)

/-- CMD RETRAIN (R297). -/
def retrain (s : State) (a : Access) (m : Nat) : State :=
  let h := getHmc s m
  let res (s : State) (x : BitVec 2) : State := updHmc s m (fun h => { h with result := x })
  if !(isHyp a) then res s 2
  else if activeOwner s m then res s 3
  else if h.state ≠ .ready ∧ h.state ≠ .failed then res s 2
  else if !(tokenFree (getSite s (hmcSite m))) then res s 1
  else
    let s1 := updSite s (hmcSite m) (fun x => { x with holder := .training, trainHmc := BitVec.ofNat 2 m })
    res (trainStart s1 m .retrain 3) 0

/-- BOOT_TRAINING and RETRAIN: writes of HMC_TRAIN_CMD. -/
def execBootTraining (a : Access) (hmc : BitVec 6) (_v : Word) (s : State) : Host.Outcome State Fault Refusal := .next (bootTrain s a hmc.toNat)
def execRetrain (a : Access) (hmc : BitVec 6) (_v : Word) (s : State) : Host.Outcome State Fault Refusal := .next (retrain s a hmc.toNat)

/-- Scheduled training with the token in hand (R297). -/
def schedTrain (s : State) (m : Nat) : State :=
  if (getHmc s m).state = .ready then
    trainStart (updSite s (hmcSite m) (fun x => { x with holder := .training, trainHmc := BitVec.ofNat 2 m })) m .scheduled 5
  else s

/-- SCHEDULED_TRAINING_START: due every 100 ms, after a change of 8 °C and after self-refresh; it takes the token or
queues for it. -/
def execScheduledTrainingStart (hmc : BitVec 6) (s : State) : Host.Outcome State Fault Refusal :=
  let m := hmc.toNat
  let h := getHmc s m
  let site := getSite s (hmcSite m)
  .next (
    if h.state ≠ .ready ∨ h.train.isSome ∨ site.trainQueue.contains (m % 4) ∨ !(h.due || 100000000 ≤ (s.now - h.lastTrain).toNat) then s
    else if tokenFree site then schedTrain s m
    else updSite s (hmcSite m) (fun x => { x with qTrain := true, trainQueue := x.trainQueue ++ [m % 4] }))

/-! ### Registers -/

/-- Reservation fields of HMC_PC_OWNER. -/
def ownerBits (s : State) (m : Nat) : Nat :=
  let f (p : Nat) : Nat := match pcOwner s m p with | some c => 4096 + c | none => 0
  at' (f 1) 32 + f 0

def refCode (r : RefState) : Nat := match r with | .normal => 0 | .catchUp => 1 | .selfRefresh => 2 | .stopped => 3
def chanCode (c : ChanState) : Nat := match c with | .untrained => 0 | .training => 1 | .ready => 2 | .selfRefresh => 3 | .failed => 4

/-- A register of an HMC as read. -/
def hbmRead (s : State) (r : Reg) (m pa : Nat) : Word :=
  let h := getHmc s m
  match r with
  | .hmcStatus => BitVec.ofNat 64 (at' h.temp.toNat 32 + at' h.trefi 26 + at' h.rate 20 + chanCode h.state)
  | .hmcTrainCmd => BitVec.ofNat 64 (at' h.result.toNat 8)
  | .hmcOpStatus => h.op.word
  | .hmcTrainInfo => BitVec.ofNat 64 (at' h.duration.toNat 32 + at' h.repaired.toNat 16 + at' h.cause 8 + at' h.step 4 + h.tryRate)
  | .hmcRefresh => (stored s .hmcRefresh pa &&& 0xF00000000) |||
      BitVec.ofNat 64 (at' (refCode (refOf (pcOwner s m 1) h.pc1)) 20 + at' h.pc1.debt 16 + at' (refCode (refOf (pcOwner s m 0) h.pc0)) 4 + h.pc0.debt)
  | .hmcScrub => putFld (stored s .hmcScrub pa) 25 0 h.position.toNat
  | .hmcErrStatus => (if h.errValid then h.errWord else 0) ||| BitVec.ofNat 64 (at' (b2n h.errValid) 63 + at' (b2n h.errOverflow) 62)
  | .hmcErrAddr => if h.errValid then h.errPa else 0
  | .hmcErrCount => BitVec.ofNat 64 (at' h.ue.toNat 32 + h.ce.toNat)
  | .hmcErrInject => putFld (stored s .hmcErrInject pa) 9 9 (b2n h.armed)
  | .hmcPcOwner => BitVec.ofNat 64 (ownerBits s m)
  | _ => stored s r pa

/-- What a read of a counter clears. -/
def hbmClear (s : State) (r : Reg) (m : Nat) (mask : Word) : State :=
  match r with
  | .hmcErrCount => updHmc s m (fun h => { h with ue := if mask.getLsbD 63 then 0 else h.ue, ce := if mask.getLsbD 0 then 0 else h.ce })
  | _ => s

/-- A write of a register of an HMC. -/
def hbmWrite (s : State) (a : Access) (r : Reg) (m pa : Nat) (v mask : Word) : State :=
  match r with
  | .hmcCtrl =>
    let s1 := writeCtrl s a r pa v mask
    -- ARM is an expert field too: its derived value is 0 (R7, R8)
    if expertOn s1 pa then s1 else updHmc s1 m (fun h => { h with armed := false })
  | .hmcTrainCmd =>
    let j := judgeReg s a r pa false 0 v mask
    let s1 := recordCodes s a pa j.codes
    match fld j.cmd 1 0 with | 1 => bootTrain s1 a m | 2 => retrain s1 a m | _ => s1
  | .hmcOpStatus =>
    updHmc s m (fun h =>
      let o := if bit (v &&& mask) 3 then { h.op with abortLate := false } else h.op
      { h with op := if bit (v &&& mask) 8 then o.request else o })
  | .hmcRate | .hmcTiming0 | .hmcTiming1 | .hmcRefresh | .hmcScrub => writePlain s a r pa pa false v mask
  | .hmcErrStatus => updHmc s m (fun h => { h with
      errValid := h.errValid && !bit (v &&& mask) 63, errOverflow := h.errOverflow && !bit (v &&& mask) 62 })
  | .hmcErrInject =>
    let j := judgeReg s a r pa false (stored s r pa) v mask
    let s1 := recordCodes (store s pa j.word) a pa j.codes
    if bit j.cmd 9 then updHmc s1 m (fun h => { h with armed := true }) else s1
  | _ => s

/-- HMC_ERR_INJECT: the register written with ARM set. -/
def execHmcErrInject (a : Access) (hmc : BitVec 6) (v : Word) (s : State) : Host.Outcome State Fault Refusal :=
  .next (hbmWrite s a .hmcErrInject hmc.toNat (hmcBase hmc.toNat + 0x68) (v ||| 0x200) (BitVec.allOnes 64))

end Sys2Proof.Machine
end

