-- ==== Sys2Proof/Machine/NetOps.lean ====
section
/-! DEFINITION. The named operations of NET (chapter 16): rings, streams and their states, gates and shapers, frames
and the fields the egress guard fills in. -/
namespace Sys2Proof.Machine

/-! ### Parts of the state -/

def getStream (s : State) (i : Nat) : Stream := look {} i s.net.streams
def updStream (s : State) (i : Nat) (f : Stream → Stream) : State :=
  { s with net := { s.net with streams := put i (f (getStream s i)) s.net.streams } }
def getPort (s : State) (p : Nat) : Port := look {} p s.net.ports
def updPort (s : State) (p : Nat) (f : Port → Port) : State :=
  { s with net := { s.net with ports := put p (f (getPort s p)) s.net.ports } }

/-- Kinds of ring: 0 receive, 1 egress, 2 CAN receive (NET_RING_SEL.KIND), 3 host receive, 4 host transmit. -/
def getRing (s : State) (kind i : Nat) : Ring :=
  match kind with
  | 0 => look {} i s.net.rx
  | 1 => look {} i s.net.tx
  | 2 => look {} i s.net.can
  | 3 => s.net.hostRx
  | _ => s.net.hostTx
def setRing (s : State) (kind i : Nat) (r : Ring) : State :=
  match kind with
  | 0 => { s with net := { s.net with rx := put i r s.net.rx } }
  | 1 => { s with net := { s.net with tx := put i r s.net.tx } }
  | 2 => { s with net := { s.net with can := put i r s.net.can } }
  | 3 => { s with net := { s.net with hostRx := r } }
  | _ => { s with net := { s.net with hostTx := r } }

/-- The EGRESS_STREAM of a stream, its owner, its ports, its class, and its SAFE_FRAME. -/
def streamRec (s : State) (i : Nat) : Option Rec := findRec s.comp.live tEGRESS (fun r => ru16 r 0 = i)
def streamCell (s : State) (i : Nat) : Nat := ((streamRec s i).map (fun r => ru16 r 2)).getD 0
def streamPorts (s : State) (i : Nat) : List Nat :=
  let m := ((streamRec s i).map (fun r => ru16 r 4)).getD 0
  (List.range 12).filter (fun p => m.testBit p)
def streamTc (s : State) (i : Nat) : Nat := ((streamRec s i).map (fun r => ru8 r 14)).getD 0
def freshNs (s : State) (i : Nat) : Nat := ((streamRec s i).map (fun r => ru32 r 8)).getD 0 * 1000
def safeRec (s : State) (i : Nat) : Option Rec :=
  match streamRec s i with
  | none => none
  | some r => if ru16 r 12 = 0xFFFF then none else findRec s.comp.live tSAFE (fun q => ru16 q 0 = ru16 r 12)
/-- The SAFE_FRAME's FRAME (R39). -/
def safeFrame (r : Rec) : List Byte := (r.data.drop 20).take (ru16 r 4)

/-- Owner of a ring (R351): a cell, or `none` for the hypervisor. -/
def ringOwner (s : State) (kind i : Nat) : Option Nat :=
  match kind with
  | 0 => (findRec s.comp.live tFILTER (fun r => ru16 r 2 = i + 1024)).map (fun r => ru16 r 4)
  | 1 => (streamRec s i).map (fun r => ru16 r 2)
  | 2 => ownerOf s.comp.live 5 i
  | _ => none

/-! ### Stream states (R363) -/

/-- The hold causes of a stream: bit 0 its cell is not ACTIVE, bit 1 safe state, bit 2 unverified boot. -/
def holdCauses (s : State) (i : Nat) : Nat :=
  match streamRec s i with
  | none => 0
  | some r =>
    b2n (cellState s (ru16 r 2) != .active) + 2 * b2n s.flt.safe + 4 * b2n (s.boot.unverified && (ru8 r 15).testBit 0)

/-- NET_SAFE_FRAME is recorded for a stream that has a safe frame (R363). -/
def noteSafe (s : State) (i : Nat) : State :=
  if (safeRec s i).isSome then fault s 0x0905 (src 0x60 1 0) (some (streamCell s i)) else s

/-- CONS of an egress ring advances past the slots that no port has still to send (R361). -/
def popSlots : List EgSlot → BitVec 16 → List EgSlot × BitVec 16
  | [], c => ([], c)
  | e :: es, c => if e.ports.isEmpty then popSlots es (c + 1) else (e :: es, c)
def freeSlots (s : State) (i : Nat) : State :=
  let r := popSlots (getStream s i).slots (getRing s 1 i).cons
  setRing (updStream s i (fun x => { x with slots := r.1 })) 1 i { getRing s 1 i with cons := r.2 }

/-- Is the frame on the wire or stopped on its way at a port? -/
def onWire (s : State) (p : Nat) (f : FrameSrc) : Bool :=
  ((getPort s p).wire.map (fun w => decide (w.1.src = f))).getD false || ((getPort s p).held.map (fun w => decide (w.1.src = f))).getD false

/-- Every committed frame of a stream whose transmission has not started is discarded; one already on a wire
completes there (R363). -/
def discardQueued (s : State) (i : Nat) : State :=
  let st := getStream s i
  let keep (e : EgSlot) : List Nat := e.ports.filter (fun p => onWire s p (.cell i e.index))
  let lost := (st.slots.filter (fun e => !(e.ports.all (fun p => onWire s p (.cell i e.index))))).length
  let s1 := updStream s i (fun x => { x with slots := x.slots.map (fun e => { e with ports := keep e }), discarded := satAdd x.discarded lost })
  let s2 := { s1 with net := { s1.net with ports := s1.net.ports.map (fun p =>
      (p.1, { p.2 with queue := p.2.queue.filter (fun f => match f.src with | .cell j _ => j ≠ i | _ => true) })) } }
  freeSlots s2 i

/-- A stream enters HOLD, or STALE (R363). -/
def enterHold (s : State) (i : Nat) : State :=
  discardQueued (noteSafe (updStream s i (fun x => { x with state := .hold, since := s.now, lastSafe := none })) i) i
def enterStale (s : State) (i : Nat) : State :=
  updStream s i (fun x => { x with state := .stale, since := s.now, lastSafe := none })

/-- One stream brought up to date with its hold causes (R363). -/
def refreshStream (s : State) (i : Nat) : State :=
  let st := getStream s i
  let c := holdCauses s i
  match st.state with
  | .off => s
  | .live | .stale => if c = 0 then s else enterHold s i
  | .hold => if c = 0 then enterStale s i else s
/-- Every stream brought up to date: called where a cell's state, safe state or UNVERIFIED changes. -/
def netRefresh (s : State) : State := (s.net.streams.map (·.1)).foldl refreshStream s

/-- SEAL or RELEASE creates the streams that the composition in force names and that are OFF: STALE, and in HOLD at once
where a hold cause stands (R363). -/
def createStreams (s : State) (reset : Bool) : State :=
  netRefresh ((recsOf s.comp.live tEGRESS).foldl (fun s r =>
    let i := ru16 r 0
    if (getStream s i).state = .off then
      enterStale (updStream s i (fun x => { x with nextCnt := if reset then 0 else x.nextCnt })) i
    else s) s)
/-- A COMMIT removes the streams that the composition no longer names (R363). -/
def removeStreams (s : State) : State :=
  (s.net.streams.map (·.1)).foldl (fun s i =>
    if (streamRec s i).isNone ∧ (getStream s i).state ≠ .off then
      updStream (discardQueued s i) i (fun x => { x with state := .off })
    else s) s

/-! ### Memory written by a device (R123, R360) -/

/-- Physical address of a slot of a ring (R353). -/
def slotAddr (r : Ring) (i : BitVec 16) : Nat := r.base + (i.toNat % 2 ^ r.logSlots) * 2 ^ r.logSlot

/-- The egress streams whose awaited slot header a write of `n` bytes at `pa` covers (R360). -/
def watched (s : State) (pa n : Nat) : List Nat :=
  (s.net.tx.filter (fun e => e.2.en && (pa ≤ slotAddr e.2 e.2.prod && slotAddr e.2 e.2.prod + 4 ≤ pa + n))).map (·.1)

/-- The reservations and site marks that a write of `n` bytes at `pa` takes away (R123): those whose line it touches. -/
def clearResv (s : State) (pa n : Nat) : State :=
  { s with
    cores := s.cores.map (fun e => (e.1, match e.2.resv with
      | some r => if pa < r.line * 64 + 64 ∧ r.line * 64 < pa + n then { e.2 with resv := none } else e.2
      | none => e.2))
    cache := { s.cache with sites := s.cache.sites.map (fun e =>
      (e.1, { e.2 with marks := e.2.marks.filter (fun m => !(pa < m.2 * 64 + 64 && m.2 * 64 < pa + n)) })) } }

/-- Do two ranges of bytes share a 4 KiB page? -/
def pagesMeet (a n b m : Nat) : Bool := n ≠ 0 && m ≠ 0 && a / 4096 ≤ (b + m - 1) / 4096 && b / 4096 ≤ (a + n - 1) / 4096
/-- Is a write of `n` bytes at `pa` answered DECODE because a region that is not FREE, or a load under way, locks its
pages (R396, R42)? -/
def pageLocked (s : State) (pa n : Nat) : Bool :=
  s.boot.regions.any (fun e => e.2.state ≠ .free && pagesMeet pa n e.2.base e.2.len) ||
  s.comp.locked.any (fun p => pagesMeet pa n (p * 4096) 1)

/-- A write of memory as every observer sees it: its bytes, the poison it clears, and the reservations it takes away. A
write to a locked page is never performed (R396). -/
def putMem (s : State) (pa : Nat) (bs : List Byte) : State :=
  if pageLocked s pa bs.length then s else clearResv (wrBytes s pa bs) pa bs.length
/-- A write performed at its slice, which reports a slot header that it watches (R360). -/
def performWrite (s : State) (pa : Nat) (bs : List Byte) : State :=
  if pageLocked s pa bs.length then s
  else
    let s1 := putMem s pa bs
    { s1 with net := { s1.net with reports := s1.net.reports ++ watched s pa bs.length } }

/-! ### Frames -/

/-- `n` bytes of a frame from `o`, and those bytes replaced. -/
def bytesAt (f : List Byte) (o n : Nat) : List Byte := (f.drop o).take n
def patch (f : List Byte) (o : Nat) (bs : List Byte) : List Byte := f.take o ++ bs ++ f.drop (o + bs.length)

/-- Is the type at an offset that of a VLAN tag (IEEE 802.1Q)? -/
def isTag (f : List Byte) : Bool := beNat (bytesAt f 12 2) == 0x8100 || beNat (bytesAt f 12 2) == 0x88A8
/-- First VLAN tag: its control information. -/
def vlanOf (f : List Byte) : Option Nat := if isTag f then some (beNat (bytesAt f 14 2)) else none
/-- Where the type after a first VLAN tag stands, and that type. -/
def typeAt (f : List Byte) : Nat := if isTag f then 16 else 12
def typeOf (f : List Byte) : Nat := beNat (bytesAt f (typeAt f) 2)
/-- The R-TAG's sequence number (IEEE 802.1CB: type 0xF1C1, two reserved bytes, the number). -/
def rtagOf (f : List Byte) : Option (BitVec 16) :=
  if typeOf f = 0xF1C1 then some (BitVec.ofNat 16 (beNat (bytesAt f (typeAt f + 4) 2))) else none

/-- The frame check sequence of IEEE 802.3, as its four bytes go out. -/
def fcs (f : List Byte) : List Byte := natLe 4 (revBits 32 (crcFeed 32 0x04C11DB7 true 0xFFFFFFFF f) ^^^ 0xFFFFFFFF)
/-- Padded to 60 bytes, with its FCS (R359). -/
def padFcs (f : List Byte) : List Byte :=
  let g := f ++ List.replicate (60 - f.length) 0
  g ++ fcs g

/-- The identifier of a CAN frame image: 29 bits where IDE is set, else 11 (R368). -/
def canId (f : List Byte) : Nat := let w := leNat (f.take 4); if w.testBit 29 then w % 2 ^ 29 else w % 2 ^ 11
/-- FORMAT of a CAN frame image: 0 classical, 1 FD, 2 XL. -/
def canFormat (f : List Byte) : Nat := leNat (f.take 4) / 2 ^ 30
/-- The identity of R362: of an Ethernet frame its destination and first VLAN tag, of a CAN frame its ID and FORMAT. -/
def identity (can : Bool) (f : List Byte) : List Byte × Option Nat :=
  if can then (natLe 4 (canId f), some (canFormat f))
  else (f.take 6, if isTag f then some (beNat (bytesAt f 12 4)) else none)

/-- A stream goes to CAN XL ports (R347). -/
def isCan (s : State) (i : Nat) : Bool := (streamPorts s i).any (fun p => 10 ≤ p)

/-- May a cell frame of a stream be sent (R362)? -/
def identityOk (s : State) (i : Nat) (f : List Byte) : Bool :=
  match safeRec s i with
  | some r => identity (isCan s i) f == identity (isCan s i) (safeFrame r)
  | none => (recsOf s.comp.live tEGRESS).all (fun q =>
      match safeRec s (ru16 q 0) with
      | some r => isCan s (ru16 q 0) != isCan s i || identity (isCan s i) (safeFrame r) != identity (isCan s i) f
      | none => true)

/-! ### End-to-end protection (R365) -/

/-- Bytes of the counter field of a profile, and whether they stand most significant first (AUTOSAR profiles 4 and 7). -/
def cntBytes (prof : Nat) : Nat := match prof with | 4 => 2 | 7 => 4 | _ => 1
/-- The counter a frame holds at CNT_OFFSET. -/
def readCnt (prof o : Nat) (f : List Byte) : Nat :=
  match prof with
  | 4 | 7 => beNat (bytesAt f o (cntBytes prof))
  | 11 => leNat (bytesAt f o 1) % 16
  | _ => leNat (bytesAt f o 1)
/-- The profile's next counter value. -/
def nextCnt (prof n : Nat) : Nat :=
  match prof with
  | 4 => (n + 1) % 2 ^ 16
  | 7 => (n + 1) % 2 ^ 32
  | 11 => if 14 ≤ n then 0 else n + 1
  | _ => (n + 1) % 256

/-- The check value of a profile over the protected bytes without the check field, and its bytes in the header. -/
def e2eCheck (prof id : Nat) (before after : List Byte) : List Byte :=
  match prof with
  | 4 => natBe 4 (revBits 32 (crcFeed 32 0xF4ACFB13 true 0xFFFFFFFF (before ++ after)) ^^^ 0xFFFFFFFF)
  | 5 => natLe 2 (crcFeed 16 0x1021 false 0xFFFF (before ++ after ++ natLe 2 id))
  | 7 => natBe 8 (revBits 64 (crcFeed 64 0x42F0E1EBA9EA3693 true 0xFFFFFFFFFFFFFFFF (before ++ after)) ^^^ 0xFFFFFFFFFFFFFFFF)
  | 11 => natLe 1 (crcFeed 8 0x1D false 0xFF (natLe 2 id ++ before ++ after) ^^^ 0xFF)
  | _ => []

/-- The safe frame with its counter, length, data ID, check value and FCS filled in (R365). -/
def fillSafe (can : Bool) (r : Rec) (cnt : Nat) : List Byte :=
  let f := safeFrame r
  let prof := ru8 r 2
  let ps := ru16 r 6
  let pl := ru16 r 8
  let co := ru16 r 10
  let ko := ru16 r 12
  let id := ru32 r 16
  let f1 :=
    match prof with
    | 4 => patch (patch (patch f co (natBe 2 cnt)) (co - 2) (natBe 2 pl)) (co + 2) (natBe 4 id)
    | 5 => patch f co (natLe 1 cnt)
    | 7 => patch (patch (patch f co (natBe 4 cnt)) (co - 4) (natBe 4 pl)) (co + 4) (natBe 4 id)
    | 11 => patch f co (natLe 1 (leNat (bytesAt f co 1) / 16 * 16 + cnt % 16))
    | _ => f
  let kn := (e2eCheck prof id [] []).length
  let f2 := if kn = 0 then f1 else patch f1 ko (e2eCheck prof id (bytesAt f1 ps (ko - ps)) (bytesAt f1 (ko + kn) (ps + pl - ko - kn)))
  if can then f2 else f2.take (f2.length - 4) ++ fcs (f2.take (f2.length - 4))

/-! ### Gates and shapers (R348 to R350) -/

/-- The gate list that a port runs. -/
def gateRec (s : State) (p : Nat) : Option Rec :=
  match (getPort s p).oldGate with
  | some r => some r
  | none => findRec s.comp.live tGATE (fun r => ru8 r 0 = p)
def gateCycle (r : Rec) : Nat := ru32 r 4
def gateBase (r : Rec) : Nat := ru64 r 8
/-- GATES and INTERVAL_NS of entry `i`. -/
def gateBits (r : Rec) (i : Nat) : Nat := ru8 r (16 + 8 * i)
def gateLen (r : Rec) (i : Nat) : Nat := ru32 r (20 + 8 * i)
/-- The entry that an offset into the cycle falls into, and how much of it is left. -/
def gateFind (r : Rec) : Nat → Nat → Nat → Nat × Nat
  | 0, i, _ => (i, 0)
  | n + 1, i, off => if off < gateLen r i then (i, gateLen r i - off) else gateFind r n (i + 1) (off - gateLen r i)
/-- Entry in force at an instant (R349); `none` before BASE_TIME. -/
def gateAt (r : Rec) (t : Nat) : Option (Nat × Nat) :=
  if t < gateBase r ∨ gateCycle r = 0 then none else some (gateFind r (ru16 r 2) 0 ((t - gateBase r) % gateCycle r))
/-- Time left until the gate of a class closes, from the given entries on; `none` if no listed entry closes it. -/
def gateClose (r : Rec) (tc : Nat) : Nat → Nat → Nat → Option Nat
  | 0, _, _ => none
  | n + 1, i, acc =>
    if (gateBits r (i % ru16 r 2)).testBit tc then gateClose r tc n (i + 1) (acc + gateLen r (i % ru16 r 2)) else some acc
/-- First offset in the cycle at which the gate of a class is open (R364). -/
def gateFirst (r : Rec) (tc : Nat) : Nat → Nat → Nat → Option Nat
  | 0, _, _ => none
  | n + 1, i, acc => if (gateBits r i).testBit tc then some acc else gateFirst r tc n (i + 1) (acc + gateLen r i)

/-- Rate of a port in Gb/s. -/
def portRate (p : Nat) : Nat := if p < 8 then 25 else 10
/-- Does a frame of `n` bytes, with preamble and inter-frame gap, fit in `ns` on a port? -/
def fits (p n ns : Nat) : Bool := (n + 20) * 8 ≤ ns * portRate p
/-- Nanoseconds that `n` bytes with preamble take on a port, rounded up. -/
def wireNs (p n : Nat) : Nat := ((n + 8) * 8 + portRate p - 1) / portRate p

/-- Is the gate of a class open under the entry in force? Before BASE_TIME, and without a list, every gate is. -/
def gateOpen (s : State) (p tc : Nat) : Bool :=
  match gateRec s p, (getPort s p).gate with
  | some r, some i => (gateBits r i).testBit tc
  | _, _ => true
/-- May a frame of a class and of `n` bytes start now under the gates: is its gate open, and does the frame with its gap
leave before the gate closes (R349)? -/
def gateAllows (s : State) (p tc n : Nat) : Bool :=
  gateOpen s p tc &&
  match gateRec s p with
  | none => true
  | some r =>
    match gateAt r s.now.toNat with
    | some (j, left) =>
      (gateBits r j).testBit tc && (match gateClose r tc (ru16 r 2) (j + 1) left with | some ns => fits p n ns | none => true)
    | none => gateCycle r = 0 ||
      (match gateClose r tc (ru16 r 2) 0 (gateBase r - s.now.toNat) with | some ns => fits p n ns | none => true)

/-- Idle slope of a class of a port, in kb/s (NET_PORT_CBS). -/
def idleSlope (s : State) (p tc : Nat) : Nat := fld (look 0 (bank 0xF8000700020 (p * 8 + tc)) s.regs) 63 32
/-- Credit of a class brought up to now: it grows with the idle slope, above zero only while a frame waits, and falls with
the send slope while a frame of the class is on the wire. -/
def creditNow (s : State) (p tc : Nat) : Int :=
  let x := getPort s p
  let e := look ((0, s.now) : Int × Word) tc x.credit
  let dt : Int := ((s.now - e.2).toNat : Int)
  if x.wire.any (fun w => w.1.tc = tc) then e.1 + ((idleSlope s p tc : Int) - (portRate p * 1000000 : Nat)) * dt
  else
    let c := e.1 + (idleSlope s p tc : Int) * dt
    if x.queue.any (fun f => f.tc = tc) || x.held.any (fun w => w.1.tc = tc) then c else (if c < 0 then c else 0)
def setCredit (s : State) (p tc : Nat) (c : Int) : State := updPort s p (fun x => { x with credit := put tc (c, s.now) x.credit })
/-- The credit of a class is set to what it is now, before what is on the wire or waits changes. -/
def settleCredit (s : State) (p tc : Nat) : State := if idleSlope s p tc = 0 then s else setCredit s p tc (creditNow s p tc)
/-- Does the shaper let a class start? -/
def shaperAllows (s : State) (p tc : Nat) : Bool := idleSlope s p tc = 0 || 0 ≤ creditNow s p tc

/-- The sum of the idle slopes of a port, with that of one class as given, is at most 75 % of the port's rate (R348). -/
def slopesFit (s : State) (p tc slope : Nat) : Bool :=
  (((List.range 8).filter (fun t => t ≠ tc)).map (idleSlope s p)).foldl (· + ·) slope ≤ portRate p * 750000

/-- Is a class express on a port (NET_PORT_CTRL.EXPRESS)? A safe frame always is. -/
def isExpress (s : State) (p : Nat) (f : TxFrame) : Bool :=
  (match f.src with | .safe _ => true | _ => false) ||
  (fld (look 0xC00000 (bank 0xF8000700018 p) s.regs) 23 16).testBit f.tc

/-- The order of two CAN frames in arbitration: base identifier first, then a base frame before an extended one. -/
def canKey (f : List Byte) : Nat :=
  let w := leNat (f.take 4)
  if w.testBit 29 then w % 2 ^ 29 / 2 ^ 18 * 2 ^ 19 + 2 ^ 18 + w % 2 ^ 18 else w % 2 ^ 11 * 2 ^ 19

/-- Does a CAN XL channel's data-phase rate carry a frame's format (NET_PORT_CTRL.CAN_DATA): classical frames always, FD
frames at 2 to 8 Mb/s, XL frames at every rate but none? A frame it does not carry waits (DESIGN CHOICE, assumption 73). -/
def canCarries (s : State) (p : Nat) (f : List Byte) : Bool :=
  let d := fld (look 0xC00000 (bank 0xF8000700018 p) s.regs) 43 40
  match canFormat f with
  | 0 => true
  | 1 => 1 ≤ d && d ≤ 3
  | _ => 1 ≤ d

/-- Does the NET domain take steps (R17, R453)? -/
def netUp (s : State) : Bool := match (look {} 36 s.pwr.doms).state with | .committed | .doze | .off | .waking => false | _ => true

/-- May a frame be sent now, its gates and shaper apart: a cell frame only while its stream is LIVE (R363). -/
def sendable (s : State) (f : TxFrame) : Bool :=
  match f.src with
  | .cell i _ => (getStream s i).state = .live
  | _ => true

end Sys2Proof.Machine
end

