-- ==== Sys2Proof/Machine/Coher.lean ====
section
/-! DEFINITION. Where lines are held, coherence, check errors, and what a request does at a home slice or a scratch slice
(R259 to R273). The bytes of memory are the coherent view (R244); a cache keeps which lines it holds. -/
namespace Sys2Proof.Machine

def slcBase : Nat := 0xF8000600000
def slcSource : BitVec 16 := src 0x10 0 0
/-- SOURCE of a site: slice 0, maintenance engine 1, scratch slice 2. -/
def siteSource (n unit : Nat) : BitVec 16 := src (0x10 + n) unit 0

/-! ### Classes (R262, R263) -/

def classRec (s : State) (k : Nat) : Option Rec := if s.comp.isSealed then findRec s.comp.live tCLASS (fun r => ru8 r 0 = k) else none
/-- The live WAY_MASK of a class, which a REMASK may have changed, and its SLICE_MASK. -/
def wayMask (s : State) (k : Nat) : BitVec 16 := look (BitVec.ofNat 16 (((classRec s k).map (fun r => ru16 r 2)).getD 0)) k s.cache.masks
def sliceMask (s : State) (k : Nat) : BitVec 16 := BitVec.ofNat 16 (((classRec s k).map (fun r => ru16 r 4)).getD 0)
/-- The class in which an access of a cell allocates an HBM line, if its home slice lies in the class's SLICE_MASK. -/
def allocClass (s : State) (cell : Option Nat) (pa : Nat) : Option Nat :=
  if s.comp.isSealed ∧ pa < hbmLimit then
    match cell.bind (classOf s.comp.live) with
    | some k => if (sliceMask s k).getLsbD (homeSite pa) then some k else none
    | none => none
  else none

/-! ### Injected check errors (R272) -/

/-- Injection armed for a target (0 SLC data, 1 scratch) of a site: whether of two bits. -/
def armedInject (s : State) (target site : Nat) : Option Bool :=
  let w := look 0 (slcBase + 0x50) s.regs
  if bit w 9 ∧ fld w 8 8 = target ∧ fld w 3 0 = site then some (fld w 5 4 = 1) else none
/-- The next write to an armed target has its check bits corrupted: of the data of a slice, or of scratch. -/
def applyInject (s : State) (pa : Nat) : State :=
  let t : Option (Nat × Nat) := match regionOf pa with | .scratch n => some (1, n) | .hbm => some (0, homeSite pa) | _ => none
  match t with
  | none => s
  | some (tg, n) =>
    match armedInject s tg n with
    | none => s
    | some dbl => { s with regs := put (slcBase + 0x50) (putFld (look 0 (slcBase + 0x50) s.regs) 9 9 0) s.regs, cache := { s.cache with bad := put (pa / 8) dbl s.cache.bad } }

/-! ### Copies (R265) -/

def getL2 (s : State) (n : Nat) : List L2Line := look [] n s.cache.l2
def setL2 (s : State) (n : Nat) (l : List L2Line) : State := { s with cache := { s.cache with l2 := put n l s.cache.l2 } }
def hasL2 (s : State) (n line : Nat) : Bool := (getL2 s n).any (fun l => l.line = line)
/-- A line of a cluster's L2 changed, where it is held. -/
def mapL2 (s : State) (n line : Nat) (f : L2Line → L2Line) : State :=
  if hasL2 s n line then setL2 s n ((getL2 s n).map (fun l => if l.line = line then f l else l)) else s
/-- Is a line held in its home slice? -/
def inSlc (s : State) (line : Nat) : Bool := (getSite s (homeSite (64 * line))).lines.any (fun l => l.line = line)
/-- A line of its home slice changed, where it is held. -/
def mapSlc (s : State) (line : Nat) (f : SlcLine → SlcLine) : State :=
  if inSlc s line then updSite s (homeSite (64 * line)) (fun x => { x with lines := x.lines.map (fun l => if l.line = line then f l else l) }) else s
/-- Dirty data of a line come down to its home slice: a write of the slice's data. -/
def dirtySlc (s : State) (line : Nat) : State := if inSlc s line then mapSlc (applyInject s (64 * line)) line (fun l => { l with dirty := true }) else s
/-- Dirty data of an L2 or L1 written back to the home slice, which reports a slot header that it watches (R360). -/
def writeDown (s : State) (line : Nat) : State :=
  let s1 := dirtySlc s line
  { s1 with net := { s1.net with reports := s1.net.reports ++ watched s1 (64 * line) 64 } }

/-- A core's L1 data cache loses a line: dirty data go to the L2, which records that the core holds the line no more; a
reservation held through it is lost (R123). -/
def dropL1 (s : State) (c line : Nat) : State :=
  match (getCore s c).l1d.find? (fun l => l.line = line) with
  | some old =>
    let s1 := updCore s c (fun k => { k with
      l1d := k.l1d.filter (fun l => l.line ≠ line)
      resv := match k.resv with | some r => if r.line = line ∧ !r.scratch then none else k.resv | none => none })
    if isS c then s1
    else mapL2 s1 (cluOf c) line (fun l => { l with cores := l.cores &&& ~~~(BitVec.ofNat 8 (1 <<< (c % 8))), dirty := l.dirty || old.dirty })
  | none => s
/-- A cluster's L2 and its cores' L1 data caches lose a line: dirty data go to the home slice, whose presence vector drops
the cluster. -/
def dropL2 (s : State) (n line : Nat) : State :=
  let s1 := (List.range 8).foldl (fun s j => dropL1 s (8 * n + j) line) s
  match (getL2 s1 n).find? (fun l => l.line = line) with
  | some old =>
    let s2 := setL2 s1 n ((getL2 s1 n).filter (fun l => l.line ≠ line))
    mapSlc (if old.dirty then writeDown s2 line else s2) line (fun l => { l with presence := l.presence &&& ~~~(BitVec.ofNat 16 (1 <<< n)) })
  | none => s1
/-- Every L1 data and L2 copy of a line but those of one core and its cluster is invalidated; what was dirty in them goes
down first. -/
def dropOthers (s : State) (keep : Option Nat) (line : Nat) : State :=
  let s1 := (listedCores s).foldl (fun s c => if some c = keep then s else dropL1 s c line) s
  (s1.cache.l2.map (·.1)).foldl (fun s n => if keep.map cluOf = some n then s else dropL2 s n line) s1

/-- The copies of a line in L1 and L2 cease to be dirty or writable: their data are in the home slice (R265: a read of a
dirty line receives the owner's data). -/
def cleanCopies (s : State) (line : Nat) : State :=
  let was : Bool := s.cores.any (fun e => e.2.l1d.any (fun l => l.line = line && l.dirty)) || s.cache.l2.any (fun e => e.2.any (fun l => l.line = line && l.dirty))
  let s1 := (listedCores s).foldl (fun s c =>
    if (getCore s c).l1d.any (fun l => l.line = line) then
      updCore s c (fun k => { k with l1d := k.l1d.map (fun l => if l.line = line then { l with dirty := false, excl := false } else l) })
    else s) s
  let s2 := { s1 with cache := { s1.cache with l2 := s1.cache.l2.map (fun e => (e.1, e.2.map (fun l => if l.line = line then { l with dirty := false } else l))) } }
  if was then writeDown s2 line else s2

/-- Is a line dirty in its slice or above it? -/
def dirtyLine (s : State) (line : Nat) : Bool :=
  (getSite s (homeSite (64 * line))).lines.any (fun l => l.line = line && l.dirty) ||
  s.cores.any (fun e => e.2.l1d.any (fun l => l.line = line && l.dirty)) || s.cache.l2.any (fun e => e.2.any (fun l => l.line = line && l.dirty))

/-! ### Check errors (R272) -/

/-- A cache fault of a site's slice: its line's address, and the cell it is reported for. -/
def cacheFault (s : State) (code cls : Nat) (source : BitVec 16) (cell : Option CellId) (init : Option (InitId × BitVec 4)) (pa : Nat) : State :=
  raise s { code := code, cls := BitVec.ofNat 2 cls, source := source, cell := cell, addr := some (BitVec.ofNat 64 pa, false), init := init }
/-- The cell that owns a line of a slice. -/
def lineOwner (s : State) (line : Nat) : Option CellId :=
  ((getSite s (homeSite (64 * line))).lines.find? (fun l => l.line = line)).bind (fun l => l.owner.map (BitVec.ofNat 12))
/-- Would the write-back of a line to HBM be answered other than OK (R296)? -/
def wbFails (s : State) (line : Nat) : Bool := (getHmc s (hmcOf (64 * line))).state = .failed
/-- The write-back of a line of a slice, and whether it left the line clean: bad units of dirty data become poison and are
written back as such; a write-back answered other than OK keeps the line dirty (R272). -/
def writeBack (s : State) (n line : Nat) (fails : Bool) : State × Bool :=
  if (getSite s n).lines.any (fun l => l.line = line && l.dirty) then
    let bad := ((List.range 8).map (fun i => 8 * line + i)).filter (fun u => s.cache.bad.any (fun e => e.1 = u && e.2))
    let owner := lineOwner s line
    let s1 := bad.foldl (fun s u =>
      cacheFault (setPoison (updSite { s with cache := { s.cache with bad := drop' u s.cache.bad } } n (fun x => { x with ue := satAdd x.ue 1 })) (8 * u)) 0x0504 2 (siteSource n 0) owner none (8 * u)) s
    if fails || wbFails s line then (cacheFault s1 0x0507 2 (siteSource n 0) owner none (64 * line), false)
    else (mapSlc s1 line (fun l => { l with dirty := false }), true)
  else (s, true)
/-- A clean line leaves its slice, with the check errors of its copy. -/
def removeSlc (s : State) (n line : Nat) : State :=
  updSite { s with cache := { s.cache with bad := s.cache.bad.filter (fun e => e.1 / 8 ≠ line) } } n (fun x => { x with lines := x.lines.filter (fun l => l.line ≠ line) })
/-- A line leaves its slice: every L2 and L1 copy goes first, and dirty data are written back (R265). -/
def evictSlc (s : State) (n line : Nat) : State :=
  let r := writeBack (dropOthers s none line) n line false
  if r.2 then removeSlc r.1 n line else r.1

/-- The units of a range that hold an uncorrectable tag error's lost data: the lines of a set are invalidated, and what was
dirty in them is lost, so that their bytes are open (R272). -/
def loseLines (s : State) (n : Nat) (ls : List Nat) : State :=
  ls.foldl (fun s l =>
    let s1 : State := if dirtyLine s l then (List.range 8).foldl (fun s i => let d := drawFree s; wrBytes d.2 (64 * l + 8 * i) (natLe 8 (Config.freeWord d.1).toNat)) s else s
    let s2 := dropOthers (mapSlc s1 l (fun x => { x with dirty := false })) none l
    updSite s2 n (fun x => { x with lines := x.lines.filter (fun y => y.line ≠ l) })) s
/-- A lookup in a set of a slice, or of an L2, whose tags hold an uncorrectable error: SLC_TAG_UE (class D). -/
def checkTags (s : State) (line : Nat) : State :=
  let n := homeSite (64 * line)
  let key := n * 8192 + line % 8192
  if s.cache.badTags.contains key then
    let s1 := { s with cache := { s.cache with badTags := s.cache.badTags.filter (fun k => k ≠ key) } }
    cacheFault (loseLines s1 n (((getSite s n).lines.filter (fun l => l.line % 8192 = line % 8192)).map (·.line))) 0x0505 3 (siteSource n 0) none none (64 * line)
  else s
def checkL2Tags (s : State) (n line : Nat) : State :=
  let key := n * 4096 + line % 4096
  if s.cache.badL2Tags.contains key then
    let s1 := { s with cache := { s.cache with badL2Tags := s.cache.badL2Tags.filter (fun k => k ≠ key) } }
    let ls := ((getL2 s n).filter (fun l => l.line % 4096 = line % 4096)).map (·.line)
    cacheFault (ls.foldl (fun s l =>
      let lost : Bool := (getL2 s n).any (fun x => x.line = l && x.dirty) || (List.range 8).any (fun j => (getCore s (8 * n + j)).l1d.any (fun x => x.line = l && x.dirty))
      let s1 : State := if lost then (List.range 8).foldl (fun s i => let d := drawFree s; wrBytes d.2 (64 * l + 8 * i) (natLe 8 (Config.freeWord d.1).toNat)) s else s
      dropL2 s1 n l) s1) 0x0505 3 (src n 0 3) none none (64 * line)
  else s

/-- A check error found in a unit of an HBM line held by its slice, or of scratch, as an access reads it. A record names the
cell of the access (R13), or for dirty data the line's owner. -/
def checkUnit (s : State) (cell : Option CellId) (init : Option (InitId × BitVec 4)) (u : Nat) : State :=
  match s.cache.bad.find? (fun e => e.1 = u) with
  | none => s
  | some (_, dbl) =>
    let pa := 8 * u
    let s1 := { s with cache := { s.cache with bad := drop' u s.cache.bad } }
    match regionOf pa with
    | .scratch n =>
      if dbl then cacheFault (setPoison (updSite s1 n (fun x => { x with ue := satAdd x.ue 1 })) pa) 0x0506 0 (siteSource n 2) cell init pa
      else cacheFault (updSite s1 n (fun x => { x with ce := satAdd x.ce 1 })) 0x0502 0 (siteSource n 2) cell init pa
    | _ =>
      let n := homeSite pa
      if !dbl then cacheFault (updSite s1 n (fun x => { x with ce := satAdd x.ce 1 })) 0x0501 0 (siteSource n 0) cell init pa
      else
        let s2 := updSite s1 n (fun x => { x with ue := satAdd x.ue 1 })
        let owner := lineOwner s (pa / 64)
        if dirtyLine s (pa / 64) then cacheFault (setPoison s2 pa) 0x0504 2 (siteSource n 0) owner init pa
        else cacheFault (evictSlc s2 n (pa / 64)) 0x0503 1 (siteSource n 0) owner init pa
/-- Every unit of a range checked. -/
def checkRange (s : State) (cell : Option CellId) (init : Option (InitId × BitVec 4)) (a n : Nat) : State :=
  if s.cache.bad.isEmpty then s
  else ((List.range (n / 8 + 2)).map (fun i => a / 8 + i)).foldl (fun s u => if 8 * u < a + n then checkUnit s cell init u else s) s

/-! ### Lookup and allocation (R262, R263) -/

/-- A way of a set becomes the most recently used of a class's order (R263). -/
def useWay (o : Tbl (List Nat)) (key way : Nat) : Tbl (List Nat) := put key (way :: (look [] key o).filter (· ≠ way)) o
/-- Where a class's line goes in a set: a way of its mask that holds no line, or one that the class has not used, or the
one least recently used in the class's order. -/
def victimWay (mask : BitVec 16) (used order : List Nat) : Option Nat :=
  let ways := (List.range 16).filter (fun w => mask.getLsbD w)
  (ways.find? (fun w => !(used.contains w))).orElse (fun _ =>
    (ways.find? (fun w => !(order.contains w))).orElse (fun _ => order.reverse.find? (fun w => ways.contains w)))
def slcOrderKey (line cls : Nat) : Nat := line % 8192 * 32 + cls
def l2OrderKey (n line cls : Nat) : Nat := (n * 4096 + line % 4096) * 32 + cls

/-- A line looked up in its home slice; on a miss allocated in it for a class and its owner. A hit changes the order of the
class that holds the line alone. A victim whose write-back fails keeps its way. -/
def slcTouch (s0 : State) (line : Nat) (cls owner : Option Nat) : State :=
  let s := checkTags s0 line
  let n := homeSite (64 * line)
  let x := getSite s n
  match x.lines.find? (fun l => l.line = line) with
  | some l => updSite s n (fun x => { x with order := useWay x.order (slcOrderKey line l.cls) l.way })
  | none =>
    match cls with
    | none => s
    | some k =>
      let set := x.lines.filter (fun l => l.line % 8192 = line % 8192)
      match victimWay (wayMask s k) (set.map (·.way)) (look [] (slcOrderKey line k) x.order) with
      | none => s
      | some w =>
        let s1 := match set.find? (fun l => l.way = w) with | some v => evictSlc s n v.line | none => s
        if (getSite s1 n).lines.any (fun l => l.line % 8192 = line % 8192 && l.way = w) then s1
        else updSite s1 n (fun x => { x with lines := { line := line, cls := k, owner := owner, way := w } :: x.lines, order := useWay x.order (slcOrderKey line k) w })

/-- A line looked up in the L2 of a core's cluster, allocated there on a miss; `holds` where the core's L1 data cache is to
hold it. -/
def l2Touch (s0 : State) (c line cls : Nat) (holds : Bool) : State :=
  let n := cluOf c
  let s := checkL2Tags s0 n line
  let ls := getL2 s n
  let add (l : L2Line) : L2Line := if holds then { l with cores := l.cores ||| BitVec.ofNat 8 (1 <<< (c % 8)) } else l
  let use (s : State) (k w : Nat) : State := { s with cache := { s.cache with l2order := useWay s.cache.l2order (l2OrderKey n line k) w } }
  match ls.find? (fun l => l.line = line) with
  | some l => use (mapL2 s n line add) l.cls l.way
  | none =>
    let set := ls.filter (fun l => l.line % 4096 = line % 4096)
    match victimWay (wayMask s cls) (set.map (·.way)) (look [] (l2OrderKey n line cls) s.cache.l2order) with
    | none => s
    | some w =>
      let s1 := match set.find? (fun l => l.way = w) with | some v => dropL2 s n v.line | none => s
      mapSlc (use (setL2 s1 n (add { line := line, cls := cls, way := w } :: getL2 s1 n)) cls w) line (fun l => { l with presence := l.presence ||| BitVec.ofNat 16 (1 <<< n) })

/-- Sets of a core's L1 caches (R259). -/
def l1Sets (c : Nat) : Nat := if isS c then 64 else 256

/-- A line brought into a core's L1 data cache: four ways of a set, the least recently used one giving way. -/
def l1Install (s : State) (c line : Nat) (excl : Bool) : State :=
  let k := getCore s c
  let old := (k.l1d.find? (fun l => l.line = line)).getD { line := line }
  let rest := k.l1d.filter (fun l => l.line ≠ line)
  let set := rest.filter (fun l => l.line % l1Sets c = line % l1Sets c)
  let s1 := if k.l1d.any (fun l => l.line = line) ∨ set.length < 4 then s else match set.getLast? with | some v => dropL1 s c v.line | none => s
  updCore s1 c (fun k => { k with l1d := { old with excl := old.excl || excl } :: k.l1d.filter (fun l => l.line ≠ line) })

/-- Which lines a core's L1 data cache may hold (R259, R261): HBM lines, and for an S-core its pair's own SRAM. -/
def cacheable (c pa : Nat) : Bool :=
  if isS c then (match regionOf pa with | .sram p => p == c - 128 | _ => false) else decide (pa < hbmLimit)

/-- The memory type as the access is performed: a write-back type outside what the cache may hold is NORMAL_NC (R261). -/
def effType (c pa mt : Nat) : Nat := if (mt = 2 ∨ mt = 3) ∧ !cacheable c pa then 1 else mt

/-- May an access of a core for a cell allocate its line in L1 (R262)? -/
def allocL1 (s : State) (c : Nat) (cell : Option CellId) (pa mt : Nat) (noAlloc : Bool) : Bool :=
  if isS c then cacheable c pa else mt == 2 && !noAlloc && (allocClass s (cell.map (·.toNat)) pa).isSome

/-- A line that a cluster's L2 shares among its cores: a writable copy of one of them is recalled, and its dirty data come
into the L2. -/
def shareL2 (s : State) (n line : Nat) : State :=
  (List.range 8).foldl (fun s j =>
    let c := 8 * n + j
    match (getCore s c).l1d.find? (fun l => l.line = line && (l.excl || l.dirty)) with
    | none => s
    | some old =>
      mapL2 (updCore s c (fun k => { k with l1d := k.l1d.map (fun l => if l.line = line then { l with dirty := false, excl := false } else l) })) n line (fun l => { l with dirty := l.dirty || old.dirty })) s

/-- An ordinary coherent fill of a core's L1 line (R265): from the cluster's L2 where it holds the line and no ownership is
asked for; else every other writable copy is recalled, or every other copy invalidated for a writable one, and the line
enters the slice, the L2 and the L1. -/
def fillLine (s : State) (c : Nat) (cell : Option CellId) (line : Nat) (excl : Bool) : State :=
  if isS c then l1Install s c line true
  else if !excl && hasL2 s (cluOf c) line then
    (let s1 := l2Touch (if (getCore s c).l1d.any (fun l => l.line = line) then s else shareL2 s (cluOf c) line) c line 0 true
     if hasL2 s1 (cluOf c) line then l1Install s1 c line false else s1)
  else
    let s1 := if excl then dropOthers s (some c) line else
      (if (getCore s c).l1d.any (fun l => l.line = line && l.excl) then s else cleanCopies s line)
    match allocClass s1 (cell.map (·.toNat)) (64 * line) with
    | none => slcTouch s1 line none none
    | some k =>
      let s2 := l2Touch (slcTouch s1 line (some k) (cell.map (·.toNat))) c line k true
      -- inclusion: where the slice or the L2 could not take the line, the L1 does not hold it (R262)
      if inSlc s2 line && hasL2 s2 (cluOf c) line then l1Install s2 c line excl else s2

/-! ### Accesses at a memory target (R122, R123, R261, R270) -/

/-- The core number of an initiator, if it is a core. -/
def coreOfInit (i : InitId) : Option Nat :=
  if i.toNat < 128 then some i.toNat else if initEp i = 0x63 ∧ initUnit i ≤ 1 then some (128 + initUnit i) else none

/-- A write at a target by an initiator: its own reservation and mark on the line stay (R123). -/
def performInit (s : State) (i : InitId) (pa : Nat) (bs : List Byte) : State :=
  match coreOfInit i with
  | none => performWrite s pa bs
  | some c =>
    let own := (getCore s c).resv
    let s1 := updCore (performWrite s pa bs) c (fun k => { k with resv := own })
    let keep := fun (n : Nat) => (getSite s n).marks.filter (fun m => m.1 = c)
    { s1 with cache := { s1.cache with sites := s1.cache.sites.map (fun e => (e.1, { e.2 with marks := e.2.marks ++ (keep e.1).filter (fun m => !(e.2.marks.contains m)) })) } }

/-- The site whose slice keeps the reservation marks of an address. -/
def markSite (pa : Nat) : Nat := match regionOf pa with | .scratch n => n | _ => if pa < hbmLimit then homeSite pa else 0

/-- A value of `n` bytes at an address, with the result and the bytes an atomic writes. -/
def atomicNew (k : ReqKind) (n : Nat) (old : List Byte) (data : List Byte) (cmp : Word) : List Byte :=
  match k with
  | .fadd => natLe n (leNat old + leNat data)
  | .cas => if leNat old = cmp.toNat % 2 ^ (8 * n) then data.take n else old
  | _ => data.take n

/-- A request performed at memory: the new state, the status and the bytes of its answer. -/
def memAccess (s : State) (r : Req) : State × (BitVec 3 × List Byte) :=
  let pa := r.addr.toNat
  let n := r.size
  let st (s : State) : BitVec 3 := if poisonedAt s pa n then stPOISON else stOK
  let inject (s : State) : State := match regionOf pa with | .scratch _ => applyInject s pa | _ => s
  match r.kind with
  | .read | .fetch =>
    let s1 := checkRange s r.cell (some (r.init, r.stream)) pa n
    (s1, (st s1, rdBytes s1 pa n))
  | .write => if pageLocked s pa r.data.length then (s, (stDECODE, [])) else (inject (performInit s r.init pa r.data), (stOK, []))
  | .swap | .fadd | .cas =>
    let s1 := checkRange s r.cell (some (r.init, r.stream)) pa n
    let old := rdBytes s1 pa n
    let new := atomicNew r.kind n old r.data r.cmp
    let p := st s1
    if pageLocked s pa n then (s, (stDECODE, []))
    else (if r.kind = .cas ∧ leNat old ≠ r.cmp.toNat % 2 ^ (8 * n) then s1 else inject (performInit s1 r.init pa new), (p, old))
  | .lr =>
    let s1 := checkRange s r.cell (some (r.init, r.stream)) pa n
    match coreOfInit r.init with
    | none => (s1, (st s1, rdBytes s1 pa n))
    | some c =>
      let s2 := { s1 with cache := { s1.cache with sites := s1.cache.sites.map (fun e => (e.1, { e.2 with marks := e.2.marks.filter (fun m => m.1 ≠ c) })) } }
      (updSite s2 (markSite pa) (fun x => { x with marks := x.marks ++ [(c, pa / 64)] }), (st s1, rdBytes s1 pa n))
  | .sc =>
    match coreOfInit r.init with
    | none => (s, (stOK, natLe 8 1))
    | some c =>
      if pageLocked s pa n then (s, (stDECODE, []))
      else if (getSite s (markSite pa)).marks.contains (c, pa / 64) then
        let s1 := inject (performInit s r.init pa (r.data.take n))
        (updSite s1 (markSite pa) (fun x => { x with marks := x.marks.filter (fun m => m.1 ≠ c) }), (stOK, natLe 8 0))
      else (s, (stOK, natLe 8 1))

/-- Does an access allocate in the SLC (R262)? -/
def allocSlc (r : Req) (mt : Nat) : Bool :=
  let ep := initEp r.init
  if ep ≤ 15 then (mt == 2 || mt == 3) && r.stream != 13 && r.stream != 14 && r.stream != 15 else mt != 1 && 0x60 ≤ ep && ep ≤ 0x62

/-- Does the request write? -/
def reqWrites (k : ReqKind) : Bool := match k with | .read | .fetch | .lr => false | _ => true
/-- Did it write, by its answer? -/
def reqWrote (r : Req) (a : BitVec 3 × List Byte) : Bool :=
  match r.kind with
  | .read | .fetch | .lr => false
  | .write => a.1 == stOK
  | .sc => a.1 == stOK && leNat a.2 == 0
  | .cas => a.1 != stDECODE && leNat a.2 == r.cmp.toNat % 2 ^ (8 * r.size)
  | _ => a.1 != stDECODE

/-- The status with which a write of `n` bytes is turned away: its endpoint is fenced, or a page of it is locked. -/
def refusedAt (s : State) (pa n : Nat) : Option (BitVec 3) :=
  if (endpointOf pa).any (fun e => s.fab.fences.contains e) then some stFENCED else if pageLocked s pa n then some stDECODE else none

/-- Must an access of a line reach HBM on a FAILED channel, which answers POISON (R296)? A line of the slice is served
there. -/
def deadLine (s : State) (line : Nat) : Bool := line * 64 < hbmLimit && (getHmc s (hmcOf (64 * line))).state = .failed && !(inSlc s line)

/-- An access at the home slice of its line: coherence first, then the access, then the allocation. A write leaves no
stale copy in any L1 data cache or L2; the slice's own line becomes dirty. -/
def slcPerform (s : State) (r : Req) (mt : Nat) : State × (BitVec 3 × List Byte) :=
  let pa := r.addr.toNat
  let line := pa / 64
  let s0 := checkTags s line
  if deadLine s0 line then
    -- a read is recorded by the controller; the write that fails is recorded with the stream that it blocks (R293, R330)
    (if isWrite r then s0 else failReq s0 (hmcOf pa) (pcOf pa) r, (stPOISON, List.replicate (if r.kind = .write then 0 else r.size) 0))
  else
    let s1 := if reqWrites r.kind then dropOthers s0 none line else s0
    let a := memAccess s1 r
    let cls := if allocSlc r mt then allocClass a.1 (r.cell.map (·.toNat)) pa else none
    let s2 := if r.stream = 13 ∧ initEp r.init ≤ 15 ∧ !reqWrites r.kind then a.1 else slcTouch a.1 line cls (r.cell.map (·.toNat))
    (if reqWrote r a.2 then dirtySlc s2 line else s2, a.2)
/-- A request performed at the memory that its address names: at its home slice, or at a scratch slice. -/
def memPerform (s : State) (r : Req) (mt : Nat) : State × (BitVec 3 × List Byte) :=
  if r.addr.toNat < hbmLimit then slcPerform s r mt else memAccess s r
/-- The same, answered FENCED while its site sleeps (R273). -/
def slcAccess (s : State) (r : Req) (mt : Nat) : State × (BitVec 3 × List Byte) :=
  if s.fab.fences.contains (0x10 + homeSite r.addr.toNat) then (s, (stFENCED, [])) else slcPerform s r mt

/-- SLC_REQUEST: an access reaches its home slice. -/
def execSlcRequest (r : Req) (mt : Nat) (s : State) : Host.Outcome State Fault Refusal :=
  .next (if r.addr.toNat < hbmLimit then (slcAccess s r mt).1 else s)

/-- An access at a scratch slice: fenced while its site sleeps (R273). -/
def scratchAccess (s : State) (r : Req) : State × (BitVec 3 × List Byte) :=
  match regionOf r.addr.toNat with
  | .scratch n => if s.fab.fences.contains (0x10 + n) then (s, (stFENCED, [])) else memAccess s r
  | _ => (s, (stDECODE, []))
/-- SCRATCH_ACCESS: an access reaches a scratch slice. -/
def execScratchAccess (r : Req) (s : State) : Host.Outcome State Fault Refusal := .next (scratchAccess s r).1

/-- COHERENCE_REQUEST: the home slice invalidates a cluster's copy of a line, or recalls it and leaves it clean; dirty data
come down to the slice. -/
def execCoherenceRequest (line : BitVec 38) (cl : CluId) (keepClean : Bool) (s : State) : Host.Outcome State Fault Refusal :=
  .next (if keepClean then cleanCopies s line.toNat else dropL2 s cl.val line.toNat)


end Sys2Proof.Machine
end

