-- ==== Sys2Proof/Machine/Io.lean ====
section
/-! DEFINITION. Failed accesses and blocked ordering streams (R75, R330, R331), and the transfers of a device that is no
core: its writes and reads of memory, coherent at the home slice of each line (R64, R266). -/
namespace Sys2Proof.Machine

def updFlt (s : State) (f : Flt → Flt) : State := { s with flt := f s.flt }

/-! ### The block table (R330, R331) -/

def getBlock (s : State) (e : Nat) : BlockEntry := look {} e s.flt.blocks
def setBlock (s : State) (e : Nat) (b : BlockEntry) : State := updFlt s (fun f => { f with blocks := put e b f.blocks })
/-- The valid entry of a stream. -/
def blockOf (s : State) (i : InitId) (st : BitVec 4) (c : Option CellId) : Option (Nat × BlockEntry) :=
  s.flt.blocks.find? (fun e => e.2.valid && e.2.init == i && e.2.stream == st && e.2.cell == c)
/-- The lowest entry that is free. -/
def freeBlock (s : State) : Option Nat := (List.range 512).find? (fun e => !(getBlock s e).valid)

/-- A write of an ordering stream has failed (R330, R331): the stream is blocked, or its entry extended; the failure is
recorded. Answers whether the stream is blocked. Where no entry is free SYNDROME, the status, is the model's (DESIGN
CHOICE, assumption 58). -/
def failWrite (s : State) (i : InitId) (st : BitVec 4) (c : Option CellId) (status : BitVec 3) (pa va : Nat) (code : Nat) (source : BitVec 16) : State × Bool :=
  let m : FaultMsg := { code := code, cls := BitVec.ofNat 2 (defaultClass code), source := source, cell := c, addr := some (BitVec.ofNat 64 pa, false), init := some (i, st) }
  let synd (e g new : Nat) : Word := BitVec.ofNat 64 (at' new 32 + at' g 25 + at' e 16 + status.toNat)
  match blockOf s i st c with
  | some (e, b) => (raise s { m with syndrome := synd e b.gen.toNat 0, blocked := true }, true)
  | none =>
    match freeBlock s with
    | some e =>
      let g := (getBlock s e).gen + 1
      let s1 := setBlock s e { valid := true, gen := g, init := i, stream := st, cell := c, status := status, pa := BitVec.ofNat 64 pa, va := BitVec.ofNat 64 va }
      (raiseEvent (raise s1 { m with syndrome := synd e g.toNat 1, blocked := true }) 5, true)
    | none => (fault (raise s { m with syndrome := BitVec.ofNat 64 status.toNat }) 0x0C06 source (c.map (·.toNat)), false)

/-- Is a stream of a cell blocked (CELL_STATE.BLOCKED)? -/
def cellBlocked (s : State) (c : Nat) : Bool := s.flt.blocks.any (fun e => e.2.valid && e.2.cell == some (BitVec.ofNat 12 c))

/-! ### An access answered with a failure (R75) -/

/-- Fault code of a status that a source port records; of a write answered POISON, HBM_WRITE_FAIL (R292, R293). -/
def statusCode (st : BitVec 3) : Nat :=
  if st = stPOISON then 0x0604 else if st = stFENCED then 0x0201 else if st = stTIMEOUT then 0x0202 else if st = stNOPATH then 0x0203 else 0x0204

/-- A read answered with a failure: recorded; its data are poison. SYNDROME, the status, is the model's (DESIGN CHOICE,
assumption 58). -/
def readFailed (s : State) (i : InitId) (cell : Option CellId) (stream : BitVec 4) (st : BitVec 3) (pa : Nat) : State :=
  raise s { code := statusCode st, cls := 0, source := BitVec.ofNat 16 i.toNat, cell := cell, addr := some (BitVec.ofNat 64 pa, false), syndrome := st.setWidth 64, init := some (i, stream) }

/-! ### Transfers of a device (R64, R266, R329, R330) -/

/-- A range of bytes at an address cut where 64-byte lines begin. -/
def splitLines (pa : Nat) (bs : List Byte) : List (Nat × List Byte) :=
  let first := 64 - pa % 64
  if bs.isEmpty then []
  else if bs.length ≤ first then [(pa, bs)]
  else (pa, bs.take first) :: (List.range ((bs.length - first + 63) / 64)).map (fun i => (pa + first + 64 * i, (bs.drop (first + 64 * i)).take 64))

/-- A device's request. -/
def devReq (i : InitId) (st : BitVec 4) (cell : Option CellId) (k : ReqKind) (pa n : Nat) (bs : List Byte) : Req :=
  { init := i, level := 0, cell := cell, stream := st, tag := 0, peek := false, kind := k, addr := BitVec.ofNat 44 pa, size := n, data := bs, cmp := 0 }

/-- What became of a device's writes: all performed; or some that wait, `rest`, because the fabric cannot carry them yet;
or one that failed, with the writes after it. -/
inductive IoRes where
  | done
  | wait (rest : List (Nat × List Byte))
  | failed (rest : List (Nat × List Byte))
  deriving DecidableEq, Repr

/-- Writes of a device in order, each at its home slice or scratch slice. A write answered other than OK blocks the stream
and is recorded; no later one is issued. -/
def ioWrite (i : InitId) (st : BitVec 4) (cell : Option CellId) : List (Nat × List Byte) → State → State × IoRes
  | [], s => (s, .done)
  | (pa, bs) :: rest, s =>
    let failAt (s : State) (x : BitVec 3) : State × IoRes :=
      ((failWrite s i st cell x pa 0 (statusCode x) (BitVec.ofNat 16 i.toNat)).1, .failed rest)
    let r := carryWritePa s i st cell pa bs.length
    match r.2 with
    | none => (r.1, .wait ((pa, bs) :: rest))
    | some x =>
      if x ≠ stOK then failAt r.1 x
      else
        let p := memPerform r.1 (devReq i st cell .write pa bs.length bs) 3
        if p.2.1 ≠ stOK then failAt p.1 p.2.1 else ioWrite i st cell rest p.1

/-- A read of a device, line by line: `none` where it must wait; the status of the line that failed, or OK with the bytes.
A failure but POISON is recorded. -/
def ioRead (i : InitId) (st : BitVec 4) (cell : Option CellId) : List (Nat × Nat) → State → State × Option (BitVec 3 × List Byte)
  | [], s => (s, some (stOK, []))
  | (pa, n) :: rest, s =>
    let r := carryReadPa s i st cell pa n
    match r.2 with
    | none => (r.1, none)
    | some x =>
      if x ≠ stOK then (readFailed r.1 i cell st x pa, some (x, []))
      else
        let p := memPerform r.1 (devReq i st cell .read pa n []) 3
        if p.2.1 ≠ stOK then (if p.2.1 = stPOISON then p.1 else readFailed p.1 i cell st p.2.1 pa, some (p.2.1, []))
        else
          let q := ioRead i st cell rest p.1
          (q.1, q.2.map (fun y => if y.1 = stOK then (stOK, p.2.2 ++ y.2) else y))
/-- The lines that a read of `n` bytes takes. -/
def readLines (pa n : Nat) : List (Nat × Nat) := (splitLines pa (List.replicate n 0)).map (fun e => (e.1, e.2.length))

end Sys2Proof.Machine
end

