-- ==== Sys2Proof/Machine/Net.lean ====
section
/-! DEFINITION. NET: its registers, its rings, its receive and egress paths, the egress guard, CAN XL and the host
rings (chapter 16). -/
namespace Sys2Proof.Machine

/-! ### Rings (R351 to R353) -/

def netBase : Nat := 0xF8000700000

/-- May the access reach a ring's registers (R351)? Through the hypervisor's aliases there is no owner check. -/
def ringParty (s : State) (a : Access) (kind i : Nat) : Bool :=
  match ringOwner s kind i with
  | some c => a.cell == some (BitVec.ofNat 12 c)
  | none => isHyp a

/-- Does a range lie wholly in one HBM_SLICE whose ATTR has the bit, or in one SCRATCH_SLICE, of the cell? -/
def inSlice (rs : List Rec) (c pa n attr : Nat) : Bool :=
  (recsOf rs tHBM).any (fun r => ru16 r 0 = c && (ru16 r 2).testBit attr && ru64 r 8 ≤ pa && pa + n ≤ ru64 r 8 + ru64 r 16) ||
  (recsOf rs tSCRATCH).any (fun r => ru16 r 0 = c &&
    (scratchBase + ru8 r 2 * 0x200000 + ru32 r 4 ≤ pa && pa + n ≤ scratchBase + ru8 r 2 * 0x200000 + ru32 r 4 + ru32 r 8))
/-- Does a range touch no slice of a safety or real-time cell (R352)? -/
def offProtected (rs : List Rec) (pa n : Nat) : Bool :=
  (recsOf rs tHBM).all (fun r => !(isProtected rs (ru16 r 0)) || ru64 r 8 + ru64 r 16 ≤ pa || pa + n ≤ ru64 r 8) &&
  (recsOf rs tSCRATCH).all (fun r => !(isProtected rs (ru16 r 0)) ||
    (scratchBase + ru8 r 2 * 0x200000 + ru32 r 4 + ru32 r 8 ≤ pa || pa + n ≤ scratchBase + ru8 r 2 * 0x200000 + ru32 r 4))

/-- The SLC site an address is homed or held at. -/
def siteOf (pa : Nat) : Nat := if scratchBase ≤ pa then (pa - scratchBase) / 0x200000 else homeSite pa
/-- Does the whole range lie at, or is it homed at, one site? -/
def atSite (pa n site : Nat) : Bool := (List.range ((n + 255) / 256)).all (fun k => siteOf (pa + 256 * k) = site)

/-- The SLC sites that are endpoints of a Pass (R352). -/
def passSites (rs : List Rec) (pass : Nat) : List Nat :=
  match findRec rs tPASS (fun r => ru16 r 0 = pass) with
  | none => []
  | some r => [ru16 r 4, ru16 r 6].filterMap (fun e => if 0x10 ≤ e && e < 0x20 then some (e - 0x10) else none)

/-- PASS_ID of a ring's record. -/
def ringPass (s : State) (kind i : Nat) : Nat :=
  match kind with
  | 0 => ((findRec s.comp.live tFILTER (fun r => ru16 r 2 = i + 1024)).map (fun r => ru16 r 16)).getD 0xFFFF
  | 1 => ((streamRec s i).map (fun r => ru16 r 6)).getD 0xFFFF
  | _ => 0xFFFF

/-- The placement checks of R352. -/
def ringPlaced (s : State) (kind i base n : Nat) : Bool :=
  match ringOwner s kind i with
  | none => (kind ≥ 2) && offProtected s.comp.live base n && (base + n ≤ hbmLimit || (scratchBase ≤ base && base + n ≤ scratchLimit))
  | some c =>
    inSlice s.comp.live c base n (if kind = 1 then 0 else 1) &&
    (passSites s.comp.live (ringPass s kind i)).all (fun t => atSite base n t)

/-- The sites that home the slot headers of a ring. -/
def headerSites (base slots slot : Nat) : List Nat := dedup ((List.range (2 ^ slots)).map (fun k => siteOf (base + k * 2 ^ slot)))
/-- The watch entries of a stream freed; and taken at the given sites. -/
def dropWatch (s : State) (i : Nat) : State :=
  { s with net := { s.net with watch := s.net.watch.map (fun e => (e.1, e.2.filter (fun j => j ≠ i))) } }
def addWatch (s : State) (i : Nat) (sites : List Nat) : State :=
  sites.foldl (fun s t => { s with net := { s.net with watch := put t (look [] t s.net.watch ++ [i]) s.net.watch } }) s

/-- A ring is disabled: a LIVE stream goes to STALE (R363). -/
def ringOff (s : State) (kind i : Nat) : State :=
  let s1 := setRing s kind i { getRing s kind i with en := false }
  if kind = 1 then
    let s2 := dropWatch s1 i
    if (getStream s2 i).state = .live then noteSafe (enterStale s2 i) i else s2
  else s1

/-- A write of a ring's CFG (R352): EN, BASE and the sizes, and RESULT. -/
def writeRingCfg (s : State) (a : Access) (kind i pa : Nat) (v m : Word) : State :=
  let r := getRing s kind i
  let cur : Word := BitVec.ofNat 64 (at' (r.base / 4096) 12 + at' r.logSlots 8 + at' r.logSlot 4 + b2n r.en)
  let j := judgeReg s a .netRxrCfg pa false cur v m
  let w := j.word
  let moved : Bool := fld w 43 4 ≠ fld cur 43 4
  let s0 := recordCodes s a pa j.codes
  let res (s : State) (x : BitVec 2) : State := setRing s kind i { getRing s kind i with result := x }
  if r.en then
    if moved then res s0 3
    else if bit w 0 then res s0 0
    else res (ringOff s0 kind i) 0
  else
    let r1 : Ring := { r with base := fld w 43 12 * 4096, logSlots := fld w 11 8, logSlot := fld w 7 4 }
    let s1 := setRing s0 kind i r1
    if !bit w 0 then res s1 0
    else
      let n := 2 ^ (r1.logSlots + r1.logSlot)
      if r1.logSlots < 2 ∨ r1.logSlot < 7 ∨ !(ringPlaced s kind i r1.base n) then res s1 1
      else
        let sites := headerSites r1.base r1.logSlots r1.logSlot
        if kind = 1 ∧ sites.any (fun t => 256 ≤ (look [] t s.net.watch).length) then res s1 2
        else
          -- frames committed while the ring was enabled before are discarded (DESIGN CHOICE, assumption 73)
          let s1 := if kind = 1 then discardQueued s1 i else s1
          let s2 := setRing s1 kind i { r1 with en := true, prod := 0, cons := 0, result := 0 }
          let s3 := if kind = 1 then addWatch s2 i sites else s2
          if kind = 1 then updStream s3 i (fun x => { x with slots := [] }) else s3

/-- A write of CONS of a receive ring: ignored beyond PROD (R355). -/
def writeCons (s : State) (kind i : Nat) (c : BitVec 16) : State :=
  let r := getRing s kind i
  if (c - r.cons).toNat ≤ (r.prod - r.cons).toNat then setRing s kind i { r with cons := c } else s

/-! ### Receive (R354 to R357, R368, R369) -/

/-- Free slots of a ring, those counted that are written but not yet reported. -/
def ringFree (r : Ring) (pendingHdrs : Nat) : Bool := (r.prod - r.cons).toNat + pendingHdrs < 2 ^ r.logSlots

/-- FLAGS of a receive slot: R-TAG and VLAN tag of an Ethernet frame. -/
def rxFlags (p : Nat) (f : List Byte) : Nat := if 10 ≤ p then 0 else b2n (rtagOf f).isSome + 2 * b2n (isTag f)
/-- TS_START of a receive slot: the first bit after the SFD of an Ethernet frame; the start of a CAN frame is before its
end by a time that no rule gives, and is free. -/
def rxStart (s : State) (p len : Nat) : Nat :=
  if 10 ≤ p then (Config.freeWord s.free).toNat else s.now.toNat - ((len + 4) * 8) / portRate p

/-- HDR of a receive slot. -/
def rxHdr (len p : Nat) (i : BitVec 16) : BitVec 32 := BitVec.ofNat 32 (at' i.toNat 16 + at' p 12 + len)
/-- The lines of a receive slot but the one with HDR: the frame's, then the trailer (R354, R355). -/
def rxLines (s : State) (r : Ring) (i : BitVec 16) (p filter : Nat) (f : List Byte) : List (Nat × List Byte) :=
  let a := slotAddr r i
  let ts := s.now.toNat
  splitLines (a + 64) (f.drop 60) ++
  splitLines (a + 2 ^ r.logSlot - 24)
    (natLe 8 (rxStart s p f.length) ++ natLe 8 ts ++ natLe 2 filter ++ natLe 1 (rxFlags p f) ++ List.replicate 5 0)
/-- The line that holds HDR: HDR, and the frame's first 60 bytes. -/
def rxHead (r : Ring) (i : BitVec 16) (p : Nat) (f : List Byte) : Nat × List Byte :=
  (slotAddr r i, natLe 4 (rxHdr f.length p i).toNat ++ f.take 60)

/-- Is NET's write stream of a cell blocked (R330)? NET issues all its writes as unit 0 on stream 0 (DESIGN CHOICE,
assumption 68). -/
def netBlocked (s : State) (cell : Option CellId) : Bool := (blockOf s netWriter 0 cell).isSome
/-- The frames of a cell that NET holds are dropped: none is reported, and PROD passes the slots taken for them (R330,
R332; assumption 68). -/
def dropNetHeld (s : State) (cell : Option CellId) : State :=
  (s.net.hdrs.filter (fun h => h.cell = cell)).foldl (fun s h =>
    let g := getRing s 0 h.event
    setRing { s with net := { s.net with hdrs := s.net.hdrs.erase h } } 0 h.event { g with prod := g.prod + 1 }) s

/-- A received frame put into a ring that reports it at once: a CAN or the host ring. A frame that cannot be written at
once is lost, and counted as one that finds no slot (DESIGN CHOICE, assumption 68). -/
def rxDirect (s : State) (kind i p : Nat) (f : List Byte) : State × Bool :=
  let r := getRing s kind i
  if !r.en then (setRing s kind i { r with overflow := satAdd r.overflow 1 }, false)
  else if 2 ^ r.logSlot < f.length + 28 then (updPort s p (fun x => { x with bad := satAdd x.bad 1 }), false)
  else if !(ringFree r 0) then
    (fault (setRing s kind i { r with overflow := satAdd r.overflow 1 }) 0x0904 (src 0x60 2 p) ((ringOwner s kind i)), false)
  else
    let cell := (ringOwner s kind i).map (BitVec.ofNat 12)
    let d := if 10 ≤ p then (drawFree s).2 else s
    let x := if netBlocked s cell then (d, IoRes.failed [])
      else ioWrite netWriter 0 cell (rxLines s r r.prod p 0 f ++ [rxHead r r.prod p f]) d
    if x.2 = .done then (setRing x.1 kind i { r with prod := r.prod + 1 }, true)
    else (setRing x.1 kind i { r with overflow := satAdd r.overflow 1 }, false)

/-- A frame that no filter takes, and every gPTP frame (R357). -/
def rxHost (s : State) (p : Nat) (f : List Byte) : State :=
  if bit (look 0 netBase s.regs) 1 then (rxDirect s 3 0 p f).1
  else updPort s p (fun x => { x with unmatched := satAdd x.unmatched 1 })

/-- Does a filter match (R356)? -/
def filterHits (p : Nat) (f : List Byte) (r : Rec) : Bool :=
  (ru16 r 6).testBit p && bytesAt r.data 8 6 == f.take 6 &&
  (ru16 r 14 == 0xFFFF || ((vlanOf f).map (fun t => (t &&& 0xEFFF) == ru16 r 14)).getD false)

/-- The matching filter with the lowest FILTER number. -/
def lowestFilter : List Rec → Option Rec
  | [] => none
  | r :: rs => match lowestFilter rs with
    | none => some r
    | some q => if ru16 q 0 < ru16 r 0 then some q else some r

/-- Sequence recovery (R356, the vector algorithm with history length 32): is the number kept, is it a duplicate, and
the recovery after it. -/
def frerStep (x : Frer) (n : BitVec 16) : Bool × Bool × Frer :=
  match x.last with
  | none => (true, false, { x with last := some n, hist := 1 })
  | some l =>
    let d : Int := (n - l).toInt
    if 32 ≤ d ∨ d ≤ -32 then (false, false, x)
    else if 0 < d then (true, false, { x with last := some n, hist := (x.hist <<< d.toNat) ||| 1 })
    else if x.hist.getLsbD (-d).toNat then (false, true, x)
    else (true, false, { x with hist := x.hist ||| BitVec.ofNat 32 (1 <<< (-d).toNat) })

/-- The ports of an eliminating filter that have now delivered none of 64 accepted numbers in a row (R357). -/
def frerPaths (x : Frer) (mask p : Nat) (kept : Bool) : Frer × List Nat :=
  let x1 := { x with missing := put p 0 x.missing, noted := x.noted.filter (fun q => q ≠ p) }
  if !kept then (x1, [])
  else
    let qs := (List.range 10).filter (fun q => mask.testBit q && q ≠ p)
    let x2 := { x1 with missing := qs.foldl (fun t q => put q (look 0 q t + 1) t) x1.missing }
    let new := qs.filter (fun q => 64 ≤ look 0 q x2.missing && !(x2.noted.contains q))
    ({ x2 with noted := x2.noted ++ new }, new)

/-- The frame of a filter kept or lost (R356). -/
def rxKeep (s : State) (p : Nat) (r : Rec) (f : List Byte) : State :=
  let e := ru16 r 2 - 1024
  let c := ru16 r 4
  let g := getRing s 0 e
  let pend := (s.net.hdrs.filter (fun h => h.event = e)).length
  let lose (s : State) : State := setRing s 0 e { g with overflow := satAdd g.overflow 1 }
  if !g.en ∨ cellState s c = .halted then lose s
  else if 2 ^ g.logSlot < f.length + 28 then updPort s p (fun x => { x with bad := satAdd x.bad 1 })
  else if !(ringFree g pend) then fault (lose s) 0x0904 (src 0x60 3 0) (some c)
  else
    let i := g.prod + BitVec.ofNat 16 pend
    let cell : Option CellId := some (BitVec.ofNat 12 c)
    let add (s : State) (ls : List (Nat × List Byte)) : State :=
      { s with net := { s.net with hdrs := s.net.hdrs ++ [{ event := e, index := i, hdr := rxHdr f.length p i, stamp := s.now, cell := cell, lines := ls ++ [rxHead g i p f] }] } }
    let ls := rxLines s g i p (ru16 r 0) f
    -- the writes of a cell keep their order: behind a frame that waits, this one waits whole
    if netBlocked s cell ∨ s.net.hdrs.any (fun h => h.cell = cell && 1 < h.lines.length) then add s ls
    else
      let x := ioWrite netWriter 0 cell ls s
      match x.2 with
      | .done => add x.1 []
      | .wait rest => add x.1 rest
      | .failed _ => if netBlocked x.1 cell then lose x.1 else dropNetHeld (lose x.1) cell

/-- A frame of a filter, through elimination where the filter asks for it. -/
def rxFilter (s : State) (p : Nat) (r : Rec) (f : List Byte) : State :=
  if !(ru8 r 18).testBit 0 then rxKeep s p r f
  else
    let k := ru16 r 0
    let x := look {} k s.net.frer
    let setF (s : State) (y : Frer) : State := { s with net := { s.net with frer := put k { y with time := s.now } s.net.frer } }
    match rtagOf f with
    | none => if (List.range 10).find? (fun q => (ru16 r 6).testBit q) = some p then rxKeep s p r f else s
    | some n =>
      let (kept, dup, y) := frerStep x n
      let (z, lost) := frerPaths y (ru16 r 6) p kept
      let s1 := setF s z
      let s2 := lost.foldl (fun s _ => fault s 0x0903 (src 0x60 3 0) (some (ru16 r 4))) s1
      if kept then rxKeep s2 p r f
      else if dup then updPort s2 p (fun t => { t with drop := satAdd t.drop 1 }) else s2

/-- A frame whose FCS fails: NET wrote its lines as they arrived, where its filter's ring took it, and never gives it its
HDR (R355). -/
def rxBad (s : State) (p : Nat) (f : List Byte) : State :=
  let s1 := updPort s p (fun x => { x with bad := satAdd x.bad 1 })
  match lowestFilter ((recsOf s.comp.live tFILTER).filter (filterHits p f)) with
  | none => s1
  | some r =>
    let e := ru16 r 2 - 1024
    let c := ru16 r 4
    let g := getRing s 0 e
    let pend := (s.net.hdrs.filter (fun h => h.event = e)).length
    let cell : Option CellId := some (BitVec.ofNat 12 c)
    if !g.en ∨ cellState s c = .halted ∨ 2 ^ g.logSlot < f.length + 28 ∨ !(ringFree g pend) ∨
        netBlocked s cell ∨ s.net.hdrs.any (fun h => h.cell = cell && 1 < h.lines.length) then s1
    else
      let x := ioWrite netWriter 0 cell (splitLines (slotAddr g (g.prod + BitVec.ofNat 16 pend) + 64) (f.drop 60)) s1
      match x.2 with
      | .failed _ => if netBlocked x.1 cell then x.1 else dropNetHeld x.1 cell
      | _ => x.1

/-- ETH_FRAME_RECEIVE. -/
def execEthFrameReceive (port : Fin 10) (f : List Byte) (fcsOk : Bool) (s : State) : Host.Outcome State Fault Refusal :=
  let p := port.val
  .next (
    if !(netUp s) ∨ !(getPort s p).up then s
    else if f.length < 60 then updPort s p (fun x => { x with bad := satAdd x.bad 1 })
    else if !fcsOk then rxBad s p f
    else if typeOf f = 0x88F7 then rxHost s p f
    else match lowestFilter ((recsOf s.comp.live tFILTER).filter (filterHits p f)) with
      | some r => rxFilter s p r f
      | none => rxHost s p f)

/-- FRER_RESET_TIMEOUT: sequence recovery starts afresh after 100 ms without a frame (R348). -/
def execFrerResetTimeout (f : BitVec 14) (s : State) : Host.Outcome State Fault Refusal :=
  let x := look {} f.toNat s.net.frer
  .next (
    if netUp s ∧ x.last.isSome ∧ 100000000 ≤ (s.now - x.time).toNat then
      { s with net := { s.net with frer := put f.toNat { x with last := none, hist := 0 } s.net.frer } }
    else s)

/-- RX_HDR_WRITE_DONE: the oldest frame of a receive ring that is not yet reported: its lines that waited are written, then
the line with HDR, and it is reported (R355). A frame of which a write fails is never given its HDR, and PROD passes its
slot (assumption 68). -/
def execRxHdrWriteDone (e : BitVec 12) (s : State) : Host.Outcome State Fault Refusal :=
  .next (
    match s.net.hdrs.find? (fun h => h.event = e.toNat && netUp s) with
    | none => s
    | some h =>
      let g := getRing s 0 e.toNat
      let s0 := { s with net := { s.net with hdrs := s.net.hdrs.erase h } }
      if !g.en then s0
      else if netBlocked s h.cell then s
      else
        let x := ioWrite netWriter 0 h.cell h.lines s0
        let next (s : State) : State := setRing s 0 e.toNat { getRing s 0 e.toNat with prod := g.prod + 1 }
        match x.2 with
        | .done => raiseEvent (next x.1) (e.toNat + 1024)
        | .wait rest => { x.1 with net := { x.1.net with hdrs := s.net.hdrs.map (fun k => if k = h then { k with lines := rest } else k) } }
        | .failed _ => if netBlocked x.1 h.cell then next x.1 else dropNetHeld (next x.1) h.cell)

/-- RING_CONS_WRITE: the IDX register of a ring written with the given value. -/
def execRingConsWrite (a : Access) (kind : Fin 3) (i : BitVec 12) (v : Word) (s : State) : Host.Outcome State Fault Refusal :=
  .next (if kind.val ≠ 1 ∧ ringParty s a kind.val i.toNat then writeCons s kind.val i.toNat (BitVec.ofNat 16 (fld v 31 16)) else s)

/-- Physical address of a ring's CFG register. -/
def ringCfgPa (kind i : Nat) : Nat := netBase + (kind + 1) * 0x10000 + i * 0x10

/-- RING_ENABLE: the CFG register of a ring written with EN = 1. -/
def execRingEnable (a : Access) (kind : Fin 3) (i : BitVec 12) (v : Word) (s : State) : Host.Outcome State Fault Refusal :=
  .next (
    if ringParty s a kind.val i.toNat then writeRingCfg s a kind.val i.toNat (ringCfgPa kind.val i.toNat) (v ||| 1) (BitVec.allOnes 64)
    else s)

/-! ### Egress (R359 to R367) -/

/-- Bytes of the frame in an egress slot, and its HDR (R359). -/
def slotHdr (s : State) (r : Ring) (i : BitVec 16) : Nat := rdNat s (slotAddr r i) 4
/-- The frame of an egress slot as NET reads it, as unit 1 on stream 0 (assumption 68). -/
def slotFrame (s : State) (r : Ring) (i : BitVec 16) (cell : Option CellId) : State × Option (BitVec 3 × List Byte) :=
  ioRead netGuard 0 cell (readLines (slotAddr r i + 4) (slotHdr s r i % 4096)) s

/-- A frame queued at a port; a port whose link is down is skipped (R361). -/
def enqueue (s : State) (p : Nat) (f : TxFrame) : State := updPort s p (fun x => { x with queue := x.queue ++ [f] })
/-- Can the port send at all: its link is up, or it is a CAN channel. -/
def portLive (s : State) (p : Nat) : Bool := 10 ≤ p || (getPort s p).up

/-- A committed cell frame handed to the ports of its stream. -/
def queueCell (s : State) (i : Nat) (idx : BitVec 16) (f : List Byte) : State :=
  let ps := (streamPorts s i).filter (portLive s)
  let s1 := updStream s i (fun x => { x with slots := x.slots ++ [{ index := idx, ports := ps }] })
  let s2 := ps.foldl (fun s p => enqueue s p { src := .cell i idx, tc := streamTc s i, bytes := f, ready := s.now }) s1
  freeSlots s2 i

/-- A committed frame of a stream that is sent on no port: counted as discarded (R361). -/
def discardSlot (s : State) (i : Nat) (idx : BitVec 16) : State :=
  freeSlots (updStream s i (fun x => { x with discarded := satAdd x.discarded 1, slots := x.slots ++ [{ index := idx, ports := [] }] })) i

/-- EGRESS_HDR_REPORT: a slice reports a write to the header of slot PROD, and NET commits the slot if it checks
(R360, R363). A frame that NET reads as poison, or cannot read, is committed and discarded (R329; DESIGN CHOICE, assumption
68). -/
def execEgressHdrReport (i : BitVec 12) (s : State) : Host.Outcome State Fault Refusal :=
  let n := i.toNat
  let r := getRing s 1 n
  .next (
    if !(netUp s) ∨ !(s.net.reports.contains n) then s
    else
      let s0 := { s with net := { s.net with reports := s.net.reports.erase n } }
      let h := slotHdr s r r.prod
      if !r.en ∨ h / 65536 ≠ r.prod.toNat ∨ h % 4096 = 0 ∨ 2 ^ r.logSlot < h % 4096 + 4 then s0
      else
        let q := slotFrame s0 r r.prod (some (BitVec.ofNat 12 (streamCell s n)))
        match q.2 with
        | none => { q.1 with net := { q.1.net with reports := s.net.reports } }
        | some (x, f) =>
          let s1 := setRing q.1 1 n { r with prod := r.prod + 1 }
          let send (s : State) : State := if x = stOK then queueCell s n r.prod f else discardSlot s n r.prod
          match (getStream s n).state with
          | .off => s1
          | .hold => discardSlot s1 n r.prod
          | .live => send (updStream s1 n (fun x => { x with commit := s.now }))
          | .stale => send (updStream s1 n (fun x => { x with state := .live, commit := s.now })))

/-- The bytes of a cell frame with the stream's sequence number written into its R-TAG (R361). -/
def stampRtag (f : List Byte) (n : BitVec 16) : List Byte :=
  if typeOf f = 0xF1C1 then patch f (typeAt f + 4) (natBe 2 n.toNat) else f

/-- A cell frame's transmission begins on some port: its R-TAG is written, the guard reads its counter, and every
port sends the same bytes (R361, R365). -/
def beginCell (s : State) (i : Nat) (idx : BitVec 16) (f : List Byte) : State :=
  let st := getStream s i
  if st.slots.any (fun e => e.index = idx && e.begun) then s
  else
    let g := if isCan s i then f else stampRtag f st.rtag
    let tagged : Bool := !(isCan s i) && typeOf f = 0xF1C1
    let cnt := match safeRec s i with
      | none => st.nextCnt
      | some r => if ru8 r 2 = 0 then st.nextCnt
                  else BitVec.ofNat 32 (nextCnt (ru8 r 2) (readCnt (ru8 r 2) (ru16 r 10) g))
    let s1 := updStream s i (fun x => { x with
      nextCnt := cnt, rtag := if tagged then x.rtag + 1 else x.rtag
      slots := x.slots.map (fun e => if e.index = idx then { e with begun := true } else e) })
    { s1 with net := { s1.net with ports := s1.net.ports.map (fun q =>
        (q.1, { q.2 with queue := q.2.queue.map (fun t => if t.src = .cell i idx then { t with bytes := g } else t) })) } }

/-- A cell frame refused under R362: it leaves every port, and SPOOF counts it. -/
def dropSpoof (s : State) (i : Nat) (idx : BitVec 16) : State :=
  let s1 := { s with net := { s.net with ports := s.net.ports.map (fun q =>
      (q.1, { q.2 with queue := q.2.queue.filter (fun t => t.src ≠ .cell i idx) })) } }
  freeSlots (updStream s1 i (fun x => { x with
    spoof := satAdd x.spoof 1, slots := x.slots.map (fun e => if e.index = idx then { e with ports := [] } else e) })) i

/-- The length on the wire of a frame (R359). -/
def wireLen (p : Nat) (f : TxFrame) : Nat :=
  if 10 ≤ p then f.bytes.length else (match f.src with | .safe _ => f.bytes.length | _ => max f.bytes.length 60 + 4)

/-- How much of a frame must leave before its gate closes (R349): all of it; of a preemptable frame long enough for two
fragments the least fragment of 64 bytes (R348). -/
def leastLen (s : State) (p : Nat) (f : TxFrame) : Nat :=
  if (getPort s p).preempt && !(isExpress s p f) && 128 ≤ wireLen p f then 64 else wireLen p f
/-- Bytes of the frame on a wire that have gone out: those of earlier fragments, and those since this one began, after
its preamble. -/
def sentBytes (s : State) (p : Nat) (t : Word) : Nat := (getPort s p).sent + (((s.now - t).toNat * portRate p) / 8 - 8)
/-- Can the frame on the wire be stopped for an express one: is it preemptable, with a fragment of at least 64 bytes
before and after (R348)? -/
def mayStop (s : State) (p : Nat) (f : TxFrame) (t : Word) : Bool :=
  (getPort s p).preempt && !(isExpress s p f) && (getPort s p).held.isNone &&
  (getPort s p).sent + 64 ≤ sentBytes s p t && sentBytes s p t + 64 ≤ wireLen p f
/-- The frame on the wire is stopped with `n` bytes sent; and a stopped frame goes on. -/
def stopFrame (s : State) (p : Nat) (f : TxFrame) (n : Nat) : State :=
  updPort (settleCredit s p f.tc) p (fun y => { y with wire := none, sent := 0, held := some (f, n) })
def resumeFrame (s : State) (p : Nat) : State :=
  match (getPort s p).held with
  | some (g, n) => if gateOpen s p g.tc then updPort (settleCredit s p g.tc) p (fun y => { y with wire := some (g, s.now), sent := n, held := none }) else s
  | none => s

/-- The frame that a port starts next (R350): the oldest ready frame of the highest class whose gate and shaper permit
it; on a CAN channel, the one that wins arbitration (R368). -/
def pickClass (s : State) (p : Nat) (preempting : Bool) : Nat → Option TxFrame
  | 0 => none
  | n + 1 =>
    match (getPort s p).queue.find? (fun f => f.tc = n && sendable s f) with
    | some f =>
      if (!preempting || isExpress s p f) && gateAllows s p n (leastLen s p f) && shaperAllows s p n then some f
      else pickClass s p preempting n
    | none => pickClass s p preempting n
def bestCan : List TxFrame → Option TxFrame
  | [] => none
  | f :: fs => match bestCan fs with
    | none => some f
    | some g => if canKey g.bytes < canKey f.bytes then some g else some f
def pickFrame (s : State) (p : Nat) (preempting : Bool) : Option TxFrame :=
  if 10 ≤ p then bestCan ((getPort s p).queue.filter (fun f => sendable s f && canCarries s p f.bytes)) else pickClass s p preempting 8

/-- A frame goes onto the wire of a port. -/
def startFrame (s : State) (p : Nat) (f : TxFrame) : State :=
  updPort (setCredit s p f.tc (creditNow s p f.tc)) p (fun x => { x with queue := x.queue.erase f, wire := some (f, s.now), sent := 0 })

/-- PORT_TRANSMIT_START. -/
def execPortTransmitStart (port : Fin 12) (s : State) : Host.Outcome State Fault Refusal :=
  let p := port.val
  let x := getPort s p
  .next (
    if !(netUp s) ∨ !(portLive s p) ∨ x.busOff then s
    else
      if x.wire.any (fun w => !mayStop s p w.1 w.2) then s
      else
        match pickFrame s p x.wire.isSome with
        | some f =>
          -- an express frame stops a preemptable one on the wire (R348)
          let s1 := match x.wire with
            | some (g, t) => stopFrame s p g (sentBytes s p t)
            | none => s
          -- a frame that was stopped goes on before another preemptable one starts
          if x.held.isSome ∧ !(isExpress s p f) then resumeFrame s p
          else
            (match f.src with
             | .cell i idx =>
               if identityOk s i f.bytes then
                 let s2 := beginCell s1 i idx f.bytes
                 (match (getPort s2 p).queue.find? (fun t => t.src = f.src) with
                  | some g => startFrame s2 p g
                  | none => s2)
               else dropSpoof s i idx
             | _ => startFrame s1 p f)
        | none => if x.wire.isNone then resumeFrame s p else s)

/-- A port is done with a frame of a stream: CONS advances once every port of the mask is (R361). -/
def doneCell (s : State) (p i : Nat) (idx : BitVec 16) : State :=
  freeSlots (updStream s i (fun x => { x with
    slots := x.slots.map (fun e => if e.index = idx then { e with ports := e.ports.filter (fun q => q ≠ p) } else e) })) i

/-- Has a host slot still to be sent? CONS passes the slots that have not, in their order. -/
def hostBusy (s : State) (idx : BitVec 16) : Bool :=
  s.net.ports.any (fun q => q.2.queue.any (fun f => f.src = .host idx) || q.2.wire.any (fun w => w.1.src = .host idx) || q.2.held.any (fun w => w.1.src = .host idx))
def freeHost : Nat → State → State
  | 0, s => s
  | n + 1, s =>
    let r := s.net.hostTx
    if r.cons = r.prod ∨ hostBusy s r.cons then s else freeHost n (setRing s 4 0 { r with cons := r.cons + 1 })
def freeHostSlots (s : State) : State := freeHost (s.net.hostTx.prod - s.net.hostTx.cons).toNat s

/-- A host frame is sent: its stamps are written, and CONS advances past the slots that are sent (R369). Stamps that
cannot be written at once are not written (assumption 68). -/
def doneHost (s : State) (p : Nat) (idx : BitVec 16) (started : Word) : State :=
  let r := s.net.hostTx
  let a := slotAddr r idx
  let sz := 2 ^ r.logSlot
  let s1 := if netBlocked s none then s
    else (ioWrite netWriter 0 none (splitLines (a + sz - 24) (natLe 8 (started.toNat + 64 / portRate p) ++ natLe 8 s.now.toNat)) s).1
  freeHostSlots s1

/-- Has every port of a safe frame sent it? Only then does SAFE_SENT count it (R364). -/
def safeLast (s : State) (f : TxFrame) : Bool :=
  let same (g : TxFrame) : Bool := g.src = f.src && g.ready == f.ready
  s.net.ports.all (fun q => !(q.2.queue.any same) && !((q.2.wire.map (fun w => same w.1)).getD false) && !((q.2.held.map (fun w => same w.1)).getD false))

/-- PORT_TRANSMIT_END. -/
def execPortTransmitEnd (port : Fin 12) (s : State) : Host.Outcome State Fault Refusal :=
  let p := port.val
  .next (
    if !(netUp s) then s else
    match (getPort s p).wire with
    | none => s
    | some (f, t) =>
      let s2 := updPort (settleCredit s p f.tc) p (fun x => { x with wire := none, sent := 0 })
      match f.src with
      | .cell i idx => doneCell s2 p i idx
      | .safe i => if safeLast s2 f then updStream s2 i (fun x => { x with safeSent := satAdd x.safeSent 1 }) else s2
      | .host idx => doneHost s2 p idx t
      | .boot => s2)

/-- Has a cycle of a gate list started since an instant (R349)? -/
def cycleStarted (r : Rec) (since t : Nat) : Bool :=
  gateCycle r ≠ 0 &&
  (if since ≤ gateBase r then gateBase r else gateBase r + ((since - gateBase r + gateCycle r - 1) / gateCycle r) * gateCycle r) ≤ t

/-- GATE_LIST_ENTRY: the entry in force now takes effect; a list that a COMMIT has replaced gives way at the first cycle
start of the new one; a preemptable frame whose gate closes is stopped (R349). -/
def execGateListEntry (port : Fin 10) (s : State) : Host.Outcome State Fault Refusal :=
  let p := port.val
  let new := findRec s.comp.live tGATE (fun r => ru8 r 0 = p)
  let starts : Bool := match new with
    | some r => cycleStarted r (getPort s p).gateSwap.toNat s.now.toNat  -- never before COMMITTED
    | none => true
  let s1 := if (getPort s p).oldGate.isSome ∧ starts then updPort s p (fun x => { x with oldGate := none }) else s
  .next (
    if !(netUp s) then s else
    match gateRec s1 p with
    | none => updPort s1 p (fun x => { x with gate := none })
    | some r =>
      let g := (gateAt r s.now.toNat).map (·.1)
      let s2 := updPort s1 p (fun x => { x with gate := g })
      match g, (getPort s2 p).wire with
      | some i, some (f, t) =>
        if (getPort s2 p).preempt && !(isExpress s2 p f) && !((gateBits r i).testBit f.tc) && (getPort s2 p).held.isNone then
          stopFrame s2 p f (min (sentBytes s2 p t) (wireLen p f - 64))
        else s2
      | _, _ => s2)

/-- STREAM_FRESH_EXPIRY (R363). -/
def execStreamFreshExpiry (i : BitVec 12) (s : State) : Host.Outcome State Fault Refusal :=
  let n := i.toNat
  let st := getStream s n
  .next (
    if netUp s ∧ st.state = .live ∧ 0 < freshNs s n ∧ freshNs s n ≤ (s.now - st.commit).toNat then
      noteSafe (fault (enterStale s n) 0x0902 (src 0x60 1 0) (some (streamCell s n))) n
    else s)

/-- Is this the instant of a port at which a STALE or HOLD stream sends its safe frame (R364)? -/
def safeDue (s : State) (i p : Nat) : Bool :=
  let t := s.now.toNat
  match (if 10 ≤ p then none else gateRec s p) with
  | some r =>
    (match gateFirst r (streamTc s i) (ru16 r 2) 0 0 with
     | some o => gateBase r ≤ t && gateCycle r ≠ 0 && (t - gateBase r) % gateCycle r = o
     | none => false)
  | none =>
    let per := if freshNs s i = 0 then 1000000 else freshNs s i / 2
    per ≠ 0 && (s.now - (getStream s i).since).toNat % per = 0

/-- SAFE_FRAME_INSTANT (R364, R365). -/
def execSafeFrameInstant (i : BitVec 12) (s : State) : Host.Outcome State Fault Refusal :=
  let n := i.toNat
  let st := getStream s n
  let ps := (streamPorts s n).filter (fun p => safeDue s n p && portLive s p)
  .next (
    match safeRec s n with
    | none => s
    | some r =>
      if netUp s ∧ (st.state = .stale ∨ st.state = .hold) ∧ !ps.isEmpty ∧ st.lastSafe ≠ some s.now then
        let f := fillSafe (isCan s n) r st.nextCnt.toNat
        let cnt := if ru8 r 2 = 0 then st.nextCnt else BitVec.ofNat 32 (nextCnt (ru8 r 2) st.nextCnt.toNat)
        let s1 := updStream s n (fun x => { x with nextCnt := cnt, lastSafe := some s.now })
        ps.foldl (fun s p => enqueue s p { src := .safe n, tc := streamTc s n, bytes := f, ready := s.now }) s1
      else s)

/-! ### Links and CAN XL (R357, R361, R368) -/

/-- The frames of a port whose link is down are skipped (R361). -/
def skipFrames (s : State) (p : Nat) : State :=
  let x := getPort s p
  let fs := x.queue ++ (x.wire.map (fun w => [w.1])).getD [] ++ (x.held.map (fun w => [w.1])).getD []
  let s1 := updPort s p (fun y => { y with queue := [], wire := none, sent := 0, held := none })
  freeHostSlots (fs.foldl (fun s f => match f.src with
    | .cell i idx => doneCell s p i idx
    | _ => s) s1)

/-- ETH_LINK_DOWN. -/
def execEthLinkDown (port : Fin 10) (s : State) : Host.Outcome State Fault Refusal :=
  let p := port.val
  .next (
    if (getPort s p).up then
      fault (skipFrames (updPort s p (fun x => { x with up := false, preempt := false })) p) 0x0901 (src 0x60 2 p) none
    else s)

/-- ETH_LINK_UP; preemption is active once verified, where PREEMPT_EN asks for it (R348). -/
def execEthLinkUp (port : Fin 10) (s : State) : Host.Outcome State Fault Refusal :=
  let p := port.val
  .next (
    if netUp s then updPort s p (fun x => { x with up := true, preempt := bit (look 0xC00000 (bank 0xF8000700018 p) s.regs) 8 })
    else s)

/-- CANXL_FRAME_RECEIVE. -/
def execCanxlFrameReceive (ch : Fin 2) (f : List Byte) (s : State) : Host.Outcome State Fault Refusal :=
  let c := ch.val
  .next (
    if !(netUp s) ∨ (getPort s (10 + c)).busOff then s
    else
      let g := getRing s 2 c
      let halted : Bool := match ownerOf s.comp.live 5 c with | some o => cellState s o = .halted | none => false
      if halted then setRing s 2 c { g with overflow := satAdd g.overflow 1 }
      else
        let (s1, ok) := rxDirect s 2 c (10 + c) f
        if ok then raiseEvent s1 (934 + c) else s1)

/-- CANXL_BUS_OFF: the frame on the bus waits again (R368). -/
def execCanxlBusOff (ch : Fin 2) (s : State) : Host.Outcome State Fault Refusal :=
  let p := 10 + ch.val
  .next (
    if !(netUp s) ∨ (getPort s p).busOff then s
    else fault (updPort s p (fun x => { x with
        busOff := true, wire := none, queue := (x.wire.map (fun w => [w.1])).getD [] ++ x.queue })) 0x0906 (src 0x60 2 p) none)

/-- CANXL_BUS_OFF_RECOVERY. -/
def execCanxlBusOffRecovery (ch : Fin 2) (s : State) : Host.Outcome State Fault Refusal :=
  .next (if netUp s then updPort s (10 + ch.val) (fun x => { x with busOff := false }) else s)

/-! ### Host transmit (R369) -/

/-- Class of a host frame. -/
def hostTc (f : List Byte) : Nat := if typeOf f = 0x88F7 then 7 else (vlanOf f).map (fun t => t / 2 ^ 13) |>.getD 0

/-- The host slots from PROD up to a new PROD committed, oldest first. A slot whose LEN is out of range, or whose frame
reads as poison or cannot be read, is passed; one that NET must wait for ends the commit before it (assumption 68). -/
def hostCommit : Nat → State → State
  | 0, s => s
  | n + 1, s =>
    let r := s.net.hostTx
    let p := slotHdr s r r.prod / 4096 % 16
    let len := slotHdr s r r.prod % 4096
    let q := slotFrame s r r.prod none
    match q.2 with
    | none => q.1
    | some (x, f) =>
      let s1 := setRing q.1 4 0 { r with prod := r.prod + 1 }
      hostCommit n (
        if x = stOK ∧ 0 < len ∧ len + 4 ≤ 2 ^ r.logSlot ∧ p ≤ 9 ∧ portLive s p then enqueue s1 p { src := .host r.prod, tc := hostTc f, bytes := f, ready := s.now }
        else freeHostSlots s1)

/-- PROD of the host transmit ring written: it commits the slots up to it, as many as the ring holds. -/
def writeHostProd (s : State) (p : BitVec 16) : State :=
  let r := s.net.hostTx
  let n := (p - r.prod).toNat
  if r.en ∧ n + (r.prod - r.cons).toNat ≤ 2 ^ r.logSlots then hostCommit n s else s

/-- HOST_TX_COMMIT. -/
def execHostTxCommit (a : Access) (v : Word) (s : State) : Host.Outcome State Fault Refusal :=
  .next (if isHyp a ∨ isMld a then writeHostProd s (BitVec.ofNat 16 (fld v 15 0)) else s)

/-! ### Registers -/

/-- CFG and IDX of a ring as read. -/
def ringCfgWord (s : State) (kind i : Nat) : Word :=
  let r := getRing s kind i
  let st : Nat := if kind = 1 then (match (getStream s i).state with | .off => 0 | .live => 1 | .stale => 2 | .hold => 3) else 0
  BitVec.ofNat 64 (at' st 48 + at' (r.base / 4096) 12 + at' r.logSlots 8 + at' r.logSlot 4 + at' r.result.toNat 2 + b2n r.en)
def ringIdxWord (s : State) (kind i : Nat) : Word :=
  let r := getRing s kind i
  let hi : Nat := match kind with | 1 => (getStream s i).nextCnt.toNat | 4 => 0 | _ => r.overflow.toNat
  BitVec.ofNat 64 (at' hi 32 + at' r.cons.toNat 16 + r.prod.toNat)

/-- Ring that NET_RING_SEL selects. -/
def selRing (s : State) : Nat × Nat :=
  let w := look 0 (netBase + 0x50) s.regs
  (fld w 13 12, fld w 11 0)
def selPort (s : State) : Nat := fld (look 0 (netBase + 0x10) s.regs) 3 0
def selStream (s : State) : Nat := fld (look 0 (netBase + 0x30) s.regs) 11 0

/-- A NET register as read, nothing cleared. -/
def netRead (s : State) (r : Reg) (n pa : Nat) : Word :=
  match r with
  | .netStatus => BitVec.ofNat 64 (at' (b2n (getPort s 11).busOff) 11 + at' (b2n (getPort s 10).busOff) 10 +
      ((List.range 10).map (fun p => at' (b2n (getPort s p).up) p)).foldl (· + ·) 0)
  | .netPortCtrl =>
    let w := stored s .netPortCtrl (bank pa (selPort s))
    if selPort s = 8 ∨ selPort s = 9 then putFld w 1 0 2 else w
  | .netPortCbs =>
    -- TC is the class that was written last; IDLE_SLOPE is that class's
    let tc := fld (look 0 (bank (pa + 1) (selPort s)) s.regs) 2 0
    putFld (look 0 (bank pa (selPort s * 8 + tc)) s.regs) 2 0 tc
  | .netPortStatus =>
    let x := getPort s (selPort s)
    let st : Nat := if x.busOff then 2 else if portLive s (selPort s) ∧ (x.up ∨ (10 ≤ selPort s ∧ s.boot.rom ≠ .reset)) then 1 else 0
    BitVec.ofNat 64 (at' x.unmatched.toNat 48 + at' x.bad.toNat 32 + at' x.drop.toNat 16 + at' (b2n x.preempt) 2 + st)
  | .netEgInfo =>
    let i := selStream s
    let x := getStream s i
    let st : Nat := match x.state with | .off => 0 | .live => 1 | .stale => 2 | .hold => 3
    BitVec.ofNat 64 (at' x.rtag.toNat 48 + at' (streamCell s i) 32 + at' (if x.state = .off then 0 else holdCauses s i) 16 + st)
  | .netEgCnt => BitVec.ofNat 64 (at' (getStream s (selStream s)).safeSent.toNat 32 + (getStream s (selStream s)).nextCnt.toNat)
  | .netEgDrop => BitVec.ofNat 64 (at' (getStream s (selStream s)).spoof.toNat 32 + (getStream s (selStream s)).discarded.toNat)
  | .netRingAcfg => ringCfgWord s (selRing s).1 (selRing s).2
  | .netRingAidx => ringIdxWord s (selRing s).1 (selRing s).2
  | .netHostRxCfg => ringCfgWord s 3 0
  | .netHostRxIdx => ringIdxWord s 3 0
  | .netHostTxCfg => ringCfgWord s 4 0
  | .netHostTxIdx => ringIdxWord s 4 0
  | .netRxrCfg => ringCfgWord s 0 n
  | .netRxrIdx => ringIdxWord s 0 n
  | .netTxrCfg => ringCfgWord s 1 n
  | .netTxrIdx => ringIdxWord s 1 n
  | .netCrxrCfg => ringCfgWord s 2 n
  | .netCrxrIdx => ringIdxWord s 2 n
  | _ => stored s r pa

/-- The clearing that a read of an RC field of NET does (R3, R4): `m` is the half read. -/
def netClear (s : State) (r : Reg) (n : Nat) (m : Word) : State :=
  let hi : Bool := m.getLsbD 63
  let lo : Bool := m.getLsbD 0
  let clr (s : State) (k i : Nat) : State := if hi then setRing s k i { getRing s k i with overflow := 0 } else s
  match r with
  | .netPortStatus => updPort s (selPort s) (fun x => { x with
      unmatched := if hi then 0 else x.unmatched, bad := if hi then 0 else x.bad, drop := if lo then 0 else x.drop })
  | .netEgCnt => if hi then updStream s (selStream s) (fun x => { x with safeSent := 0 }) else s
  | .netEgDrop => updStream s (selStream s) (fun x => { x with
      spoof := if hi then 0 else x.spoof, discarded := if lo then 0 else x.discarded })
  | .netRingAidx => if (selRing s).1 = 1 then s else clr s (selRing s).1 (selRing s).2
  | .netHostRxIdx => clr s 3 0
  | .netRxrIdx => clr s 0 n
  | .netCrxrIdx => clr s 2 n
  | _ => s

/-- Rings of a KIND: receive, egress, CAN receive. -/
def ringCount (kind : Nat) : Nat := if kind = 0 then 3072 else if kind = 1 then 4096 else 2
/-- A write of NET_RING_SEL: an INDEX that the KIND written with it does not reach is handled under R5. -/
def writeRingSel (s : State) (a : Access) (pa : Nat) (v m : Word) : State :=
  let cur := stored s .netRingSel pa
  let j := judgeReg s a .netRingSel pa false cur v m
  if fld j.word 11 0 ≠ fld cur 11 0 ∧ ringCount (fld j.word 13 12) ≤ fld j.word 11 0 then
    recordCodes (store s pa (putFld j.word 11 0 (fld cur 11 0))) a pa (j.codes ++ [0x0003])
  else recordCodes (store s pa j.word) a pa j.codes

/-- A write of a NET register. -/
def netWrite (s : State) (a : Access) (r : Reg) (n pa : Nat) (v m : Word) : State :=
  let cons (s : State) (k i : Nat) : State :=
    let w := (ringIdxWord s k i &&& ~~~m) ||| (v &&& m)
    if m.getLsbD 16 then writeCons s k i (BitVec.ofNat 16 (fld w 31 16)) else s
  match r with
  | .netCtrl => writeCtrl s a r pa v m
  | .netPortSel | .netEgSel => writePlain s a r pa pa false v m
  | .netRingSel => writeRingSel s a pa v m
  | .netPortCtrl =>
    let p := selPort s
    -- a field that the selected port lacks reads a fixed value, and a write of it is ignored
    let m1 := if p < 8 then m &&& 0xFFFFFFFF else if p < 10 then m &&& 0xFFFFFFFC else m
    let s1 := writePlain s a r pa (bank pa p) false v m1
    -- preemption is verified at once where the link is up (PRESUMED, assumption 39)
    if bit m1 8 then updPort s1 p (fun x => { x with preempt := x.up && bit (stored s1 .netPortCtrl (bank pa p)) 8 }) else s1
  | .netPortCbs =>
    let p := selPort s
    let w := (netRead s .netPortCbs 0 pa &&& ~~~m) ||| (v &&& m)
    let tc := fld w 2 0
    let key := bank pa (p * 8 + tc)
    if expertOn s pa ∧ fld m 63 32 ≠ 0 ∧ !slopesFit s p tc (fld w 63 32) then
      -- slopes beyond 75 % of the port's rate are handled as a value out of its range, under R5 (DESIGN CHOICE,
      -- assumption 73)
      recordCodes s a pa [0x0003]
    else if expertOn s pa then
      let s0 := setCredit s p tc (creditNow s p tc)
      -- a write of the low half names the class and leaves every slope as it is
      let s1 := if fld m 63 32 = 0 then s0 else store s0 key (putFld 0 63 32 (fld w 63 32))
      store s1 (bank (pa + 1) p) (BitVec.ofNat 64 tc)
    else if w = netRead s .netPortCbs 0 pa then s else refuse s a 0x0002 (regSource pa) pa
  | .netRingAcfg => writeRingCfg s a (selRing s).1 (selRing s).2 pa v m
  | .netRingAidx => if (selRing s).1 = 1 then s else cons s (selRing s).1 (selRing s).2
  | .netHostRxCfg => writeRingCfg s a 3 0 pa v m
  | .netHostRxIdx => cons s 3 0
  | .netHostTxCfg => writeRingCfg s a 4 0 pa v m
  | .netHostTxIdx => if m.getLsbD 0 then writeHostProd s (BitVec.ofNat 16 (fld v 15 0)) else s
  | .netRxrCfg => writeRingCfg s a 0 n pa v m
  | .netTxrCfg => writeRingCfg s a 1 n pa v m
  | .netCrxrCfg => writeRingCfg s a 2 n pa v m
  | .netRxrIdx => cons s 0 n
  | .netCrxrIdx => cons s 2 n
  | _ => s

/-- May the access reach a NET register (R351)? -/
def netReach (s : State) (a : Access) (r : Reg) (n : Nat) : Bool :=
  match r with
  | .netRxrCfg | .netRxrIdx => ringParty s a 0 n
  | .netTxrCfg | .netTxrIdx => ringParty s a 1 n
  | .netCrxrCfg | .netCrxrIdx => ringParty s a 2 n
  | _ => true

/-- A COMMIT that removes or replaces the owner of a ring clears EN (R352). -/
def ringsOff (s : State) (cells : List Nat) : State :=
  let hit (k i : Nat) : Bool := match ringOwner s k i with | some c => cells.contains c | none => k < 2
  let s1 := (s.net.rx.map (·.1)).foldl (fun s i => if hit 0 i && (getRing s 0 i).en then ringOff s 0 i else s) s
  let s2 := (s1.net.tx.map (·.1)).foldl (fun s i => if hit 1 i && (getRing s 1 i).en then ringOff s 1 i else s) s1
  (s2.net.can.map (·.1)).foldl (fun s i => if hit 2 i && (getRing s 2 i).en then ringOff s 2 i else s) s2

end Sys2Proof.Machine
end

