-- ==== Sys2Proof/Machine/Pwr.lean ====
section
/-! DEFINITION. The power controller: what a domain carries (R485), supplies and canaries (chapter 02), votes, entry,
abort, wake and thermal limits (chapter 18). -/
namespace Sys2Proof.Machine

def getDom (s : State) (d : Nat) : Dom := look {} d s.pwr.doms
def updDom (s : State) (d : Nat) (f : Dom → Dom) : State := { s with pwr := { s.pwr with doms := put d (f (getDom s d)) s.pwr.doms } }
/-- Does a domain take steps (R17)? From its commit until its wake is done it takes none. -/
def domainSteps (s : State) (d : Nat) : Bool := match (getDom s d).state with | .committed | .doze | .off | .waking => false | _ => true
/-- Does a domain stand in RUN? -/
def inRun (s : State) (d : Nat) : Bool := domainSteps s d
def pwrBase : Nat := 0xF8000050000
def pwrSource : BitVec 16 := src 0x63 3 0

/-! ### What a domain carries (R485) -/

/-- Site of a switch point x + 8y (R55). -/
def siteOfSwitch (n : Nat) : Nat := n % 8 / 2 + 4 * (n / 8 / 2)
/-- Site of the switch point that an endpoint hangs at (R55). -/
def siteOfEp (e : Nat) : Option Nat :=
  if e < 0x10 then some e else if e < 0x20 then some (e - 0x10) else if e < 0x60 then some ((e - 0x20) / 4)
  else if e = 0x60 then some 7 else if e = 0x61 then some 11 else if e = 0x62 then some 4 else if e ≤ 0x64 then some 8 else none
/-- The sites that home lines of a range of HBM. -/
def rangeSites (base len : Nat) : List Nat :=
  let w := 0x20000000
  if len = 0 then []
  else
  ((List.range (len / w + 2)).map (fun k => (base / w + k) * w)).foldl (fun acc p =>
    if base + len ≤ p then acc
    else if p % 0xC00000000 < 0x800000000 then acc ++ (List.range 4).map (fun k => 4 * stackOf p + k)
    else acc ++ [homeSite p]) []
/-- The stacks that a range of HBM touches. -/
def rangeStacks (base len : Nat) : List Nat := (List.range 4).filter (fun k => len ≠ 0 && base < (k + 1) * 0xC00000000 && k * 0xC00000000 < base + len)

/-- Does domain `d` carry a part of a cell (R485)? -/
def carries (rs : List Rec) (d c : Nat) : Bool :=
  if d < 16 then (List.range 8).any (fun k => onCore rs c (8 * d + k))
  else if d < 32 then
    let n := d - 16
    (recsOf rs tSCRATCH).any (fun r => ru16 r 0 = c && ru8 r 2 = n) ||
    (match classOf rs c with
     | some k => (recsOf rs tCLASS).any (fun r => ru8 r 0 = k && (ru16 r 4).testBit n)
     | none => false) ||
    (recsOf rs tPASS).any (fun r => ru16 r 2 = c &&
      (((List.range (ru8 r 9 + 1)).any (fun i => siteOfSwitch (ru8 r (10 + i)) = n)) ||
       siteOfEp (ru16 r 4) == some n || siteOfEp (ru16 r 6) == some n)) ||
    (recsOf rs tPCRES).any (fun r => ru16 r 0 = c && ru8 r 2 / 4 = n) ||
    (recsOf rs tHBM).any (fun r => ru16 r 0 = c && (rangeSites (ru64 r 8) (ru64 r 16)).contains n)
  else if d < 36 then
    (recsOf rs tPCRES).any (fun r => ru16 r 0 = c && ru8 r 2 / 16 = d - 32) ||
    (recsOf rs tHBM).any (fun r => ru16 r 0 = c && (rangeStacks (ru64 r 8) (ru64 r 16)).contains (d - 32))
  else if d = 36 then
    (recsOf rs tFILTER).any (fun r => ru16 r 4 = c) || (recsOf rs tEGRESS).any (fun r => ru16 r 2 = c) ||
    (recsOf rs tOWNER).any (fun r => ru8 r 0 = 5 && ru16 r 2 = c)
  else if d = 37 then
    (recsOf rs tOWNER).any (fun r => ru8 r 0 = 6 && ru16 r 2 = c) || (recsOf rs tIOMMU).any (fun r => ru16 r 2 = c)
  else (recsOf rs tOWNER).any (fun r => ru8 r 0 ≠ 5 && ru8 r 0 ≠ 6 && ru16 r 2 = c)

/-- The composed cells of a kind that a domain carries: 1 real-time, 2 safety. -/
def carriedOf (rs : List Rec) (d kind : Nat) : List Nat := (cellsOf rs).filter (fun c => kindIn rs c = kind && carries rs d c)

/-! ### Supplies (R20 to R22, R381, R451, R458) -/

/-- Range of a RUN state in mV; domains without a regulator have none. -/
def psMin (ps : Nat) : Nat := match ps with | 0 => 780 | 1 => 650 | _ => 550
def psMax (ps : Nat) : Nat := match ps with | 0 => 900 | 1 => 820 | _ => 720
/-- The band of a domain's temperature, and the key of a recorded level. -/
def domTemp (s : State) (d : Nat) : Int :=
  let ss := if d < 16 then [2 * d, 2 * d + 1] else if d < 32 then [16 + d] else if d < 36 then [48 + 2 * (d - 32), 49 + 2 * (d - 32)]
    else [56 + 2 * (d - 36), 57 + 2 * (d - 36)]
  let ts := ss.map (fun k => ((look {} k s.pwr.sensors).temp).toInt)
  match ts with | [] => 0 | t :: r => r.foldl max t
def levelKey (s : State) (d ps : Nat) : Nat := ps * 256 + Config.tempBand ((domTemp s d) % 256).toNat
/-- The level last recorded for a state in the present band; the top of its range before any was recorded. -/
def recordedMv (s : State) (d ps : Nat) : Nat := look (psMax ps) (levelKey s d ps) (getDom s d).levels
/-- The state whose range holds a domain's supply: during a change, the faster of the two (R17, R22). -/
def supplyPs (x : Dom) : Nat := min x.ps (x.toPs.getD x.ps)
/-- Regulator output set, and recorded for the state whose range holds it. -/
def setMv (s : State) (d mv : Nat) : State :=
  if d < 32 then updDom s d (fun x => { x with mv := mv, levels := put (levelKey s d (supplyPs x)) mv x.levels }) else s

/-- Well bias and SRAM assist of a RUN state (R381). -/
def runBias (ps : Nat) : Bias := if ps = 0 then .forward else .none
def runAssist (ps : Nat) : Assist := if ps = 2 then .negBitline else .nominal

/-- A command for a rail sent to the PMIC (R451), with the raises of a domain that wait for its echo. -/
def sendPmic (s : State) (bs : List Byte) (d rail : Nat) (up : Bool) (raises : Nat) : State :=
  { s with pwr := { s.pwr with pmic := s.pwr.pmic ++ [{ bytes := bs, sent := s.now, dom := d, rail := rail, up := up, raises := raises }], pmicOk := false } }
/-- Setpoint of a rail: 0 VDD_CORE, 1 VDD_SLC. -/
def railMv (s : State) (rail : Nat) : Nat := if rail = 0 then s.pwr.coreMv else s.pwr.slcMv
def setRail (s : State) (rail mv : Nat) : State :=
  if rail = 0 then { s with pwr := { s.pwr with coreMv := mv } } else { s with pwr := { s.pwr with slcMv := mv } }
/-- Demand on a rail: the highest regulator demand plus 30 mV, clamped to 0.50 to 0.90 V (R20, R458). -/
def railDemand (s : State) (rail : Nat) : Nat :=
  let top := ((List.range 16).map (fun k => (getDom s (rail * 16 + k)).mv)).foldl max 0
  min 900 (max 500 (top + 30))
/-- The PMIC is told to bring a rail to its demand. -/
def trackRail (s : State) (rail d : Nat) : State :=
  let cur := railMv s rail
  let dem := railDemand s rail
  let hd (op step : Nat) : Byte := BitVec.ofNat 8 (at' rail 7 + at' op 5 + step)
  if cur = dem then s
  else if cur = 0 ∨ 31 * 5 < (if cur < dem then dem - cur else cur - dem) then
    sendPmic (setRail s rail dem) ([hd 0 0] ++ natLe 2 dem) d rail (decide (cur < dem)) 0
  else if cur < dem then sendPmic (setRail s rail dem) [hd 1 ((dem - cur) / 5)] d rail true 0
  else sendPmic (setRail s rail dem) [hd 2 ((cur - dem) / 5)] d rail false 0

/-- One more raise of a domain waits for the last command of the PMIC that it waits for. -/
def joinRaise (d : Nat) : List PmicCmd → List PmicCmd
  | [] => []
  | c :: cs => if c.dom = d ∧ c.raises ≠ 0 ∧ cs.all (fun k => k.dom ≠ d || k.raises = 0) then { c with raises := c.raises + 1 } :: cs else c :: joinRaise d cs

/-- A supply raised by 10 mV up to the top of its range (R20): at the regulator where it has headroom, otherwise after
the PMIC's rail. A raise asked for while one waits for the PMIC follows it. -/
def raiseSupply (s : State) (d : Nat) : State :=
  let x := getDom s d
  let rail := if d < 16 then 0 else 1
  let cap := psMax (supplyPs x)
  let have' := x.mv + 10 * x.raiseWaits
  let mv := min cap (have' + 10)
  if cap ≤ have' then s
  else if x.raiseWaits = 0 ∧ (mv + 10 ≤ railMv s rail ∨ railMv s rail = 900) then trackRail (setMv s d mv) rail d
  else
    let dem := max (railMv s rail) (min 900 (mv + 30))
    let step := (dem - railMv s rail) / 5
    let s1 := updDom (setRail s rail dem) d (fun x => { x with raiseWaits := x.raiseWaits + 1 })
    if step = 0 ∧ x.raiseWaits ≠ 0 then { s1 with pwr := { s1.pwr with pmic := joinRaise d s1.pwr.pmic } }
    else if step = 0 ∨ 31 < step then sendPmic s1 ([BitVec.ofNat 8 (at' rail 7)] ++ natLe 2 dem) d rail true 1
    else sendPmic s1 [BitVec.ofNat 8 (at' rail 7 + at' 1 5 + step)] d rail true 1
/-- `n` raises of 10 mV made, none beyond the top of the range and none downward. -/
def raiseMv (x : Dom) (n : Nat) : Nat := max x.mv (min (psMax (supplyPs x)) (x.mv + 10 * n))
/-- Is a raise of any domain on a rail in progress (R21): one that waits for the PMIC, a change to a faster state or a wake
that has raised its supply, or a command that brings the rail up? -/
def railRaising (s : State) (rail : Nat) : Bool :=
  (List.range 16).any (fun j =>
    let x := getDom s (rail * 16 + j)
    x.raiseWaits ≠ 0 || (match x.toPs with | some p => decide (p < x.ps) | none => false) || x.state == .waking) ||
  s.pwr.pmic.any (fun c => c.rail = rail && c.up)

/-! ### RUN states (R22, R25, R384, R390) -/

/-- The slowest RUN state that a domain offers: clusters PS2, all others PS1. -/
def slowestState (d : Nat) : Nat := if d < 16 then 2 else 1
/-- The slowest state composed (R40). -/
def composedSlowest (s : State) (d : Nat) : Nat := if s.comp.isSealed then slowestPs s.comp.live d else slowestState d
/-- A domain has more than one RUN state. -/
def manyStates (d : Nat) : Bool := d < 32

/-- A change to another RUN state begins (R22): to a faster one the supply rises first, to a slower one the bias is
applied first. -/
def startPs (s : State) (d ps : Nat) : State :=
  let x := getDom s d
  if !(manyStates d) ∨ x.state ≠ .run ∨ (x.toPs.getD x.ps) = ps then s
  else
    let s1 := updDom s d (fun x => { x with toPs := some ps })
    if ps < x.ps ∧ d < 32 then
      let lvl := recordedMv s d ps
      trackRail (updDom s1 d (fun x => { x with mv := max x.mv lvl })) (if d < 16 then 0 else 1) d
    else if x.ps < ps then updDom s1 d (fun x => { x with bias := runBias ps })
    else s1
/-- PS_CHANGE_DONE: the change ends with the state's well bias; the supply of a state no faster than the one before is then
that state's recorded level, also where a change to a faster one was taken back (R22). -/
def execPsChangeDone (d : Fin 39) (s : State) : Host.Outcome State Fault Refusal :=
  let k := d.val
  let x := getDom s k
  .next (
    match x.toPs with
    | none => s
    | some ps =>
      let s1 := updDom s k (fun x => { x with ps := ps, toPs := none, bias := runBias ps, assist := runAssist ps })
      if x.ps ≤ ps then trackRail (setMv s1 k (recordedMv s k ps)) (if k < 16 then 0 else 1) k else s1)

/-! ### Canaries (R19 to R25) -/

/-- Domain of a canary. -/
def canaryDom (c : Nat) : Nat := if c < 128 then c / 8 else if c < 192 then 16 + (c - 128) / 4 else 16 + siteOfSwitch (c - 192)
def getCanary (s : State) (c : Nat) : Canary := look {} c s.pwr.canaries
def updCanary (s : State) (c : Nat) (f : Canary → Canary) : State := { s with pwr := { s.pwr with canaries := put c (f (getCanary s c)) s.pwr.canaries } }
/-- The canaries of a domain. -/
def canariesOf (d : Nat) : List Nat := (List.range 256).filter (fun c => canaryDom c = d)

/-- Does a code's class in force, whatever the detecting logic assigns, reach D (R325)? -/
def raisedToD (s : State) (code : Nat) : Bool := 3 ≤ max (reactionClass s code) (raiseClass s code)
/-- SPEED_FLOOR in the class of what the domain carries (R24), naming the canary and the domain; after a fault whose class
in force is K or C the domain goes one state slower where every floor permits it (R25). The record names both in SYNDROME,
which R334 leaves to the code and no rule lays out: the domain in bits 15:8 and the canary in bits 7:0 (DESIGN CHOICE,
assumption 58). -/
def speedFloor (s : State) (c : Nat) : State :=
  let d := canaryDom c
  let rs := if s.comp.isSealed then s.comp.live else []
  let msg (cls : Nat) (cell : Option Nat) : FaultMsg :=
    { code := 0x0801, cls := BitVec.ofNat 2 cls, source := pwrSource, cell := cell.map (BitVec.ofNat 12), syndrome := BitVec.ofNat 64 (at' d 8 + c) }
  if !(carriedOf rs d 2).isEmpty then raise s (msg 3 none)
  else
    let rt := carriedOf rs d 1
    let s1 := if rt.isEmpty then raise s (msg 0 none) else rt.foldl (fun s k => raise s (msg 2 (some k))) s
    let x := getDom s d
    if x.ps < slowestState d ∧ x.ps + 1 ≤ composedSlowest s d ∧ !raisedToD s 0x0801 then startPs (updDom s1 d (fun y => { y with slowed := x.ps + 1 })) d (x.ps + 1) else s1

/-- CANARY_SAMPLE: `pm` is the delay in per mille of the floor. -/
def execCanarySample (canary : BitVec 8) (pm : BitVec 10) (s : State) : Host.Outcome State Fault Refusal :=
  let c := canary.toNat
  let d := canaryDom c
  let n := pm.toNat
  .next (
    if (getDom s d).state ≠ .run then updCanary s c (fun x => { x with last := 0 })
    else
      let s1 := updCanary s c (fun x => { x with
        last := pm, warn := if 950 < n then satAdd x.warn 1 else x.warn, floor := if 1000 < n then satAdd x.floor 1 else x.floor
        low := if n < 850 then min 64 (x.low + 1) else 0 })
      let atTop : Bool := psMax (supplyPs (getDom s d)) ≤ (getDom s d).mv
      let s2 := if 950 < n then raiseSupply s1 d else s1
      if 1000 < n ∧ atTop then speedFloor s2 c else s2)

/-- SUPPLY_LOWER (R21). -/
def execSupplyLower (d : Fin 32) (s : State) : Host.Outcome State Fault Refusal :=
  let k := d.val
  let x := getDom s k
  let rail := if k < 16 then 0 else 1
  .next (
    if x.state = .run ∧ (canariesOf k).all (fun c => 64 ≤ (getCanary s c).low) ∧ !railRaising s rail ∧ psMin (supplyPs x) + 5 ≤ x.mv then
      let s1 := setMv s k (x.mv - 5)
      trackRail ((canariesOf k).foldl (fun s c => updCanary s c (fun y => { y with low := 0 })) s1) rail k
    else s)

/-- PMIC_ECHO: the oldest command is acknowledged; the raises that waited for its rail are made (R20, R451). -/
def execPmicEcho (s : State) : Host.Outcome State Fault Refusal :=
  .next (
    match s.pwr.pmic with
    | [] => s
    | c :: cs =>
      let s1 := { s with pwr := { s.pwr with pmic := cs, pmicOk := cs.isEmpty } }
      if c.raises = 0 then s1
      else updDom (setMv s1 c.dom (raiseMv (getDom s1 c.dom) c.raises)) c.dom (fun x => { x with raiseWaits := x.raiseWaits - c.raises }))

/-- PWR_PMIC_FAIL: the PMIC has not acknowledged a command within 10 µs; RAIL_OUT_OF_RANGE (R392, R464). -/
def execPwrPmicFail (s : State) : Host.Outcome State Fault Refusal :=
  .next (if s.pwr.pmic.any (fun c => 10000 ≤ (s.now - c.sent).toNat) then fault { s with pwr := { s.pwr with pmicOk := false } } 0x0802 pwrSource none else s)
def execRailOutOfRange (s : State) : Host.Outcome State Fault Refusal := .next (fault { s with pwr := { s.pwr with pmicOk := false } } 0x0802 pwrSource none)

/-! ### Votes (R382, R383) -/

/-- Endpoints fenced with a domain (R56). -/
def domEps (d : Nat) : List Nat :=
  if d < 32 then [d] else if d < 36 then (List.range 16).map (fun k => 0x20 + 16 * (d - 32) + k) else [0x60 + (d - 36)]
def fenceEps (s : State) (es : List Nat) : State := { s with fab := { s.fab with fences := es.foldl (fun l e => addSorted e l) s.fab.fences } }
def unfenceEps (s : State) (es : List Nat) : State := { s with fab := { s.fab with fences := s.fab.fences.filter (fun e => !(es.contains e)) } }

/-- Device vote: safe state holds every domain; NET while a stream with a safe frame exists. -/
def deviceVote (s : State) (d : Nat) : Bool :=
  s.flt.safe || (d = 36 && s.net.streams.any (fun e => e.2.state != .off && (safeRec s e.1).isSome))
def cellVotes (s : State) (d : Nat) : Nat := (s.pwr.votes.filter (fun v => v % 64 = d)).length
def voteCount (s : State) (d : Nat) : Nat := cellVotes s d + b2n (getDom s d).hvVote + b2n (deviceVote s d)

/-- Does a domain without votes stay in RUN at SLOWEST_PS (R383)? -/
def staysSlow (s : State) (d : Nat) : Bool := s.comp.isSealed && idleState s.comp.live d == 0 && voteCount s d == 0
/-- The state a domain is to run in (R383, R384, R390): its target, never slower than SLOWEST_PS, SLOWEST_PS itself where
it has no vote, or a slower one that heat calls for. The state to which a SPEED_FLOOR has moved it (R25) stays until
TARGET_PS is changed (DESIGN CHOICE, assumption 75). -/
def wantedPs (s : State) (d : Nat) : Nat :=
  let x := getDom s d
  max (if staysSlow s d then composedSlowest s d else min (max x.target x.slowed) (composedSlowest s d)) x.limited
def settlePs (s : State) (d : Nat) : State := startPs s d (wantedPs s d)

/-- RESULT given to whoever made a vote change: a cell, or `none` for the hypervisor. -/
def voteResult (s : State) (who : Option Nat) (d : Nat) (r : BitVec 3) : State :=
  match who with
  | some c => { s with pwr := { s.pwr with results := put c (r, d) s.pwr.results } }
  | none => updDom s d (fun x => { x with hvResult := r })
/-- A later vote write of the party whose withdrawal started an entry: RESULT is that of its last write. -/
def dropStarter (s : State) (d : Nat) (who : Option Nat) : State :=
  updDom s d (fun x => if x.starter = some who then { x with starter := none } else x)
/-- RESULT given to the party whose withdrawal started the entry under way. -/
def starterResult (s : State) (d : Nat) (r : BitVec 3) : State :=
  match (getDom s d).starter with
  | none => s
  | some none => updDom s d (fun x => { x with hvResult := r })
  | some (some c) => if (look (0, 0) c s.pwr.results).2 = d then voteResult s (some c) d r else s

/-- The power cleaning of an SLC site that is to go to OFF seeks the site's token (R273, R279). -/
def seekPower (s : State) (d goal : Nat) : State :=
  if 16 ≤ d ∧ d < 32 ∧ goal = 2 then
    updSite s (d - 16) (fun x => match x.holder with
      | .none => if x.qCommit then { x with qPower := true } else { x with holder := .power }
      | .power => x
      | _ => { x with qPower := true })
  else s
/-- A site that is to stay in RUN seeks its token no more. -/
def dropPower (s : State) (d : Nat) : State :=
  if 16 ≤ d ∧ d < 32 ∧ (getDom s d).state = .run then
    let s1 := updSite s (d - 16) (fun x => { x with qPower := false })
    if (getSite s (d - 16)).holder = .power then releaseToken s1 (d - 16) else s1
  else s
/-- Entry starts (R383): the power cleaning of an SLC site that goes to OFF asks for the site's token. -/
def startEntry (s : State) (d goal : Nat) (who : Option (Option Nat)) : State :=
  seekPower (updDom s d (fun x => { x with state := .quieting, goal := goal, starter := who, nextStarter := none, wanted := false, wakeAsked := false, emulated := false })) d goal

/-- A domain has lost a vote: if it was the last one, entry starts, or the domain stays in RUN at SLOWEST_PS. -/
def voteLost (s : State) (d : Nat) (who : Option Nat) : State :=
  if voteCount s d ≠ 0 ∨ !s.comp.isSealed then voteResult s who d 1
  else match idleState s.comp.live d with
    | 0 => settlePs (voteResult s who d 1) d
    | g => match (getDom s d).state with
      | .run => startEntry (voteResult s who d 2) d g (some who)
      | .waking => updDom (voteResult s who d 2) d (fun x => { x with wanted := true, starter := some who })
      | .aborting | .committed => updDom (voteResult s who d 2) d (fun x => { x with wanted := true, nextStarter := some who })
      | _ => voteResult s who d 1

/-- A wake source for a domain (R386, R387): it aborts an entry before its commit, is served after one that is
committed, and wakes a domain in DOZE or OFF. A domain whose sleep is emulated has never left RUN: its wake is complete
at once (R391). -/
def wakeDom (s : State) (d : Nat) : State :=
  let x := getDom s d
  match x.state with
  | .run => if x.emulated then updDom s d (fun x => { x with emulated := false }) else s
  | .quieting | .fencing | .settling => updDom s d (fun x => { x with state := .aborting })
  | .committed => updDom s d (fun x => { x with wakeAsked := true })
  | .doze => updDom s d (fun x => { x with state := .waking, from' := 1 })
  | .off => updDom s d (fun x => { x with state := .waking, from' := 2 })
  | .aborting | .waking => s

/-- A vote for a domain asserted: it wakes, or returns from SLOWEST_PS to its target. -/
def voteGained (s : State) (d : Nat) (who : Option Nat) : State :=
  settlePs (voteResult (dropPower (updDom (wakeDom (dropStarter s d who) d) d (fun x => { x with wanted := false, nextStarter := none })) d) who d 1) d

/-- Does a cell have a VOTE record for a domain? -/
def hasVote (s : State) (c d : Nat) : Bool :=
  s.comp.isSealed && (findRec s.comp.live tVOTE (fun r => ru16 r 0 = c && ru8 r 2 = d)).isSome

/-- A vote write of a cell: OP 1 ASSERT, 2 WITHDRAW. -/
def cellVote (s : State) (a : Access) (op d : Nat) : State :=
  match a.cell with
  | none => refuse s a 0x0803 pwrSource (pwrBase + 0x1000)
  | some cell =>
    let c := cell.toNat
    let key := c * 64 + d
    if !(hasVote s c d) then refuse (voteResult s (some c) d 5) a 0x0803 pwrSource (pwrBase + 0x1000)
    else if op = 1 then voteGained { s with pwr := { s.pwr with votes := addSorted key s.pwr.votes } } d (some c)
    else if s.pwr.votes.contains key then
      voteLost { s with pwr := { s.pwr with votes := s.pwr.votes.filter (fun v => v ≠ key) } } d (some c)
    else voteResult (dropStarter s d (some c)) (some c) d 1

/-- A write of PWR_VOTE: a reserved DOMAIN or OP is ignored and recorded (R5). -/
def writeVote (s : State) (a : Access) (v m : Word) : State :=
  let pa := pwrBase + 0x1000
  let j := judgeReg s a .pwrVote pa false 0 v m
  let s1 := recordCodes s a pa j.codes
  if !j.codes.isEmpty ∨ fld j.cmd 47 46 = 0 then s1 else cellVote s1 a (fld j.cmd 47 46) (fld j.cmd 45 40)

/-- PWR_VOTE_ASSERT and PWR_VOTE_WITHDRAW: PWR_VOTE written with the given OP and the value's DOMAIN. -/
def execPwrVoteAssert (a : Access) (v : Word) (s : State) : Host.Outcome State Fault Refusal :=
  .next (writeVote s a (putFld v 47 46 1) (BitVec.allOnes 64))
def execPwrVoteWithdraw (a : Access) (v : Word) (s : State) : Host.Outcome State Fault Refusal :=
  .next (writeVote s a (putFld v 47 46 2) (BitVec.allOnes 64))

/-- Domain selected by PWR_DOM_SEL. -/
def selDom (s : State) : Nat := fld (look 0 (pwrBase + 0x10) s.regs) 5 0

/-- PWR_DOM_CTRL as read for a domain. -/
def domCtrlWord (s : State) (d : Nat) : Word :=
  let x := getDom s d
  let w := stored s .pwrDomCtrl (bank (pwrBase + 0x18) d)
  putFld (putFld (putFld w 12 10 x.hvResult.toNat) 8 8 (b2n x.hvVote)) 1 0 (if manyStates d then x.target else 1)

/-- A write of PWR_DOM_CTRL (R382, R384). -/
def writeDomCtrl (s : State) (a : Access) (v m : Word) : State :=
  let pa := pwrBase + 0x18
  let d := selDom s
  let cur := domCtrlWord s d
  let j := judgeReg s a .pwrDomCtrl pa false cur v m
  let t := fld j.word 1 0
  let badT : Bool := t ≠ fld cur 1 0 && (!(manyStates d) || (t = 2 && 16 ≤ d))
  let slowT : Bool := t ≠ fld cur 1 0 && !badT && composedSlowest s d < t
  let s1 := recordCodes (store s (bank pa d) (putFld (putFld (putFld j.word 12 10 0) 8 8 1) 1 0 1)) a pa (j.codes ++ (if badT then [0x0003] else []))
  let s2 := if slowT then refuse s1 a 0x0803 pwrSource pa else s1
  let s3 := if badT ∨ slowT ∨ t = fld cur 1 0 then s2 else settlePs (updDom s2 d (fun x => { x with target := t, slowed := 0 })) d
  if bit j.word 8 = bit cur 8 then s3
  else if bit j.word 8 then voteGained (updDom s3 d (fun x => { x with hvVote := true })) d none
  else voteLost (updDom s3 d (fun x => { x with hvVote := false })) d none

/-- HV_VOTE_WRITE and TARGET_PS_WRITE: PWR_DOM_CTRL written with that field of the value. -/
def execHvVoteWrite (a : Access) (v : Word) (s : State) : Host.Outcome State Fault Refusal := .next (writeDomCtrl s a v 0x100)
def execTargetPsWrite (a : Access) (v : Word) (s : State) : Host.Outcome State Fault Refusal := .next (writeDomCtrl s a v 0x3)

/-! ### Entry (R385, R386, R391) -/

/-- Is a domain quiet (R385 step 2)? A cluster whose cores have still an interrupt to take waits for the work it brings
(R386). -/
def isQuiet (s : State) (d goal : Nat) : Bool :=
  if d < 16 then (List.range 8).all (fun k =>
    let c := getCore s (8 * d + k)
    c.task.isNone && (c.mode = .held || c.mode = .free) && !c.sr1.valid && !c.sr2.valid && !c.sr3.valid && c.sbuf.isEmpty && c.irqs.isEmpty) &&
    (!(getClu s d).hvEnable || (getClu s d).hvQueue.isEmpty)
  else if d < 32 then goal ≠ 2 || (getSite s (d - 16)).holder = .power
  else if d < 36 then true
  else if d = 36 then s.net.ports.all (fun p => p.2.wire.isNone && p.2.held.isNone) && s.net.hdrs.isEmpty
  else if d = 37 then s.peri.posted.isEmpty && s.peri.cpl.isNone
  else s.peri.dma.all (fun c => c.2.op.st ≠ 1)

/-- The cleaning of step 2: L1 data and L2 of a cluster that goes to OFF, or the whole slice of a site. Every dirty
line's bytes are those memory holds, so that HBM now holds them too. -/
def stepTwoClean (s : State) (d goal : Nat) : State :=
  if goal ≠ 2 then s
  else if d < 16 then
    let ls := (getL2 s d).map (·.line) ++ (List.range 8).flatMap (fun k => (getCore s (8 * d + k)).l1d.map (·.line))
    ls.foldl (fun s l => dropL2 s d l) s
  else if d < 32 then
    let s1 := ((getSite s (d - 16)).lines.map (·.line)).foldl (fun s l => evictSlc s (d - 16) l) s
    releaseToken (updSite s1 (d - 16) (fun x => { x with lines := [] })) (d - 16)
  else s

/-- DOMAIN_ENTRY_QUIET: the domain is fenced. A domain whose entry was aborted and that still has no vote starts here
again (R386). -/
def execDomainEntryQuiet (d : Fin 39) (s : State) : Host.Outcome State Fault Refusal :=
  let k := d.val
  let x := getDom s k
  let again : Bool := x.state = .run && x.wanted && voteCount s k = 0 && s.comp.isSealed && idleState s.comp.live k ≠ 0
  let goal := if again then idleState s.comp.live k else x.goal
  .next (
    if (x.state = .quieting ∨ again) ∧ isQuiet s k goal then
      updDom (fenceEps (stepTwoClean s k goal) (domEps k)) k (fun x => { x with
        state := .fencing, goal := goal, wanted := false, starter := x.nextStarter.or x.starter, nextStarter := none })
    else if again then seekPower s k goal
    else s)

/-- DOMAIN_ENTRY_FENCED: every transaction accepted at the domain's endpoints has completed (R76). -/
def execDomainEntryFenced (d : Fin 39) (s : State) : Host.Outcome State Fault Refusal :=
  let k := d.val
  .next (
    if (getDom s k).state = .fencing ∧ s.fab.txns.all (fun t => t.done.isSome || !((domEps k).contains t.dst)) then
      let s1 := updDom s k (fun x => { x with state := .settling })
      if 32 ≤ k ∧ k < 36 then (List.range 16).foldl (fun s j => sleepStart s (16 * (k - 32) + j)) s1 else s1
    else s)

/-- Sleep emulation is in force (R435). -/
def sleepEmulated (s : State) : Bool := s.dbg.auth = .opened && bit (stored s .dbgCtrl 0xF8000070000) 8

/-- Held events of a cluster handed to the scheduler and the hypervisor, in their order (R387). -/
def deliverHeld (s : State) (d : Nat) : State :=
  let es := look [] d s.pwr.held
  let hs := look [] d s.pwr.heldHv
  { s with
    sched := { s.sched with evTasks := es ++ s.sched.evTasks, evHv := hs ++ s.sched.evHv }
    pwr := { s.pwr with held := drop' d s.pwr.held, heldHv := drop' d s.pwr.heldHv } }

/-- DOMAIN_ENTRY_COMMIT. Under sleep emulation entry reports ENTERED and the domain stays in RUN (R391). -/
def execDomainEntryCommit (d : Fin 39) (s : State) : Host.Outcome State Fault Refusal :=
  let k := d.val
  let ready : Bool := !(32 ≤ k && k < 36) || (List.range 16).all (fun j => asleep s (16 * (k - 32) + j))
  .next (
    if (getDom s k).state = .settling ∧ ready then
      if sleepEmulated s then
        let s1 := if 32 ≤ k ∧ k < 36 then (List.range 16).foldl (fun s j => sleepStop s (16 * (k - 32) + j)) s else s
        let s2 := updDom (unfenceEps s1 (domEps k)) k (fun x => { x with state := .run, emulated := true })
        raiseEvent (deliverHeld (starterResult s2 k 3) k) 16
      else updDom s k (fun x => { x with state := .committed })
    else s)

/-- A cluster's registers outside the retention island lost: its scheduler keeps the classes that wait in it (R380). -/
def loseClu (s : State) (d : Nat) : State :=
  let b := 0xF8000100000 + d * 0x10000
  updClu { s with regs := s.regs.filter (fun e => !(b ≤ e.1 % 2 ^ 44 && e.1 % 2 ^ 44 < b + 0x10000)) } d (fun c => { ({} : Clu) with hvQueue := c.hvQueue, openFrets := c.openFrets })
/-- What a domain loses in OFF (R380). -/
def loseContent (s : State) (d : Nat) : State :=
  if d < 16 then
    (List.range 8).foldl (fun s k => updCore s (8 * d + k) (fun c =>
      { ({} : Core) with mode := c.mode, level := if c.mode = .free then 0 else 3, tab2 := c.tab2, tab3 := c.tab3 })) (loseClu s d)
  else if d < 32 then
    let b := scratchBase + (d - 16) * 0x200000
    updSite (zeroRange s b 0x200000) (d - 16) (fun x => { x with lines := [], order := [], marks := [] })
  else if d < 36 then
    (List.range 16).foldl (fun s k =>
      let m := 16 * (d - 32) + k
      { (zeroChannel s m) with hbm := put m { ({} : Hmc) with ce := (getHmc s m).ce, ue := (getHmc s m).ue } (zeroChannel s m).hbm }) s
  else if d = 36 then
    { s with net := { s.net with rx := [], tx := [], can := [], hostRx := {}, hostTx := {}, frer := [], ports := [], watch := [], hdrs := [], reports := [] }
             regs := s.regs.filter (fun e => !(netBase ≤ e.1 % 2 ^ 44 && e.1 % 2 ^ 44 < netBase + 0x100000)) }
  else if d = 37 then
    { s with peri := { s.peri with pcie := [], doorbell := 0, posted := [] }
             regs := s.regs.filter (fun e => !(0xF8000800000 ≤ e.1 % 2 ^ 44 && e.1 % 2 ^ 44 < 0xF8000A00000))
             iommu := {} }
  else
    { s with peri := { s.peri with dma := [], serial := [], ufs := [] }
             regs := s.regs.filter (fun e => !(0xF8000A00000 ≤ e.1 % 2 ^ 44 && e.1 % 2 ^ 44 < 0xF8000B00000)) }

/-- DOMAIN_ENTRY_DONE: DOZE or OFF is reached, ENTERED, event 16; a wake asked for since the commit is served. -/
def execDomainEntryDone (d : Fin 39) (s : State) : Host.Outcome State Fault Refusal :=
  let k := d.val
  let x := getDom s k
  .next (
    if x.state = .committed then
      let s1 := updDom s k (fun x => { x with
        state := if x.goal = 2 then .off else .doze, toPs := none, raiseWaits := 0
        mv := if 32 ≤ k then 0 else if x.goal = 2 then 0 else 500
        bias := if 32 ≤ k ∧ k < 36 then x.bias else if x.goal = 2 then .none else .reverse
        assist := if 32 ≤ k ∧ k < 36 then x.assist else if x.goal = 2 then .unset else .readOff })
      let s2 := if x.goal = 2 then loseContent s1 k else s1
      let s3 := raiseEvent (starterResult s2 k 3) 16
      if x.wakeAsked then wakeDom s3 k else s3
    else s)

/-- ENTRY_ABORT_DONE: fences cleared, the domain in RUN in the state it had, ENTRY_ABORTED, event 17 (R386). -/
def execEntryAbortDone (d : Fin 39) (s : State) : Host.Outcome State Fault Refusal :=
  let k := d.val
  .next (
    if (getDom s k).state = .aborting then
      let s1 := if 32 ≤ k ∧ k < 36 then (List.range 16).foldl (fun s j => sleepStop s (16 * (k - 32) + j)) s else s
      let s2 := if 16 ≤ k ∧ k < 32 then
          (if (getSite s1 (k - 16)).holder = .power then releaseToken s1 (k - 16) else updSite s1 (k - 16) (fun x => { x with qPower := false }))
        else s1
      let s3 := updDom (unfenceEps s2 (domEps k)) k (fun x => { x with state := .run, wanted := true })
      raiseEvent (deliverHeld (starterResult s3 k 4) k) 17
    else s)

/-! ### Heat (R317, R390) -/

def limitC (s : State) (d : Nat) : Int := (fld (stored s .pwrDomCtrl (bank (pwrBase + 0x18) d)) 23 16 : Nat)
def hystC (s : State) (d : Nat) : Int := (fld (stored s .pwrDomCtrl (bank (pwrBase + 0x18) d)) 27 24 : Nat)

/-- THERMAL_DEADLINE_CONFLICT (R317): D for a safety cell, K for each real-time cell not yet FAULTED; true where the move
may be made. SYNDROME, the domain, is the model's (DESIGN CHOICE, assumption 58). -/
def thermConflict (s : State) (d : Nat) : State × Bool :=
  let rs := if s.comp.isSealed then s.comp.live else []
  let msg (cls : Nat) (cell : Option Nat) : FaultMsg :=
    { code := 0x0708, cls := BitVec.ofNat 2 cls, source := pwrSource, cell := cell.map (BitVec.ofNat 12), syndrome := BitVec.ofNat 64 d }
  match carriedOf rs d 2 with
  | c :: _ => (raise s (msg 3 (some c)), false)
  | [] =>
    match (carriedOf rs d 1).filter (fun c => cellState s c ≠ .faulted) with
    | [] => (s, true)
    | cs => (cs.foldl (fun s c => raise s (msg 2 (some c))) s, false)

/-- One decision of the thermal controller for a domain in RUN (R390). -/
def thermStep (s : State) (d : Nat) : State :=
  let x := getDom s d
  let t := domTemp s d
  let s0 := if t ≤ limitC s d ∧ x.crossed then updDom s d (fun x => { x with crossed := false }) else s
  if x.state ≠ .run ∨ (x.thermAt ≠ 0 ∧ (s.now - x.thermAt).toNat < 100000) then s0
  else if limitC s d < t then
    if slowestState d ≤ x.ps ∨ !(manyStates d) then
      if x.crossed then s0 else raiseEvent (updDom s0 d (fun x => { x with crossed := true })) 18
    else
      let next := x.ps + 1
      let (s1, ok) := if composedSlowest s d < next then thermConflict s0 d else (s0, true)
      let s2 := updDom s1 d (fun x => { x with thermAt := s.now })
      if ok then settlePs (updDom s2 d (fun x => { x with limited := next })) d else s2
  else if t < limitC s d - hystC s d ∧ x.limited ≠ 0 then
    let lim := x.limited - 1
    settlePs (updDom s0 d (fun x => { x with thermAt := s.now, limited := if lim ≤ x.target then 0 else lim })) d
  else s0

/-- Domain of a sensor; `none` for AON. -/
def sensorDom (k : Nat) : Option Nat :=
  if k < 32 then some (k / 2) else if k < 48 then some (16 + (k - 32)) else if k < 56 then some (32 + (k - 48) / 2)
  else if k < 62 then some (36 + (k - 56) / 2) else none

/-- THERMAL_SAMPLE. -/
def execThermalSample (sensor : BitVec 6) (temp : BitVec 8) (s : State) : Host.Outcome State Fault Refusal :=
  let k := sensor.toNat
  let old : Sensor := look {} k s.pwr.sensors
  let new : Sensor := { temp := temp, max := if old.max.slt temp then temp else old.max }
  let s1 := { s with pwr := { s.pwr with sensors := put k new s.pwr.sensors } }
  .next (match sensorDom k with | none => s1 | some d => thermStep s1 d)

/-- THERMAL_STEP_TIMER. -/
def execThermalStepTimer (d : Fin 39) (s : State) : Host.Outcome State Fault Refusal := .next (thermStep s d.val)

/-! ### Composition, safe state -/

/-- Domains without any vote are to enter their idle state, and every domain runs in the state it then is to run in. -/
def loseVotes (s : State) : State :=
  (List.range 39).foldl (fun s d => settlePs (if voteCount s d = 0 ∧ idleState s.comp.live d ≠ 0 then updDom s d (fun x => { x with wanted := true }) else s) d) s
/-- SEAL: every cell vote is held (R382). A domain that then has no vote enters its idle state. -/
def pwrSeal (s : State) : State :=
  let s1 := { s with pwr := { s.pwr with votes := (recsOf s.comp.live tVOTE).foldl (fun l r => addSorted (ru16 r 0 * 64 + ru8 r 2) l) [] } }
  loseVotes s1
/-- COMMIT: the votes of removed cells and dropped records are withdrawn, and so is NET's device vote where no stream with
a safe frame is left. -/
def pwrCommit (s : State) : State :=
  let gone := s.pwr.votes.filter (fun v => (findRec s.comp.live tVOTE (fun r => ru16 r 0 = v / 64 && ru8 r 2 = v % 64)).isNone)
  loseVotes { s with pwr := { s.pwr with votes := s.pwr.votes.filter (fun x => !(gone.contains x)) } }
/-- RELEASE: the votes of added cells and records are held, and NET's device vote where a stream with a safe frame has come
into being. -/
def pwrRelease (s : State) (old : List Rec) : State :=
  let s1 := ((recsOf s.comp.live tVOTE).filter (fun r => !(old.contains r))).foldl (fun s r =>
    let d := ru8 r 2
    updDom (wakeDom { s with pwr := { s.pwr with votes := addSorted (ru16 r 0 * 64 + d) s.pwr.votes } } d) d (fun x => { x with wanted := false })) s
  if deviceVote s1 36 then updDom (wakeDom s1 36) 36 (fun x => { x with wanted := false }) else s1
/-- Safe state: entries before their commit abort, and every sleeping domain but a cluster wakes (R391). -/
def pwrSafe (s : State) : State :=
  (List.range 39).foldl (fun s d =>
    let x := getDom s d
    match x.state with
    | .doze | .off | .committed => if d < 16 then s else wakeDom s d
    | _ => wakeDom s d) s

/-! ### Registers -/

def domCode (x : Dom) (d : Nat) : Nat :=
  match x.state with
  | .run => if manyStates d then x.ps else 1
  | .doze => 3 | .off => 4
  | .quieting | .fencing | .settling | .committed | .aborting => 5
  | .waking => 6

/-- A PWR register as read. -/
def pwrRead (s : State) (a : Access) (r : Reg) (pa : Nat) : Word :=
  match r with
  | .pwrStatus => BitVec.ofNat 64 (at' s.pwr.slcMv 32 + at' s.pwr.coreMv 16 + b2n s.pwr.pmicOk)
  | .pwrDomCtrl => domCtrlWord s (selDom s)
  | .pwrDomStatus =>
    let d := selDom s
    let x := getDom s d
    BitVec.ofNat 64 (at' (if d < 32 then x.mv else 0) 40 + at' ((domTemp s d) % 256).toNat 32 + at' (voteCount s d) 8 +
      at' (b2n (x.limited ≠ 0)) 4 + at' (b2n x.emulated) 3 + domCode x d)
  | .pwrCanary =>
    let c := getCanary s (fld (look 0 (pwrBase + 0x28) s.regs) 7 0)
    let run : Bool := (getDom s (canaryDom (fld (look 0 (pwrBase + 0x28) s.regs) 7 0))).state = .run
    BitVec.ofNat 64 (at' c.floor.toNat 32 + at' c.warn.toNat 16 + (if run then c.last.toNat else 0))
  | .pwrTherm =>
    let k := fld (look 0 (pwrBase + 0x38) s.regs) 5 0
    let x := look {} k s.pwr.sensors
    BitVec.ofNat 64 (at' ((sensorDom k).getD 0x3F) 24 + at' x.max.toNat 16 + x.temp.toNat)
  | .pwrVote =>
    match a.cell with
    | none => 0
    | some c =>
      let res := look ((0 : BitVec 3), 0) c.toNat s.pwr.results
      BitVec.ofNat 64 (at' res.1.toNat 61 + at' res.2 52 +
        ((List.range 39).map (fun d => if s.pwr.votes.contains (c.toNat * 64 + d) then 2 ^ d else 0)).foldl (· + ·) 0)
  | _ => stored s r pa

/-- What a read of a counting register clears. -/
def pwrClear (s : State) (r : Reg) (m : Word) : State :=
  match r with
  | .pwrCanary => updCanary s (fld (look 0 (pwrBase + 0x28) s.regs) 7 0) (fun c => { c with
      floor := if m.getLsbD 32 then 0 else c.floor, warn := if m.getLsbD 16 then 0 else c.warn })
  | .pwrTherm =>
    let k := fld (look 0 (pwrBase + 0x38) s.regs) 5 0
    if m.getLsbD 16 then { s with pwr := { s.pwr with sensors := put k { look {} k s.pwr.sensors with max := 0 } s.pwr.sensors } } else s
  | _ => s

/-- A write of a PWR register. -/
def pwrWrite (s : State) (a : Access) (r : Reg) (pa : Nat) (v m : Word) : State :=
  match r with
  | .pwrCtrl => writeCtrl s a r pa v m
  | .pwrDomSel | .pwrCanarySel | .pwrThermSel => writePlain s a r pa pa false v m
  | .pwrDomCtrl => writeDomCtrl s a v m
  | .pwrVote => writeVote s a v m
  | _ => s

end Sys2Proof.Machine
end

