-- ==== Sys2Proof/Machine/Boot.lean ====
section
/-! DEFINITION. Boot: lifecycle and fuses, the key gate, the boot ROM's sources and slots, the recovery loader, the
release of cores, and the BOOT/KEY registers (chapter 19). -/
namespace Sys2Proof.Machine

def bootBase : Nat := 0xF8000060000
def bootSource : BitVec 16 := src 0x63 5 0
def updBoot (s : State) (f : BootSt → BootSt) : State := { s with boot := f s.boot }

/-! ### Fuses (R393, R394, R401, R405) -/

/-- BOOT_FUSE as fused, with the lifecycle state in force. -/
def fuseSettings (s : State) : Word := putFld (Config.fuseWord 0 &&& 0xFFFFFFFF0F) 1 0 s.boot.lc.toNat
def fusedLc (s : State) : BitVec 2 := s.boot.lcBlown.getD (BitVec.ofNat 2 (fld (Config.fuseWord 0) 1 0))
def forerunnerFuse : Bool := bit (Config.fuseWord 0) 2
def strapLock : Bool := bit (Config.fuseWord 0) 3
/-- BOOT_ROLLBACK.MIN. -/
def rollbackMin (s : State) : Nat := ((Config.fuseWord 1).setWidth 32 ||| s.boot.minBlown).toNat
/-- Entries of SRC_LIST up to its end. -/
def fusedList : Nat → List Nat
  | 0 => []
  | n + 1 =>
    let i := 5 - n
    let e := fld (Config.fuseWord 0) (19 + 4 * i) (16 + 4 * i)
    if 4 < e then [] else e :: fusedList n
/-- The source list of a boot (R401). -/
def srcList (s : State) : List Nat :=
  let b := s.boot.strap.toNat
  if b < 5 then [b] else if b = 5 then [] else fusedList 6

/-! ### The key gate (R396, R397) -/

def getRegion (s : State) (r : Nat) : KgRegion := look {} r s.boot.regions
def setRegion (s : State) (r : Nat) (g : KgRegion) : State := updBoot s (fun b => { b with regions := put r g b.regions })
/-- Does a region lie wholly in scratch, in HBM or in the commanding pair's SRAM? -/
def kgPlace (pair base len : Nat) : Bool :=
  base + len ≤ hbmLimit || (scratchBase ≤ base && base + len ≤ scratchLimit) ||
  (0xF0040100000 + pair * 0x80000 ≤ base && base + len ≤ 0xF0040180000 + pair * 0x80000)

/-- A check commanded (R397): BUSY, CLOSED or refused, or the region is locked and its check starts. The composition
engine's own region counts among those it may not overlap (R396). -/
def startCheck (s : State) (a : Access) (ecdsa : Bool) : State :=
  let r := s.boot.kgSel
  let g := getRegion s r
  let res (s : State) (x : BitVec 3) : State := updBoot s (fun b => { b with kgResult := x })
  if s.boot.checking.isSome then res s 1
  else if (!ecdsa && (s.boot.unverified || s.boot.lc == 3)) || (ecdsa && s.boot.lc == 3) then res s (if ecdsa then 3 else 2)
  else if g.state ≠ .free ∨ g.base % 4096 ≠ 0 ∨ g.len = 0 ∨ !(kgPlace (initUnit a.init) g.base g.len) ∨
      s.boot.regions.any (fun e => e.1 ≠ r && e.2.state ≠ .free && pagesMeet g.base g.len e.2.base e.2.len) ∨
      s.comp.locked.any (fun p => pagesMeet g.base g.len (p * 4096) 1) then res s 3
  else res (updBoot (setRegion s r { g with state := .locked }) (fun b => { b with checking := some (r, ecdsa) })) 0

/-- UNLOCK: the region becomes FREE; not while its check runs. -/
def unlockRegion (s : State) : State :=
  let r := s.boot.kgSel
  if s.boot.checking.isSome then updBoot s (fun b => { b with kgResult := 1 })
  else updBoot (setRegion s r { getRegion s r with state := .free }) (fun b => { b with kgResult := 0 })

/-- A write of BOOT_KG_CMD with an OP, by a Mladette pair only. -/
def kgCommand (s : State) (a : Access) (op : Nat) : State :=
  if !(isMld a) then refuse s a 0x0001 bootSource (bootBase + 0x48)
  else match op with
    | 1 => startCheck s a false
    | 2 => startCheck s a true
    | 3 => unlockRegion s
    | _ => s

def execCheckHmac (a : Access) (_v : Word) (s : State) : Host.Outcome State Fault Refusal := .next (kgCommand s a 1)
def execCheckEcdsa (a : Access) (_v : Word) (s : State) : Host.Outcome State Fault Refusal := .next (kgCommand s a 2)
def execUnlock (a : Access) (_v : Word) (s : State) : Host.Outcome State Fault Refusal := .next (kgCommand s a 3)

/-- The fields and the signature of a recovery image (R407). -/
def recoveryOk (s : State) (base len : Nat) : Bool :=
  let f (o n : Nat) : Nat := rdNat s (base + o) n
  let code := f 0x0C 4
  f 0 4 = 0x59564352 && f 4 1 = 1 && f 5 1 < 8 && (f 5 1).testBit s.boot.lc.toNat && f 6 2 = 0x9140 && f 8 1 = 0x20 && f 9 3 = 0 &&
  f 0x10 4 % 8 = 0 && 0x100 ≤ f 0x10 4 && f 0x14 12 = 0 && f 0x91 111 = 0 && 0x100 + code + 96 ≤ len &&
  (rdBytes s (base + 0x20) 16 == List.replicate 16 0 || rdBytes s (base + 0x20) 16 == uidBytes) &&
  sha384 (rdBytes s (base + 0x30) 97) == customerKeyHash &&
  ecdsaOk (rdBytes s (base + 0x30) 97) (rdBytes s base (0x100 + code)) (rdBytes s (base + 0x100 + code) 96)

/-! ### The boot ROM (R398 to R404) -/

/-- A slot as the ROM reads it: the bytes from an offset on. A host delivers its slots into scratch; those of a flash or a
UFS stand outside the device, and what they hold at a boot is free (DESIGN CHOICE, assumption 74). -/
def memSlot (s : State) (base o n : Nat) : List Byte := rdBytes s (base + o) n
def flashSlot (draw source slot o n : Nat) : List Byte := (List.range n).map (fun i => Config.flashByte draw source slot (o + i))
/-- A field of a slot. -/
def slotNat (b : Nat → Nat → List Byte) (o n : Nat) : Nat := leNat (b o n)
/-- A part entry is unused: all zero. -/
def partUsed (b : Nat → Nat → List Byte) (i : Nat) : Bool := slotNat b (0x40 + 80 * i) 80 ≠ 0
def partKind (b : Nat → Nat → List Byte) (i : Nat) : Nat := slotNat b (0x40 + 80 * i) 1
def partOff (b : Nat → Nat → List Byte) (i : Nat) : Nat := slotNat b (0x44 + 80 * i) 4
def partLen (b : Nat → Nat → List Byte) (i : Nat) : Nat := slotNat b (0x48 + 80 * i) 4
def partPa (b : Nat → Nat → List Byte) (i : Nat) : Nat := slotNat b (0x50 + 80 * i) 8
def partEntry (b : Nat → Nat → List Byte) (i : Nat) : Nat := slotNat b (0x58 + 80 * i) 8

/-- Ranges that do not overlap pairwise. -/
def apart : List (Nat × Nat) → Bool
  | [] => true
  | (a, n) :: t => t.all (fun x => a + n ≤ x.1 || x.1 + x.2 ≤ a) && apart t

/-- Where a part's copy may lie, and whether it has an ENTRY (R399). -/
def partPlace (kind pa len : Nat) : Bool :=
  match kind with
  | 1 => 0xF0040100000 ≤ pa && pa + len ≤ 0xF0040100000 + 0x78000
  | 5 => 0xF0040180000 ≤ pa && pa + len ≤ 0xF0040200000
  | 2 | 3 | 4 | 6 => pa + len ≤ hbmLimit || (scratchBase ≤ pa && pa + len ≤ scratchLimit)
  | _ => false
def partOk (b : Nat → Nat → List Byte) (i : Nat) : Bool :=
  let k := partKind b i
  let e := partEntry b i
  partPlace k (partPa b i) (partLen b i) && slotNat b (0x41 + 80 * i) 3 = 0 && slotNat b (0x4C + 80 * i) 4 = 0 &&
  partOff b i % 8 = 0 && 0x300 ≤ partOff b i && 1 ≤ partLen b i && partPa b i % 4096 = 0 &&
  partOff b i + partLen b i ≤ slotNat b 0x10 4 &&
  (if k = 1 ∨ k = 2 ∨ k = 5 then e % 8 = 0 && partPa b i ≤ e && e < partPa b i + partLen b i else e = 0)

/-- Check 2 of R400. -/
def headerForm (b : Nat → Nat → List Byte) : Bool :=
  let n := slotNat b 0x18 1
  let ps := List.range n
  let count (k : Nat) : Nat := (ps.filter (fun i => partKind b i = k)).length
  slotNat b 0 4 = 0x544F4F42 && slotNat b 4 1 = 1 && slotNat b 6 2 = 0x300 && slotNat b 0xC 4 = 0 &&
  slotNat b 0x17 1 < 8 && slotNat b 0x19 7 = 0 && slotNat b 0x30 16 = 0 && slotNat b 0x220 176 = 0 &&
  3 ≤ n && n ≤ 6 && (List.range 6).all (fun i => decide (i < n) || !(partUsed b i)) &&
  ps.all (partOk b) && count 1 = 1 && count 2 = 1 && count 3 ≤ 1 && count 4 = 1 && count 5 ≤ 1 &&
  apart (ps.map (fun i => (partOff b i, partLen b i))) && apart (ps.map (fun i => (partPa b i, partLen b i)))

/-- The number of a slot's STAGE1 part. -/
def stage1 (b : Nat → Nat → List Byte) : Nat := ((List.range 6).find? (fun i => partKind b i = 1)).getD 0
/-- The bytes of a slot's STAGE1. -/
def stage1Bytes (b : Nat → Nat → List Byte) : List Byte := b (partOff b (stage1 b)) (partLen b (stage1 b))

/-- Cause of a slot of which `got` bytes can be read (R400): the first check that fails. -/
def slotCause (s : State) (b : Nat → Nat → List Byte) (got : Nat) (skipped : Bool) : Nat :=
  let i := stage1 b
  if skipped then 8
  else if got < 0x300 then 7
  else if !(headerForm b) then 1
  else if slotNat b 0x14 2 ≠ 0x9140 ∨ slotNat b 0x16 1 ≠ 0x20 then 2
  else if !((slotNat b 0x17 1).testBit s.boot.lc.toNat) then 3
  else if macOf s (b 0 0x2D0) ≠ b 0x2D0 48 then 4
  else if slotNat b 8 4 < rollbackMin s then 5
  else if got < partOff b i + partLen b i then 7
  else if macOf s (stage1Bytes b) ≠ b (0x60 + 80 * i) 48 then 6
  else 0
/-- Does a slot present a header: it passes checks 1 to 3, whether or not the latch skips it. -/
def presents (s : State) (b : Nat → Nat → List Byte) (got : Nat) : Bool :=
  let c := slotCause s b got false
  0x300 ≤ got && c ≠ 1 && c ≠ 2

/-- A core at its reset entry state (R185, R409): L3, every save set clear, every table unsealed. -/
def coreStart (s : State) (c pc : Nat) : State :=
  setCore s c { ({} : Core) with mode := .run, pc := BitVec.ofNat 64 pc, fetchPc := BitVec.ofNat 64 pc }

/-- STAGE1 copied to its LOAD_PA (R400). -/
def copyStage1 (s : State) (b : Nat → Nat → List Byte) : State := wrBytes s (partPa b (stage1 b)) (stage1Bytes b)
/-- A slot that comes to check 7 has its STAGE1 copied before it (R400). -/
def tryStage1 (s : State) (b : Nat → Nat → List Byte) (cause : Nat) : State := if cause = 0 ∨ cause = 6 then copyStage1 s b else s

/-- Does the ROM wait for a source, or run the recovery loader? -/
def romWaits (s : State) : Bool := s.boot.rom = .waiting || s.boot.rom = .hello || s.boot.rom = .receiving || s.boot.rom = .verifying
/-- The ROM has kicked the device watchdog throughout its waits and the recovery loader (R406), the last time as it hands
over; how often is not stated, so the level that WDO then has is free (DESIGN CHOICE, assumption 44). -/
def romKick (s : State) : State :=
  let d := drawFree s
  if s.time.devTripped then s
  else { d.2 with time := { s.time with devLast := s.now, wdo := Config.freeBit d.1 } }

/-- A slot runs: STAGE1 stands at its LOAD_PA, in a region that its check left CHECKED, or FAILED where a forerunner runs;
BOOT_STATUS is written and locked, and pair 0 branches to STAGE1.ENTRY (R403, R408). -/
def runSlot (s : State) (b : Nat → Nat → List Byte) (isB tie fore : Bool) (ca cb : Nat) : State :=
  let i := stage1 b
  let s1 := setRegion (copyStage1 s b) 2 { base := partPa b i, len := partLen b i, state := if fore then .failed else .checked }
  let s2 := updBoot s1 (fun x => { x with
    seq := BitVec.ofNat 32 (slotNat b 8 4), failA := BitVec.ofNat 4 ca, failB := BitVec.ofNat 4 cb, slot := isB, seqTie := tie
    source := BitVec.ofNat 4 ((srcList s).getD s.boot.listPos 0xF), srcIndex := BitVec.ofNat 3 s.boot.listPos
    unverified := x.unverified || fore, statusLock := true, rom := .done })
  let s3 := if fore then fault s2 0x0B01 bootSource none else s2
  coreStart (romKick (netRefresh s3)) 128 (partEntry b i)

/-- The recovery loader starts (R406). -/
def startRecovery (s : State) : State := updBoot s (fun x => { x with rom := .hello })

/-- The source at the ROM's place of the list. -/
def curSource (s : State) : Option Nat := (srcList s)[s.boot.listPos]?

/-- The slots of a source judged, their FAIL causes set, and the boot decided (R400 to R404); false where neither presents a
header. `lock` says what is locked before the checks. -/
def judgePair (s : State) (lock : State → State) (a b : Nat → Nat → List Byte) (ga gb : Nat) : State × Bool :=
  let skip (x : Bool) : Bool := x && some s.boot.skipSrc.toNat == curSource s
  let ca := slotCause s a ga (skip s.boot.skipA)
  let cb := slotCause s b gb (skip s.boot.skipB)
  let fails (s : State) : State := updBoot s (fun x => { x with failA := BitVec.ofNat 4 ca, failB := BitVec.ofNat 4 cb })
  let s1 := tryStage1 (tryStage1 (fails (lock s)) a ca) b cb
  let sa := slotNat a 8 4
  let sb := slotNat b 8 4
  let seqOk (x : Nat → Nat → List Byte) : Bool := rollbackMin s ≤ slotNat x 8 4
  -- a slot that fails only at check 5 or check 7; one whose STAGE1 cannot be read has nothing to run
  let fa : Bool := (ca = 4 || ca = 6) && seqOk a
  let fb : Bool := (cb = 4 || cb = 6) && seqOk b
  if !(presents s a ga) ∧ !(presents s b gb) then (fails s, false)
  else (
    if ca = 0 ∧ cb = 0 then
      if sa < sb then runSlot s1 b true false false ca cb else runSlot s1 a false (sa = sb) false ca cb
    else if ca = 0 then runSlot s1 a false false false ca cb
    else if cb = 0 then runSlot s1 b true false false ca cb
    else if forerunnerFuse ∧ s.boot.lc.toNat < 2 ∧ s.boot.strap ≠ 7 ∧ (fa ∨ fb) then
      if fb ∧ !(fa ∧ sb ≤ sa) then runSlot s1 b true false true ca cb
      else runSlot s1 a false (fa && fb && sa = sb) true ca cb
    else startRecovery s1, true)
/-- The ROM's search from its place of the list on (R402, R403): it reads the slots of a flash or a UFS at once, releasing
UFS_RST_N for the latter (R455), and waits for a host to deliver those of the others; at the end of the list the recovery
loader starts. -/
def searchBoot : Nat → State → State
  | 0, s => startRecovery s
  | n + 1, s =>
    match curSource s with
    | none => startRecovery s
    | some k =>
      if 3 ≤ k then
        let up : Bool := (look {} 0 s.peri.pcie).l0
        updBoot s (fun b => { b with rom := .waiting, waitFrom := if k = 4 ∨ up then some s.now else none })
      else
        let d := drawFree (if k = 2 then { s with peri := { s.peri with ufsOut := true } } else s)
        match judgePair d.2 id (flashSlot d.1 k 0) (flashSlot d.1 k 1) (Config.flashLen d.1 k 0) (Config.flashLen d.1 k 1) with
        | (t, true) => t
        | (t, false) => searchBoot n (updBoot t (fun x => { x with listPos := x.listPos + 1 }))
/-- The ROM moves on to the next source of its list, or to the recovery loader (R403). -/
def nextSource (s : State) : State := searchBoot 6 (updBoot s (fun x => { x with listPos := x.listPos + 1, gotA := 0, gotB := 0 }))

/-- A host-driven source has delivered its slots: each is locked, judged, and the boot decided (R402 to R404). -/
def judgeSlots (s : State) : State :=
  let a := scratchBase
  let b := scratchBase + 0x1000000
  let pcie : Bool := curSource s = some 3
  let lock (s : State) : State := setRegion (setRegion s 0 { base := a, len := 0x1000000, state := .locked }) 1 { base := b, len := 0x1000000, state := .locked }
  match judgePair s lock (memSlot s a) (memSlot s b) (if pcie then 0x1000000 else s.boot.gotA) (if pcie then 0x1000000 else s.boot.gotB) with
  | (t, true) => t
  | (t, false) => nextSource t

/-- Have the 5 s passed that the ROM waits for a host's slots: over PCIe from link up (R402)? -/
def sourceTimedOut (s : State) : Bool := s.boot.rom = .waiting && s.boot.waitFrom.any (fun t => 5000000000 ≤ (s.now - t).toNat)
/-- BOOT_SOURCE_TIMEOUT. -/
def execBootSourceTimeout (s : State) : Host.Outcome State Fault Refusal := .next (if sourceTimedOut s then nextSource s else s)

/-- The device address of R402. -/
def deviceMac : List Byte := 0x02 :: uidBytes.take 5

/-- BOOT_FRAME: a frame of EtherType 0x88B5 on XG_1, from its destination address on. -/
def execBootFrame (f : List Byte) (s : State) : Host.Outcome State Fault Refusal :=
  let slot := leNat (bytesAt f 14 1)
  let off := leNat (bytesAt f 18 4)
  let d := f.drop 22
  let got := if slot = 0 then s.boot.gotA else s.boot.gotB
  let answer (s : State) : State :=
    enqueue s 9 { src := .boot, tc := 0, bytes := bytesAt f 6 6 ++ deviceMac ++ [0x88, 0xB5] ++ bytesAt f 14 8, ready := s.now }
  .next (
    if s.boot.rom ≠ .waiting ∨ curSource s ≠ some 4 ∨ f.take 6 ≠ deviceMac ∨ beNat (bytesAt f 12 2) ≠ 0x88B5 then s
    else if slot = 0xFF then judgeSlots (answer s)
    else if 1 < slot ∨ off ≠ got ∨ d.length = 0 ∨ 1400 < d.length ∨ 0x1000000 < off + d.length then s
    else
      let s1 := performWrite s (scratchBase + slot * 0x1000000 + off) d
      answer (updBoot s1 (fun b => if slot = 0 then { b with gotA := off + d.length } else { b with gotB := off + d.length })))

/-- PCIE_DOORBELL_WRITE: a write of BAR2 offset 0. Bits 31:0 of the value are the first DWORD, bits 35:32 its byte
enables (R446). -/
def execPcieDoorbellWrite (_a : Access) (v : Word) (s : State) : Host.Outcome State Fault Refusal :=
  let byte (i : Nat) : Nat := if bit v (32 + i) then fld v (8 * i + 7) (8 * i) else (s.peri.doorbell.toNat >>> (8 * i)) % 256
  let s1 := { s with peri := { s.peri with doorbell := BitVec.ofNat 32 (byte 0 + 256 * byte 1 + 65536 * byte 2 + 16777216 * byte 3) } }
  let s2 := raiseEvent s1 50
  .next (if s2.boot.rom = .waiting ∧ curSource s2 = some 3 then judgeSlots s2 else s2)

/-! ### The recovery loader (R406, R407) -/

/-- BOOT_STATUS as read. -/
def bootStatusWord (s : State) : Word :=
  let b := s.boot
  BitVec.ofNat 64 (at' b.seq.toNat 32 + at' b.lc.toNat 24 + at' b.strap.toNat 20 + at' b.failB.toNat 16 + at' b.failA.toNat 12 +
    at' (b2n b.statusLock) 11 + at' (b2n b.recovery) 10 + at' (b2n b.unverified) 9 + at' (b2n b.seqTie) 8 + at' (b2n b.slot) 7 +
    at' b.srcIndex.toNat 4 + b.source.toNat)

/-- CRC of a recovery frame: CHK preset 2 over TYPE to the last payload byte. -/
def recCrc (bs : List Byte) : Nat := crcFeed 16 0x1021 false 0xFFFF bs
/-- A frame put onto UART_0 by the loader. -/
def sendRec (s : State) (typ : Nat) (payload : List Byte) : State :=
  let body := natLe 1 typ ++ natLe 2 payload.length ++ natLe 2 s.boot.txSeq.toNat ++ payload
  let u : Serial := look {} 0 s.peri.serial
  let s1 := { s with peri := { s.peri with serial := put 0 { u with tx := u.tx ++ [0x7E] ++ body ++ natLe 2 (recCrc body) } s.peri.serial } }
  updBoot s1 (fun b => { b with txSeq := b.txSeq + 1 })
/-- An ACK of a frame. -/
def ackRec (s : State) (seq st : Nat) : State := sendRec s 0x80 (natLe 2 seq ++ natLe 1 st)

/-- HELLO. -/
def execHelloFrame (s : State) : Host.Outcome State Fault Refusal :=
  .next (
    if s.boot.rom = .hello then
      sendRec s 1 (natLe 2 0x9140 ++ [0x20] ++ natLe 1 s.boot.lc.toNat ++ uidBytes ++ natLe 8 (bootStatusWord s).toNat)
    else s)

/-- A frame from the host, from its 0x7E to its CRC: TYPE, SEQ and payload; `none` for a frame that is discarded, and
no payload for one whose length does not fit. -/
def parseRec (f : List Byte) : Option (Nat × Nat × Option (List Byte)) :=
  let body := (f.drop 1).take (f.length - 3)
  if f.length < 8 ∨ f.head? ≠ some 0x7E ∨ leNat (f.drop (f.length - 2)) ≠ recCrc body then none
  else
    let pl := body.drop 5
    some (leNat (body.take 1), leNat (bytesAt body 3 2), if leNat (bytesAt body 1 2) = pl.length ∧ pl.length ≤ 4096 then some pl else none)

/-- Does the loader listen? -/
def loaderUp (s : State) : Bool := s.boot.rom = .hello || s.boot.rom = .receiving

/-- BEGIN. -/
def execBeginFrame (f : List Byte) (s : State) : Host.Outcome State Fault Refusal :=
  .next (
    if !(loaderUp s) then s
    else match parseRec f with
      | none => s
      | some (2, seq, some pl) =>
        if pl.length ≠ 4 then ackRec s seq 1
        else if 480 * 1024 < leNat pl then ackRec s seq 3
        else ackRec (updBoot s (fun b => { b with rom := .receiving, recLen := leNat pl, recGot := 0 })) seq 0
      | some (_, seq, _) => ackRec s seq 1)

/-- DATA: written into pair 0 SRAM. -/
def execDataFrame (f : List Byte) (s : State) : Host.Outcome State Fault Refusal :=
  .next (
    if !(loaderUp s) then s
    else match parseRec f with
      | none => s
      | some (3, seq, some pl) =>
        let d := pl.drop 4
        if pl.length < 5 ∨ s.boot.rom ≠ .receiving then ackRec s seq 1
        else if leNat (pl.take 4) ≠ s.boot.recGot ∨ s.boot.recLen < s.boot.recGot + d.length then ackRec s seq 2
        else
          let s1 := performWrite s (0xF0040100000 + s.boot.recGot) d
          ackRec (updBoot s1 (fun b => { b with recGot := b.recGot + d.length })) seq 0
      | some (_, seq, _) => ackRec s seq 1)

/-- END: the image is locked and CHECK_ECDSA starts; its ACK follows the check. -/
def execEndFrame (f : List Byte) (s : State) : Host.Outcome State Fault Refusal :=
  .next (
    if !(loaderUp s) then s
    else match parseRec f with
      | none => s
      | some (4, seq, some []) =>
        if s.boot.rom ≠ .receiving then ackRec s seq 1
        else
          let s1 := setRegion s 0 { base := 0xF0040100000, len := s.boot.recLen, state := .locked }
          updBoot s1 (fun b => { b with rom := .verifying, checking := some (0, true), recSeq := BitVec.ofNat 16 seq })
      | some (_, seq, _) => ackRec s seq 1)

/-- KG_CHECK_DONE: the check of a region ends CHECKED or FAILED; the loader's own check ends in an ACK, and a recovery
image that passes runs. -/
def execKgCheckDone (region : Fin 17) (s : State) : Host.Outcome State Fault Refusal :=
  let r := region.val
  .next (
    match s.boot.checking with
    | none => s
    | some (k, ecdsa) =>
      if k ≠ r then s
      else
        let g := getRegion s r
        let ok : Bool := if ecdsa then recoveryOk s g.base g.len
          else macOf s (rdBytes s g.base g.len) == ((List.range 6).map (fun i => natLe 8 (s.boot.expect.getD i 0).toNat)).flatten
        let s1 := updBoot (setRegion s r { g with state := if ok then .checked else .failed }) (fun b => { b with checking := none })
        if s.boot.rom = .verifying then
          let s2 := ackRec s1 s.boot.recSeq.toNat (if ok then 0 else 4)
          if ok then
            coreStart (updBoot (romKick s2) (fun b => { b with rom := .done, recovery := true, source := 5, seq := 0, statusLock := true }))
              128 (g.base + rdNat s (g.base + 0x10) 4)
          else updBoot (setRegion s2 r { g with state := .free }) (fun b => { b with rom := .hello })
        else s1)

/-! ### Lifecycle, rollback, cores (R394, R405, R409) -/

/-- BOOT_LC_CMD written: KEY, then the permitted changes; none takes back one that is accepted and awaits PORST_N. -/
def lcCommand (s : State) (a : Access) (v : Word) : State :=
  let t := BitVec.ofNat 2 (fld v 1 0)
  let res (s : State) (x : BitVec 2) : State := updBoot s (fun b => { b with lcResult := x })
  if !(isMld a) then refuse s a 0x0001 bootSource (bootBase + 0x28)
  else if fld v 15 8 ≠ 0xC3 then s
  else if s.boot.unverified then res s 2
  else if ((s.boot.lc = 0 ∧ t = 1) ∨ (s.boot.lc = 1 ∧ t = 2) ∨ (s.boot.lc ≠ 3 ∧ t = 3)) ∧ s.boot.lcNext.all (fun p => p.toNat ≤ t.toNat) then
    res (updBoot s (fun b => { b with lcNext := some t, lcBlown := some t })) 0
  else res s 1
def execBootLcCmd (a : Access) (v : Word) (s : State) : Host.Outcome State Fault Refusal := .next (lcCommand s a v)

/-- BOOT_ROLLBACK.SET written. -/
def rollbackSet (s : State) (a : Access) (v : Word) : State :=
  if !(isMld a) then refuse s a 0x0001 bootSource (bootBase + 0x10)
  else if s.boot.lc = 2 ∨ s.boot.lc = 3 ∨ s.boot.unverified then s
  else updBoot s (fun b => { b with minBlown := b.minBlown ||| BitVec.ofNat 32 (fld v 63 32) })
def execBootRollbackSet (a : Access) (v : Word) (s : State) : Host.Outcome State Fault Refusal := .next (rollbackSet s a v)

/-- Is BOOT_ENTRY on code that the key gate has checked (R409)? -/
def entryChecked (s : State) (pair1 : Bool) : Bool :=
  let e := s.boot.entry
  (s.boot.unverified || s.boot.regions.any (fun g => g.2.state = .checked && g.2.base ≤ e && e < g.2.base + g.2.len)) &&
  (!pair1 || (0xF0040180000 ≤ e && e < 0xF0040200000))

/-- BOOT_CORE_CMD (R409): 1 RELEASE, 2 RESET. -/
def coreCommand (s : State) (a : Access) (cmd k : Nat) : State :=
  let res (s : State) (x : BitVec 2) : State := updBoot s (fun b => { b with coreResult := x })
  let c := if k = 0x81 then 129 else k
  if !(isMld a) then refuse s a 0x0001 bootSource (bootBase + 0x88)
  else if !(entryChecked s (k = 0x81)) then res s 1
  else if cmd = 1 then
    if k = 0xFF then res ((List.range 128).foldl (fun s c => if (getCore s c).mode = .held then coreStart s c s.boot.entry else s) s) 0
    else if (getCore s c).mode = .held then res (coreStart s c s.boot.entry) 0
    else res s 2
  else if cmd = 2 then
    if k ≠ 0xFF ∧ ((getCore s c).mode = .locked ∨ (getCore s c).mode = .held) then res (coreStart s c s.boot.entry) 0
    else res s 2
  else s

/-- A write of BOOT_CORE_CMD judged (R5), then performed. -/
def writeCoreCmd (s : State) (a : Access) (v m : Word) : State :=
  let pa := bootBase + 0x88
  if !(isMld a) then refuse s a 0x0001 bootSource pa
  else
    let j := judgeReg s a .bootCoreCmd pa false 0 v m
    let s1 := recordCodes s a pa j.codes
    if !j.codes.isEmpty ∨ fld j.cmd 9 8 = 0 then s1 else coreCommand s1 a (fld j.cmd 9 8) (fld j.cmd 7 0)
def execCoreRelease (a : Access) (v : Word) (s : State) : Host.Outcome State Fault Refusal :=
  .next (writeCoreCmd s a (putFld v 9 8 1) (BitVec.allOnes 64))
def execCoreReset (a : Access) (v : Word) (s : State) : Host.Outcome State Fault Refusal :=
  .next (writeCoreCmd s a (putFld v 9 8 2) (BitVec.allOnes 64))

/-! ### Mailboxes and registers -/

/-- A write of BOOT_MAILBOX_IN, and of BOOT_MAILBOX_OUT. -/
def writeMailIn (s : State) (a : Access) (v m : Word) : State :=
  if isMld a ∨ isHyp a then raiseEvent (updBoot s (fun b => { b with mailIn := (b.mailIn &&& ~~~m) ||| (v &&& m) })) 48
  else refuse s a 0x0001 bootSource (bootBase + 0x98)
def writeMailOut (s : State) (a : Access) (v m : Word) : State :=
  if isMld a then raiseEvent (updBoot s (fun b => { b with mailOut := (b.mailOut &&& ~~~m) ||| (v &&& m) })) 49
  else refuse s a 0x0001 bootSource (bootBase + 0xA0)
def execBootMailboxInWrite (a : Access) (v : Word) (s : State) : Host.Outcome State Fault Refusal := .next (writeMailIn s a v (BitVec.allOnes 64))
def execBootMailboxOutWrite (a : Access) (v : Word) (s : State) : Host.Outcome State Fault Refusal := .next (writeMailOut s a v (BitVec.allOnes 64))

def kgCode (k : KgState) : Nat := match k with | .free => 0 | .locked => 1 | .checked => 2 | .failed => 3

/-- A BOOT/KEY register as read. -/
def bootRead (s : State) (r : Reg) (pa : Nat) : Word :=
  let b := s.boot
  let g := getRegion s b.kgSel
  match r with
  | .bootStatus => bootStatusWord s
  | .bootFuse => fuseSettings s
  | .bootRollback => BitVec.ofNat 64 (rollbackMin s)
  | .bootUid0 => Config.fuseWord 2
  | .bootUid1 => Config.fuseWord 3
  | .bootLcCmd => BitVec.ofNat 64 (at' (b2n b.lcNext.isSome) 20 + at' b.lcResult.toNat 16)
  | .bootKgSel => BitVec.ofNat 64 b.kgSel
  | .bootKgRegion => BitVec.ofNat 64 (g.base / 4096 * 4096 + kgCode g.state)
  | .bootKgLen => BitVec.ofNat 64 g.len
  | .bootKgCmd => BitVec.ofNat 64 (at' b.kgResult.toNat 8)
  | .bootKgExp => 0
  | .bootEntry => BitVec.ofNat 64 b.entry
  | .bootCoreCmd => BitVec.ofNat 64 (at' b.coreResult.toNat 16)
  | .bootResetCmd => BitVec.ofNat 64 (at' b.skipSrc.toNat 20 + at' (b2n b.skipB) 17 + at' (b2n b.skipA) 16)
  | .bootMailboxIn => b.mailIn
  | .bootMailboxOut => b.mailOut
  | _ => stored s r pa

/-- A write of a BOOT/KEY register, but for BOOT_RESET_CMD. Only a Mladette pair writes, and the hypervisor its mailbox. -/
def bootWrite (s : State) (a : Access) (r : Reg) (n pa : Nat) (v m : Word) : State :=
  match r with
  | .bootMailboxIn => writeMailIn s a v m
  | _ =>
    if !(isMld a) then refuse s a 0x0001 bootSource pa
    else match r with
      | .bootStatus =>
        let j := judgeReg s a r pa s.boot.statusLock (bootStatusWord s) v m
        let w := j.word
        let s1 := updBoot s (fun b => { b with
          seq := BitVec.ofNat 32 (fld w 63 32), failB := BitVec.ofNat 4 (fld w 19 16), failA := BitVec.ofNat 4 (fld w 15 12)
          recovery := bit w 10, seqTie := bit w 8, slot := bit w 7, srcIndex := BitVec.ofNat 3 (fld w 6 4)
          source := BitVec.ofNat 4 (fld w 3 0), statusLock := b.statusLock || bit j.cmd 11, unverified := b.unverified || bit j.cmd 9 })
        let s2 := recordCodes s1 a pa j.codes
        if bit j.cmd 9 ∧ !s.boot.unverified then netRefresh (fault s2 0x0B01 bootSource none) else s2
      | .bootRollback => if m.getLsbD 32 then rollbackSet s a (v &&& m) else s
      | .bootLcCmd => if m.getLsbD 0 then lcCommand s a v else s
      | .bootKgSel => if m.getLsbD 0 then updBoot s (fun b => { b with kgSel := fld v 3 0 }) else s
      | .bootKgRegion =>
        let g := getRegion s s.boot.kgSel
        if g.state = .free then
          setRegion s s.boot.kgSel { g with base := fld ((BitVec.ofNat 64 g.base &&& ~~~m) ||| (v &&& m)) 43 12 * 4096 }
        else s
      | .bootKgLen =>
        let g := getRegion s s.boot.kgSel
        if g.state = .free ∧ m.getLsbD 0 then setRegion s s.boot.kgSel { g with len := fld v 31 0 } else s
      | .bootKgCmd => if m.getLsbD 0 then kgCommand s a (fld v 1 0) else s
      | .bootKgExp =>
        let old := s.boot.expect ++ List.replicate (6 - s.boot.expect.length) 0
        updBoot s (fun b => { b with expect := old.set n ((old.getD n 0 &&& ~~~m) ||| (v &&& m)) })
      | .bootEntry => updBoot s (fun b => { b with entry := fld ((BitVec.ofNat 64 b.entry &&& ~~~m) ||| (v &&& m)) 43 3 * 8 })
      | .bootCoreCmd => writeCoreCmd s a v m
      | .bootMailboxOut => writeMailOut s a v m
      | _ => s

end Sys2Proof.Machine
end

