-- ==== Sys2Proof/Machine/Operands.lean ====
section
/-! DEFINITION. Operand forms of a move (chapters 05 and 06): which addresses may be read and written, what a read
returns and a write does at every register and port, and how results in flight reach their ports. -/
namespace Sys2Proof.Machine

/-! ### The move address space (R91, R141) -/

/-- The unit block of an address: its first address; 0 for registers and predicates, 400 for the reserved range. -/
def unitOf (a : Nat) : Nat :=
  if a < 112 then 0 else if a < 144 then 112 else if a < 176 then 144 else if a < 192 then 176 else if a < 208 then 192
  else if a < 224 then 208 else if a < 256 then 224 else if a < 272 then 256 else if a < 304 then 272 else if a < 336 then 304
  else if a < 352 then 336 else if a < 368 then 352 else if a < 400 then 368 else if a < 448 then 400 else 448

/-- Trigger ports (R115 to R138). -/
def isTrigger (a : Nat) : Bool :=
  (120 ≤ a && a ≤ 140) || (152 ≤ a && a ≤ 172) || (180 ≤ a && a ≤ 186) || (200 ≤ a && a ≤ 202) || (216 ≤ a && a ≤ 217) ||
  (232 ≤ a && a ≤ 240) || (264 ≤ a && a ≤ 269) || (280 ≤ a && a ≤ 290) || (292 ≤ a && a ≤ 295) || (312 ≤ a && a ≤ 325) ||
  (340 ≤ a && a ≤ 347) || (360 ≤ a && a ≤ 365) || (384 ≤ a && a ≤ 397) || (448 ≤ a && a ≤ 511)

/-- Operand ports and the other ports that take a plain move. -/
def operandPorts : List Nat := [112, 144, 176, 177, 192, 208, 224, 225, 272, 273, 275, 304, 305, 336, 337, 352, 353, 354, 368]

/-- Ports that are only sources, and the ports that are sources too. -/
def sourcePorts : List Nat :=
  [114, 146, 178, 194, 195, 210, 211, 226, 258, 259, 274, 275, 306, 336, 338, 352, 353, 354, 355, 356,
   370, 371, 372, 373, 374, 376, 377, 378, 379, 380, 381, 382, 383]

/-- Does the small configuration lack the address (R106, R131)? -/
def lacksS (a : Nat) : Bool := (16 ≤ a && a ≤ 95) || (304 ≤ a && a ≤ 335) || (342 ≤ a && a ≤ 345)
/-- Does the large configuration lack it: T_STM and T_LDM exist on S-cores alone (R131)? -/
def lacksA (a : Nat) : Bool := 346 ≤ a && a ≤ 347

/-- Registers and predicates (R91). -/
def isRegAddr (a : Nat) : Bool := a ≤ 95 || (96 ≤ a && a ≤ 103)

/-- Is the address a legal DST, a legal SRC (R93)? -/
def legalDst (small : Bool) (a : Nat) : Bool :=
  (isRegAddr a || isTrigger a || operandPorts.contains a) && !(if small then lacksS a else lacksA a)
def legalSrc (small : Bool) (a : Nat) : Bool :=
  (isRegAddr a || sourcePorts.contains a) && !(if small then lacksS a else lacksA a)

/-- Minimum privilege level of a port (R113, R131, R138). -/
def portLevel (a : Nat) : Nat :=
  if 342 ≤ a ∧ a ≤ 345 then 1 else if a = 368 ∨ a = 370 then 1 else if a = 388 ∨ a = 389 ∨ a = 390 ∨ a = 394 then 1 else 0

/-- The 256-bit registers and ports (R87, R119, R128). -/
def isWide (a : Nat) : Bool := (64 ≤ a && a ≤ 95) || a = 225 || a = 226 || (304 ≤ a && a ≤ 306) || (312 ≤ a && a ≤ 325)

/-! ### Register groups (R87, R188) -/

/-- Group of a register address: 0 GA, 1 GB, 2 GC, 3 GD, 4 VA, 5 VB. -/
def groupOf (a : Nat) : Option Nat :=
  if a < 64 then some (a / 16) else if a < 80 then some 4 else if a < 96 then some 5 else none

/-- The group whose load a move naming the address waits for while it is pending (R195): VA for a VEC port. -/
def waitsFor (a : Nat) (asSource : Bool) : Option Nat :=
  if unitOf a = 304 then some 4 else if asSource ∧ (a = 225 ∨ a = 226) then some 4 else groupOf a

/-- Set the DIRTY bit of a group (R188). -/
def setDirty (k : Ctx) (g : Nat) : Ctx := { k with dirty := k.dirty ||| BitVec.ofNat 6 (1 <<< g) }

/-! ### Results in flight (R85, R109) -/

/-- Low 64 bits of a wide value, a 64-bit value widened (R89). -/
def lo64 (x : VWord) : Word := x.setWidth 64
def wide (x : Word) : VWord := x.setWidth 256

/-- A port's value, and a port set. -/
def portVal (k : Ctx) (a : Nat) : VWord := look 0 a k.ports
def setPort (k : Ctx) (a : Nat) (x : VWord) : Ctx := { k with ports := put a x k.ports }

/-- Set predicate p_n. -/
def setPred (k : Ctx) (n : Nat) (b : Bool) : Ctx :=
  if n = 0 ∨ 7 < n then k
  else { k with p := (k.p &&& ~~~(BitVec.ofNat 8 (1 <<< n))) ||| (if b then BitVec.ofNat 8 (1 <<< n) else 0) }

/-- A result reaches its ports, its predicate and the sticky flags (R85, R126, R127, R329). -/
def deliver (k : Ctx) (f : Flight) : Ctx :=
  let qa := f.unit + 2
  let old := portVal k qa
  let k1 := setPort k qa f.q
  let k2 := if f.unit = 192 ∨ f.unit = 208 then setPort k1 (f.unit + 3) (wide f.qh) else k1
  let k3 := if f.pred = 0 then k2 else setPred k2 f.pred (f.q.getLsbD 0)
  let tr := f.flags &&& f.trap
  let k4 := { k3 with
    csr := k3.csr ||| ((f.flags.setWidth 64) <<< 8)
    traps := if tr = 0 then drop' qa (if f.pred = 0 then k3.traps else drop' (96 + f.pred) k3.traps)
             else put qa tr (if f.pred = 0 then k3.traps else put (96 + f.pred) tr k3.traps)
    poison := match f.poison with | some a => put qa a k3.poison | none => drop' qa k3.poison }
  -- a VEC result and a change of LSU.Q[255:64] make VA dirty (R188)
  let k5 := if f.unit = 304 ∨ (f.unit = 224 ∧ (old >>> 64) ≠ (f.q >>> 64)) then setDirty k4 4 else k4
  if f.unit = 224 ∧ k.pendGroups.getLsbD 4 then { k5 with keepQ := true } else k5

/-- The oldest `n` results of a unit are delivered, oldest first. -/
def settleN (u : Nat) : Nat → List Flight → Ctx → Ctx
  | _, [], k => k
  | 0, _, k => k
  | n + 1, f :: fs, k =>
    if f.unit = u then settleN u n fs (deliver { k with flights := k.flights.erase f } f) else settleN u (n + 1) fs k

/-- How many results of a unit are in flight. -/
def inFlight (k : Ctx) (u : Nat) : Nat := (k.flights.filter (fun f => f.unit = u)).length

/-- Every result of a unit in flight is delivered. -/
def settle (k : Ctx) (u : Nat) : Ctx := settleN u (inFlight k u) k.flights k

/-- The units whose results a read of an address waits for (R85, R100, R126): its own unit; FPU and VEC for
FPU.CSR; every unit with a predicate in flight for a predicate. -/
def unitsRead (k : Ctx) (a : Nat) : List Nat :=
  if a = 275 then [272, 304]
  else if 96 ≤ a ∧ a ≤ 103 then (k.flights.filter (fun f => f.pred ≠ 0)).map (·.unit)
  else if 112 ≤ a then [unitOf a] else []

/-- The units whose compare results a guard waits for (R100). -/
def unitsGuard (k : Ctx) (g : Nat) : List Nat := (k.flights.filter (fun f => f.pred ≠ 0 && f.pred == g % 8)).map (·.unit)

/-- Deliver what the listed units have in flight. -/
def settleAll (us : List Nat) (k : Ctx) : Ctx := us.foldl settle k

/-- Deliver in `k` what `pre`, the state before the word, still had in flight for the listed units. -/
def settleOld (us : List Nat) (pre k : Ctx) : Ctx := us.foldl (fun k u => settleN u (inFlight pre u) k.flights k) k

/-! ### Reads and writes -/

/-- The device's feature registers (R107). -/
def featReg (core i : Nat) : Word :=
  if core < 128 then
    match i with
    | 0 => BitVec.ofNat 64 (core * 256 + 0x13)
    | 1 => 0x1FFF | 2 => 0x3F073F | 3 => 0x2008040100 | 4 => 0xF2C301 | 5 => 0x40010104040 | 6 => 0x17 | _ => 0xC1000
  else
    match i with
    | 0 => BitVec.ofNat 64 ((0x80 + (core - 128)) * 256 + 0x03)
    | 1 => 0x1EFF | 2 => 0x0F0701 | 3 => 0 | 4 => 0x1002C000 | 5 => 0x08081010 | 6 => 0x1B | _ => 0xC1000

/-- A CHK context of a core. -/
def chkOf (k : Core) : ChkCtx := look {} k.ctx.sel.toNat k.chk

/-- What CHK.Q reads: the running value reflected by REFOUT and exclusive-ored with XOROUT, in WIDTH bits (R370, R377). -/
def chkFinal (x : ChkCtx) : Nat :=
  ((if x.refout then revBits x.width x.val.toNat else x.val.toNat) ^^^ x.xorout.toNat) % 2 ^ x.width

/-- The value a read of an address returns in context `k` (R83, R89, R107, R136, R138); SYS.TIME is read by its own
command. -/
def readAddr (c : Nat) (core : Core) (k : Ctx) (a : Nat) : VWord :=
  if a < 64 then wide (look 0 a k.g)
  else if a < 96 then look 0 (a - 64) k.v
  else if a = 96 then wide ((k.p &&& 0xFE).setWidth 64)
  else if a ≤ 103 then (if k.p.getLsbD (a - 96) then 1 else 0)
  else if a = 258 then wide k.link
  else if a = 259 then wide core.pc
  else if a = 275 then wide k.csr
  else if a = 336 then wide (k.rc.setWidth 64)
  else if a = 352 then wide (k.sel.setWidth 64)
  else if a = 353 then wide (look {} k.sel.toNat core.chk).val
  else if a = 354 then wide (look {} k.sel.toNat core.chk).exp
  else if a = 355 then wide (look {} k.sel.toNat core.chk).st.word
  else if a = 356 then wide (BitVec.ofNat 64 (chkFinal (look {} k.sel.toNat core.chk)))
  else if a = 371 then wide core.lastTime
  else if a = 372 then wide (core.level.setWidth 64)
  else if a = 373 then wide (if isS c then 0 else BitVec.ofNat 64 (core.cell.getD 0))
  else if a = 374 then wide (if isS c then 0 else BitVec.ofNat 64 (core.task.getD 0))
  else if 376 ≤ a ∧ a ≤ 383 then wide (featReg c (a - 376))
  else portVal k a

/-- FPU.CSR after a write (R126): reserved bits read 0, and a reserved RM value leaves RM as it was. -/
def csrWrite (old new : Word) : Word :=
  let w := new &&& 0x1F1F07
  if fld new 2 0 ≤ 4 then w else putFld w 2 0 (fld old 2 0)

/-- A plain move's write to a register or operand port (R83, R89, R131, R188, R195). -/
def writeAddr (k : Ctx) (a : Nat) (x : VWord) : Ctx :=
  if a < 64 then setDirty { k with g := put a (lo64 x) k.g } (a / 16)
  else if a < 96 then setDirty { k with v := put (a - 64) x k.v } (if a < 80 then 4 else 5)
  else if a = 96 then { k with p := x.setWidth 8 &&& 0xFE }
  else if a ≤ 103 then setPred k (a - 96) (x.getLsbD 0)
  else if a = 225 then
    let k1 := setPort k a x
    let k2 := if (portVal k a >>> 64) ≠ (x >>> 64) then setDirty k1 4 else k1
    if k.pendGroups.getLsbD 4 then { k2 with keepP := true } else k2
  else if a = 304 ∨ a = 305 then setDirty (setPort k a x) 4
  else if a = 275 then { k with csr := csrWrite k.csr (lo64 x) }
  else if a = 336 then { k with rc := BitVec.ofNat 13 (min (lo64 x).toNat 4096) }
  else if a = 352 then { k with sel := x.setWidth 4 }
  else setPort k a (wide (lo64 x))

/-- The immediate or the value at the source address. -/
def srcVal (c : Nat) (core : Core) (k : Ctx) : Src → VWord
  | .imm v => wide v
  | .port a => readAddr c core k a.toNat

/-- Is the guard true (R99)? -/
def guardTrue (k : Ctx) (g : BitVec 4) : Bool :=
  if g = 0 then true else if g = 8 then false else if g.toNat < 8 then k.p.getLsbD g.toNat else !(k.p.getLsbD (g.toNat - 8))

/-! ### Word decoding helpers (R94, R95) -/

/-- The fields of a slot of a word as decode reads them: I, DST, SRC field, GUARD, EXT, and whether it is slot B. -/
structure SlotBits where
  imm : Bool
  dst : Nat
  src : Nat
  guard : Nat
  ext : Nat
  slotB : Bool
deriving DecidableEq, Repr

/-- The 31 bits of a short word's slot. -/
def slotBits (x : Nat) (b : Bool) : SlotBits :=
  { imm := x / 2 ^ 30 % 2 = 1, dst := x / 2 ^ 21 % 512, src := x / 2 ^ 9 % 4096, guard := x / 32 % 16, ext := x % 32, slotB := b }

/-- The slots of a word. A long word's one slot carries UEXT. -/
def slotsOf (w : Word) : List SlotBits :=
  if bit w 63 then [slotBits (fld w 62 32) false, slotBits (fld w 31 1) true]
  else [{ imm := bit w 62, dst := fld w 61 53, src := fld w 52 44, guard := fld w 43 40, ext := fld w 36 32, slotB := false }]

/-- The 64-bit value of an immediate slot: 12 bits sign-extended, or IMM32 under IMODE (R94, R95). -/
def immOf (w : Word) (sl : SlotBits) : Word :=
  if bit w 63 then (BitVec.ofNat 12 sl.src).signExtend 64
  else
    let i := fld w 31 0
    match fld w 39 38 with
    | 0 => (BitVec.ofNat 32 i).signExtend 64
    | 1 => BitVec.ofNat 64 i
    | _ => BitVec.ofNat 64 (i <<< 32)

end Sys2Proof.Machine
end

