-- ==== Sys2Proof/Machine/Flags.lean ====
section
/-! DEFINITION. Every flag computation: integer compares (R115), and IEEE 754-2019 arithmetic with its rounding and
its five flags (R125, R126). -/
namespace Sys2Proof.Machine

/-! ### Floating point (R125) -/

/-- A format: precision in bits, and the least and greatest exponent of a normal number. -/
structure FpFmt where
  p : Nat
  emin : Int
  emax : Int
  width : Nat
deriving DecidableEq, Repr

def binary64 : FpFmt := { p := 53, emin := -1022, emax := 1023, width := 64 }
def binary32 : FpFmt := { p := 24, emin := -126, emax := 127, width := 32 }
/-- PREC: 0 binary64, 1 binary32 (R96). -/
def fmtOf (prec : Bool) : FpFmt := if prec then binary32 else binary64

/-- A number unpacked: NaN (signalling or quiet), infinity, or sign × m × 2^e. -/
inductive FpVal where
  | nan (signalling : Bool)
  | inf (neg : Bool)
  | fin (neg : Bool) (m : Nat) (e : Int)
deriving DecidableEq, Repr

/-- Bits of the exponent field and of the fraction field. -/
def FpFmt.ebits (f : FpFmt) : Nat := f.width - f.p

/-- Unpack an encoding (R125). -/
def fpUnpack (f : FpFmt) (x : Nat) : FpVal :=
  let fr := x % 2 ^ (f.p - 1)
  let ex := x / 2 ^ (f.p - 1) % 2 ^ f.ebits
  let neg := x / 2 ^ (f.width - 1) % 2 = 1
  if ex = 2 ^ f.ebits - 1 then
    if fr = 0 then .inf neg else .nan (fr < 2 ^ (f.p - 2))
  else if ex = 0 then .fin neg fr (f.emin - (f.p - 1 : Nat))
  else .fin neg (fr + 2 ^ (f.p - 1)) (f.emin + (ex : Int) - 1 - (f.p - 1 : Nat))

/-- The default quiet NaN (R125). -/
def fpNan (f : FpFmt) : Nat := (2 ^ f.ebits - 1) * 2 ^ (f.p - 1) + 2 ^ (f.p - 2)
def fpSign (f : FpFmt) (neg : Bool) : Nat := if neg then 2 ^ (f.width - 1) else 0
def fpInf (f : FpFmt) (neg : Bool) : Nat := fpSign f neg + (2 ^ f.ebits - 1) * 2 ^ (f.p - 1)
def fpMax (f : FpFmt) (neg : Bool) : Nat := fpSign f neg + (2 ^ f.ebits - 1) * 2 ^ (f.p - 1) - 1

/-- The flags, in the bit order of CSR.FLAGS: NV, DZ, OF, UF, NX. -/
def fNV : BitVec 5 := 1
def fDZ : BitVec 5 := 2
def fOF : BitVec 5 := 4
def fUF : BitVec 5 := 8
def fNX : BitVec 5 := 16

/-- Does the rounding mode round a magnitude up, given the last kept bit and the remainder over 2^d (R126)? -/
def roundUp (rm : Nat) (neg : Bool) (last rem half : Nat) (zeroRem : Bool) : Bool :=
  if zeroRem then false else
  match rm with
  | 0 => half < rem || (half == rem && last % 2 == 1)
  | 1 => false
  | 2 => neg
  | 3 => !neg
  | _ => half ≤ rem

/-- Number of significant bits of a magnitude. -/
def bitLen (m : Nat) : Nat := if m = 0 then 0 else Nat.log2 m + 1

/-- A magnitude m × 2^e rounded to a multiple of 2^q: the count of 2^q, and whether it is inexact. -/
def quantize (rm : Nat) (neg : Bool) (m : Nat) (e q : Int) : Nat × Bool :=
  if q ≤ e then (m <<< (e - q).toNat, false)
  else
    let d := (q - e).toNat
    let k := m >>> d
    let r := m % 2 ^ d
    (if roundUp rm neg k r (2 ^ (d - 1)) (r = 0) then k + 1 else k, r ≠ 0)

/-- The exact value sign × m × 2^e (a sticky bit may be its lowest) rounded into a format: encoding and flags. -/
def fpRound (f : FpFmt) (rm : Nat) (neg : Bool) (m : Nat) (e : Int) : Nat × BitVec 5 :=
  if m = 0 then (fpSign f neg, 0) else
  let top : Int := e + (bitLen m : Int) - 1
  let q : Int := (if top < f.emin then f.emin else top) - (f.p - 1 : Nat)
  let r := quantize rm neg m e q
  let (k, q') := if 2 ^ f.p ≤ r.1 then (r.1 / 2, q + 1) else (r.1, q)
  let topR : Int := q' + (f.p - 1 : Nat)
  let nx : BitVec 5 := if r.2 then fNX else 0
  if 2 ^ (f.p - 1) ≤ k ∧ f.emax < topR then
    let toInf : Bool := rm == 0 || rm == 4 || (rm == 2 && neg) || (rm == 3 && !neg)
    (if toInf then fpInf f neg else fpMax f neg, fOF ||| fNX)
  else
    let tinyBefore : Bool := top < f.emin
    let un := quantize rm neg m e (top - (f.p - 1 : Nat))
    let tinyAfter : Bool := tinyBefore && !(2 ^ f.p ≤ un.1 && top + 1 = f.emin)
    let tiny : Bool := if tinyBefore = tinyAfter then tinyBefore else (if Config.tinyAfterRounding then tinyAfter else tinyBefore)
    let uf : BitVec 5 := if r.2 ∧ tiny then fUF else 0
    let enc := if k < 2 ^ (f.p - 1) then k else ((topR - f.emin).toNat + 1) * 2 ^ (f.p - 1) + (k - 2 ^ (f.p - 1))
    (fpSign f neg + enc, nx ||| uf)

/-- NV when an operand is a signalling NaN. -/
def sNaN : FpVal → Bool
  | .nan true => true
  | _ => false
def isNaN : FpVal → Bool
  | .nan _ => true
  | _ => false

/-- Sign of an exact sum that is zero (IEEE 754-2019): minus only when rounding toward −∞, or when both are minus. -/
def zeroSign (rm : Nat) (a b : Bool) : Bool := if a = b then a else rm == 2

/-- The exact sum of two finite numbers: sign, magnitude and exponent; `none` for an exact zero. -/
def exactAdd (na : Bool) (ma : Nat) (ea : Int) (nb : Bool) (mb : Nat) (eb : Int) : Option (Bool × Nat × Int) :=
  let e := if ea ≤ eb then ea else eb
  let a : Int := (if na then -1 else 1) * ((ma <<< (ea - e).toNat : Nat) : Int)
  let b : Int := (if nb then -1 else 1) * ((mb <<< (eb - e).toNat : Nat) : Int)
  let t := a + b
  if t = 0 then none else some (t < 0, t.natAbs, e)

/-- O + v (R125). -/
def fpAdd (f : FpFmt) (rm x y : Nat) : Nat × BitVec 5 :=
  let a := fpUnpack f x
  let b := fpUnpack f y
  if isNaN a || isNaN b then (fpNan f, if sNaN a || sNaN b then fNV else 0) else
  match a, b with
  | .inf s, .inf t => if s = t then (fpInf f s, 0) else (fpNan f, fNV)
  | .inf s, _ => (fpInf f s, 0)
  | _, .inf t => (fpInf f t, 0)
  | .fin na ma ea, .fin nb mb eb =>
    match exactAdd na ma ea nb mb eb with
    | none => (fpSign f (zeroSign rm na nb), 0)
    | some (n, m, e) => fpRound f rm n m e
  | _, _ => (fpNan f, 0)

/-- The encoding with its sign turned. -/
def fpNeg (f : FpFmt) (x : Nat) : Nat := x ^^^ 2 ^ (f.width - 1)
/-- O − v: a NaN operand stays a NaN, so turning the sign of v changes nothing else. -/
def fpSub (f : FpFmt) (rm x y : Nat) : Nat × BitVec 5 := fpAdd f rm x (fpNeg f (y % 2 ^ f.width))

/-- O × v. -/
def fpMul (f : FpFmt) (rm x y : Nat) : Nat × BitVec 5 :=
  let a := fpUnpack f x
  let b := fpUnpack f y
  if isNaN a || isNaN b then (fpNan f, if sNaN a || sNaN b then fNV else 0) else
  match a, b with
  | .inf s, .inf t => (fpInf f (s != t), 0)
  | .inf s, .fin t m _ => if m = 0 then (fpNan f, fNV) else (fpInf f (s != t), 0)
  | .fin s m _, .inf t => if m = 0 then (fpNan f, fNV) else (fpInf f (s != t), 0)
  | .fin na ma ea, .fin nb mb eb => fpRound f rm (na != nb) (ma * mb) (ea + eb)
  | _, _ => (fpNan f, 0)

/-- O × v + P, rounded once. -/
def fpFma (f : FpFmt) (rm x y z : Nat) : Nat × BitVec 5 :=
  let a := fpUnpack f x
  let b := fpUnpack f y
  let c := fpUnpack f z
  let zeroInf : Bool := match a, b with
    | .inf _, .fin _ m _ => m == 0
    | .fin _ m _, .inf _ => m == 0
    | _, _ => false
  if isNaN a || isNaN b then (fpNan f, if sNaN a || sNaN b || sNaN c then fNV else 0)
  else if zeroInf then (fpNan f, if isNaN c && !sNaN c then (if Config.fmaNanInvalid then fNV else 0) else fNV)
  else if isNaN c then (fpNan f, if sNaN c then fNV else 0)
  else
    match a, b, c with
    | .fin na ma ea, .fin nb mb eb, .fin nc mc ec =>
      match exactAdd (na != nb) (ma * mb) (ea + eb) nc mc ec with
      | none => (fpSign f (zeroSign rm (na != nb) nc), 0)
      | some (n, m, e) => fpRound f rm n m e
    | .fin _ _ _, .fin _ _ _, .inf t => (fpInf f t, 0)
    | _, _, _ =>
      -- the product is an infinity
      let sp : Bool := (x / 2 ^ (f.width - 1) % 2 == 1) != (y / 2 ^ (f.width - 1) % 2 == 1)
      match c with
      | .inf t => if sp = t then (fpInf f sp, 0) else (fpNan f, fNV)
      | _ => (fpInf f sp, 0)

/-- O ÷ v. -/
def fpDiv (f : FpFmt) (rm x y : Nat) : Nat × BitVec 5 :=
  let a := fpUnpack f x
  let b := fpUnpack f y
  if isNaN a || isNaN b then (fpNan f, if sNaN a || sNaN b then fNV else 0) else
  match a, b with
  | .inf _, .inf _ => (fpNan f, fNV)
  | .inf s, .fin t _ _ => (fpInf f (s != t), 0)
  | .fin s _ _, .inf t => (fpSign f (s != t), 0)
  | .fin na ma ea, .fin nb mb eb =>
    if mb = 0 then (if ma = 0 then (fpNan f, fNV) else (fpInf f (na != nb), fDZ))
    else if ma = 0 then (fpSign f (na != nb), 0)
    else
      let k := f.p + 3 + bitLen mb
      let n := ma <<< k
      fpRound f rm (na != nb) (2 * (n / mb) + (if n % mb = 0 then 0 else 1)) (ea - eb - (k : Int) - 1)
  | _, _ => (fpNan f, 0)

/-- Integer square root, one bit of the root for each unit of fuel. -/
def isqrt : Nat → Nat → Nat → Nat
  | 0, _, r => r
  | b + 1, n, r => isqrt b n (if (r + 2 ^ b) * (r + 2 ^ b) ≤ n then r + 2 ^ b else r)

/-- Square root of v. -/
def fpSqrt (f : FpFmt) (rm x : Nat) : Nat × BitVec 5 :=
  match fpUnpack f x with
  | .nan s => (fpNan f, if s then fNV else 0)
  | .inf false => (fpInf f false, 0)
  | .inf true => (fpNan f, fNV)
  | .fin n m e =>
    if m = 0 then (fpSign f n, 0)
    else if n then (fpNan f, fNV)
    else
      -- an even exponent, and enough bits below for one rounding
      let k := 2 * f.p + 4 + (e.toNat + (-e).toNat) % 2
      let nn := m <<< k
      let r := isqrt (bitLen nn / 2 + 1) nn 0
      fpRound f rm false (2 * r + (if r * r = nn then 0 else 1)) ((e - (k : Int)) / 2 - 1)

/-- Order of two numbers that are not NaN: is the first less, are they equal? Zeros are equal. -/
def fpLess (a b : FpVal) : Bool :=
  match a, b with
  | .inf s, .inf t => s && !t
  | .inf s, _ => s
  | _, .inf t => !t
  | .fin na ma ea, .fin nb mb eb =>
    match exactAdd na ma ea (!nb) mb eb with
    | none => false
    | some (n, _, _) => n
  | _, _ => false
def fpSame (a b : FpVal) : Bool := !fpLess a b && !fpLess b a

/-- Sign bit of an encoding. -/
def fpIsNeg (f : FpFmt) (x : Nat) : Bool := x / 2 ^ (f.width - 1) % 2 == 1

/-- minimumNumber and maximumNumber (IEEE 754-2019): a number beats a NaN, and −0 is below +0. -/
def fpMinMax (f : FpFmt) (wantMax : Bool) (x y : Nat) : Nat × BitVec 5 :=
  let a := fpUnpack f x
  let b := fpUnpack f y
  let fl : BitVec 5 := if sNaN a || sNaN b then fNV else 0
  let x' := x % 2 ^ f.width
  let y' := y % 2 ^ f.width
  if isNaN a && isNaN b then (fpNan f, fl)
  else if isNaN a then (y', fl)
  else if isNaN b then (x', fl)
  else
    let aLess : Bool := fpLess a b || (fpSame a b && fpIsNeg f x && !fpIsNeg f y)
    (if aLess != wantMax then x' else y', fl)

/-- To a signed 64-bit integer (R125). -/
def fpToInt (f : FpFmt) (rm x : Nat) : Nat × BitVec 5 :=
  match fpUnpack f x with
  | .nan _ => (0, fNV)
  | .inf n => (if n then 2 ^ 63 else 2 ^ 63 - 1, fNV)
  | .fin n m e =>
    let r := quantize rm n m e 0
    if n then (if 2 ^ 63 < r.1 then (2 ^ 63, fNV) else ((2 ^ 64 - r.1) % 2 ^ 64, if r.2 then fNX else 0))
    else if 2 ^ 63 ≤ r.1 then (2 ^ 63 - 1, fNV) else (r.1, if r.2 then fNX else 0)

/-- From a signed 64-bit integer. -/
def fpFromInt (f : FpFmt) (rm : Nat) (v : Word) : Nat × BitVec 5 := fpRound f rm v.msb v.toInt.natAbs 0

/-- From the other format. -/
def fpConvert (f g : FpFmt) (rm x : Nat) : Nat × BitVec 5 :=
  match fpUnpack g x with
  | .nan s => (fpNan f, if s then fNV else 0)
  | .inf n => (fpInf f n, 0)
  | .fin n m e => if m = 0 then (fpSign f n, 0) else fpRound f rm n m e

/-- Compares: equal (quiet), less and less-or-equal (signalling), unordered (quiet). -/
def fpCmpEq (f : FpFmt) (x y : Nat) : Bool × BitVec 5 :=
  let a := fpUnpack f x
  let b := fpUnpack f y
  if isNaN a || isNaN b then (false, if sNaN a || sNaN b then fNV else 0) else (fpSame a b, 0)
def fpCmpLt (f : FpFmt) (x y : Nat) : Bool × BitVec 5 :=
  let a := fpUnpack f x
  let b := fpUnpack f y
  if isNaN a || isNaN b then (false, fNV) else (fpLess a b, 0)
def fpCmpLe (f : FpFmt) (x y : Nat) : Bool × BitVec 5 :=
  let a := fpUnpack f x
  let b := fpUnpack f y
  if isNaN a || isNaN b then (false, fNV) else (!fpLess b a, 0)
def fpCmpUn (f : FpFmt) (x y : Nat) : Bool × BitVec 5 :=
  let a := fpUnpack f x
  let b := fpUnpack f y
  (isNaN a || isNaN b, if sNaN a || sNaN b then fNV else 0)

/-- RM of FPU.CSR and its TRAP bits (R126). -/
def rmOf (k : Ctx) : Nat := fld k.csr 2 0
def trapOf (k : Ctx) : BitVec 5 := BitVec.ofNat 5 (fld k.csr 20 16)

/-! ### Integer compares (R115) -/

/-- The compare triggers of an ALU. -/
inductive Cmp where
  | eq | ne | lt | ge | ltu | geu | tst
deriving DecidableEq, Repr

/-- The 0 or 1 result of a compare of O with v. -/
def cmpVal (k : Cmp) (o v : Word) : Bool :=
  match k with
  | .eq => o == v
  | .ne => o != v
  | .lt => o.slt v
  | .ge => !o.slt v
  | .ltu => o.ult v
  | .geu => !o.ult v
  | .tst => (o &&& v) != 0

end Sys2Proof.Machine
end

