-- ==== Sys2Proof/Machine/Units.lean ====
section
/-! DEFINITION. What the integer, bit-field, multiply, divide and vector units compute (R115 to R118, R128, R129). -/
namespace Sys2Proof.Machine

/-! ### ALU (R115) -/

/-- Rotate right by a bit count below 64. -/
def ror64 (x : Word) (n : Nat) : Word := x.rotateRight n
/-- Signed and unsigned minimum and maximum. -/
def minS (a b : Word) : Word := if a.slt b then a else b
def maxS (a b : Word) : Word := if a.slt b then b else a
def minU (a b : Word) : Word := if a.ult b then a else b
def maxU (a b : Word) : Word := if a.ult b then b else a
/-- A shift amount: bits 5:0 of the trigger value. -/
def shAmt (v : Word) : Nat := v.toNat % 64

/-! ### BFU (R116) -/

/-- POS and WIDTH of a field specification, the width cut at bit 63. -/
def bfPos (o : Word) : Nat := fld o 5 0
def bfWidth (o : Word) : Nat := min (fld o 13 8 + 1) (64 - bfPos o)
/-- The field of `v`, zero-extended, sign-extended. -/
def bfExtract (o v : Word) : Word := BitVec.ofNat 64 ((v.toNat >>> bfPos o) % 2 ^ bfWidth o)
def bfExtractS (o v : Word) : Word :=
  let x := (v.toNat >>> bfPos o) % 2 ^ bfWidth o
  BitVec.ofNat 64 (if x / 2 ^ (bfWidth o - 1) = 1 then x + 2 ^ 64 - 2 ^ bfWidth o else x)
/-- P with its field replaced by the low WIDTH bits of v. -/
def bfInsert (o p v : Word) : Word := putFld p (bfPos o + bfWidth o - 1) (bfPos o) (v.toNat % 2 ^ bfWidth o)
/-- Leading and trailing zero bits, one bits. -/
def clz64 (v : Word) : Word := BitVec.ofNat 64 (64 - bitLen v.toNat)
def ctzFrom : Nat → Nat → Nat
  | 0, _ => 0
  | n + 1, x => if x % 2 = 1 then 0 else 1 + ctzFrom n (x / 2)
def ctz64 (v : Word) : Word := BitVec.ofNat 64 (ctzFrom 64 v.toNat)
def popFrom : Nat → Nat → Nat
  | 0, _ => 0
  | n + 1, x => x % 2 + popFrom n (x / 2)
def popc64 (v : Word) : Word := BitVec.ofNat 64 (popFrom 64 v.toNat)
/-- Byte j is byte s of v for the selector s in bits 4j+3 to 4j of O; 0 for s of 8 to 15. -/
def bfPerm (o v : Word) : Word :=
  BitVec.ofNat 64 (leNat ((List.range 8).map (fun j =>
    let sel := (o.toNat >>> (4 * j)) % 16
    if sel < 8 then BitVec.ofNat 8 (v.toNat >>> (8 * sel)) else 0)))

/-! ### MUL and DIV (R117, R118) -/

/-- The 128-bit product, operands read as signed or unsigned. -/
def prod128 (so sv : Bool) (o v : Word) : BitVec 128 :=
  (if so then o.signExtend 128 else o.setWidth 128) * (if sv then v.signExtend 128 else v.setWidth 128)
/-- Quotient and remainder, signed: rounded toward zero, the remainder with the dividend's sign; the corners of R118. -/
def divS (o v : Word) : Word × Word := if v = 0 then (BitVec.allOnes 64, o) else (o.sdiv v, o.srem v)
/-- Quotient and remainder, unsigned. -/
def divU (o v : Word) : Word × Word := if v = 0 then (BitVec.allOnes 64, o) else (o.udiv v, o.umod v)

/-! ### VEC (R128, R129) -/

/-- Lane width in bits of an ELEM. -/
def elemBits (e : Nat) : Nat := match e with | 0 => 8 | 1 => 16 | 2 => 32 | 3 => 64 | 4 => 32 | _ => 64
/-- Is the ELEM floating point? -/
def elemFp (e : Nat) : Bool := 4 ≤ e
/-- Lanes of a 256-bit value, lane 0 first. -/
def lanes (w : Nat) (x : VWord) : List Nat := (List.range (256 / w)).map (fun i => (x.toNat >>> (w * i)) % 2 ^ w)
/-- A 256-bit value put together from lanes. -/
def joinLanes (w : Nat) : List Nat → Nat
  | [] => 0
  | x :: xs => x % 2 ^ w + 2 ^ w * joinLanes w xs
def ofLanes (w : Nat) (xs : List Nat) : VWord := BitVec.ofNat 256 (joinLanes w xs)

/-- A lane operation: integer result, or floating-point result with flags. -/
def laneOp (e rm : Nat) (ii : Nat → Nat → Nat → Nat) (ff : FpFmt → Nat → Nat → Nat → Nat → Nat × BitVec 5)
    (a b p : Nat) : Nat × BitVec 5 :=
  if elemFp e then ff (fmtOf (e == 4)) rm a b p else (ii a b p % 2 ^ elemBits e, 0)

/-- A lane operation over whole values; the flags of every lane together (R126). -/
def vecMap (e rm : Nat) (ii : Nat → Nat → Nat → Nat) (ff : FpFmt → Nat → Nat → Nat → Nat → Nat × BitVec 5)
    (o v p : VWord) : VWord × BitVec 5 :=
  let w := elemBits e
  let rs := ((lanes w o).zip ((lanes w v).zip (lanes w p))).map (fun t => laneOp e rm ii ff t.1 t.2.1 t.2.2)
  (ofLanes w (rs.map (·.1)), rs.foldl (fun f r => f ||| r.2) 0)

/-- A lane as a signed number. -/
def sgn (w x : Nat) : Int := if x / 2 ^ (w - 1) % 2 = 1 then (x : Int) - 2 ^ w else x
/-- A signed number in `w` bits. -/
def unsgn (w : Nat) (x : Int) : Nat := (x % (2 ^ w : Nat)).toNat

/-- T_VDOT (R128): each 32-bit lane of P plus the signed products within it. -/
def vecDot (e : Nat) (o v p : VWord) : VWord :=
  let w := elemBits e
  let n := 32 / w
  let os := lanes w o
  let vs := lanes w v
  ofLanes 32 ((List.range 8).map (fun i =>
    let terms := (List.range n).map (fun j => sgn w (os.getD (n * i + j) 0) * sgn w (vs.getD (n * i + j) 0))
    unsgn 32 (sgn 32 ((p.toNat >>> (32 * i)) % 2 ^ 32) + terms.foldl (· + ·) 0)))

/-- T_VPERM (R128). -/
def vecPerm (o v : VWord) : VWord :=
  let os := lanes 8 o
  ofLanes 8 ((lanes 8 v).map (fun b => if 128 ≤ b then 0 else os.getD (b % 32) 0))

/-- Neighbouring pairs added, each addition rounded (R129). -/
def pairAdd (f : FpFmt) (rm : Nat) : List Nat → List Nat × BitVec 5
  | a :: b :: t =>
    let r := fpAdd f rm a b
    let q := pairAdd f rm t
    (r.1 :: q.1, r.2 ||| q.2)
  | xs => (xs, 0)

/-- The fixed tree of R129, by as many levels as the fuel gives. -/
def treeAdd (f : FpFmt) (rm : Nat) : Nat → List Nat → BitVec 5 → Nat × BitVec 5
  | 0, xs, fl => (xs.headD 0, fl)
  | n + 1, xs, fl =>
    let r := pairAdd f rm xs
    treeAdd f rm n r.1 (fl ||| r.2)

/-- T_VRED (R128, R129): the sum of all lanes in lane 0, other lanes 0. -/
def vecRed (e rm : Nat) (v : VWord) : VWord × BitVec 5 :=
  let w := elemBits e
  if elemFp e then
    let r := treeAdd (fmtOf (e == 4)) rm (if w = 32 then 3 else 2) (lanes w v) 0
    (BitVec.ofNat 256 r.1, r.2)
  else (BitVec.ofNat 256 ((lanes w v).foldl (· + ·) 0 % 2 ^ w), 0)

/-- Every lane takes lane 0 (T_VSPLAT). -/
def vecSplat (e : Nat) (v : VWord) : VWord :=
  let w := elemBits e
  ofLanes w ((List.range (256 / w)).map (fun _ => v.toNat % 2 ^ w))

end Sys2Proof.Machine
end

