-- ==== Sys2Proof/Machine/CoreOps.lean ====
section
/-! DEFINITION. What every part of a core shares: its faults, its transactions, its writes to memory, and the abandoning
of a word (R111, R152, R154, R158). -/
namespace Sys2Proof.Machine

/-- SOURCE of a core and of its context save engine (R335). -/
def coreSrc (c sub : Nat) : BitVec 16 := BitVec.ofNat 16 (sub * 1024 + (coreInit c).toNat)

/-- The cell ID that a core's accesses carry (R13): the running cell; an S-core carries none. -/
def coreCell (k : Core) : Option CellId := k.cell.map (BitVec.ofNat 12)

/-- Is a core's read of an address answered OK by its fabric: its target is not fenced, and the fabric has a Pass or a path
to it that no DOWN link cuts (R62, R75, R76)? -/
def reaches (s : State) (c a : Nat) : Bool :=
  match endpointOf a with
  | none => false
  | some d =>
    let e := initEp (coreInit c)
    let p := passFor s (coreInit c) (coreCell (getCore s c)) d
    !s.fab.fences.contains d && (p.isSome || pathBoth s e d) && !wayDown s (routeThere p e d) e d && !wayDown s (routeBack p e d) d e

/-- A transaction handed to its source port, where it waits for its issue: it takes the next number. -/
def submit (s : State) (t : Txn) : State :=
  { s with fab := { s.fab with waiting := s.fab.waiting ++ [{ t with id := s.fab.nextId, issued := s.now }], nextId := s.fab.nextId + 1 } }

/-- A write performed by core `c` in its L1 data cache: the reservation of every other observer on its lines is lost, its
own is kept (R123). A slice reports a slot header only at the write-back (R360). -/
def performBy (s : State) (c pa : Nat) (bs : List Byte) : State :=
  let own := (getCore s c).resv
  updCore (putMem s pa bs) c (fun k => { k with resv := own })

/-- Is a word waiting or half transported? -/
def midWord (k : Core) : Bool := k.pre.isSome

/-- The words after the next one to run are squashed and fetch restarts at `pc` (R145): early fills are dropped, but for one
whose word has been transported (R163), and so is a walk that fetch waits for (R161, R164). -/
def refetch (k : Core) (pc : Word) : Core :=
  { k with dq := [], fq := [], group := none, fetchPc := pc, decRep := false, spec := k.spec.filter (fun l => l.keep),
           walk := match k.walk with | some w => if w.fetch then none else some w | none => none }

/-- The indirect-target table and its history flushed (R149). -/
def flushItt (k : Core) : Core := { k with itt := [], hist := [] }

/-- Every predictor and speculative buffer of a core flushed, as at a cell switch (R151, R165). -/
def flushCell (k : Core) : Core := { flushItt k with retStack := [], spec := [], dq := [], fq := [], group := none, walk := none }
/-- A fill's failed answer is forgotten with the word that waited for it, unless a store in the buffer waits for it too. -/
def dropFailed (k : Core) : Core :=
  { k with fills := k.fills.filter (fun f => f.fetch || f.failed.isNone || k.sbuf.any (fun e => 2 ≤ e.mt && e.pa / 64 = f.line)) }

/-- Log2 of an access size of 1, 2, 4 or 8 bytes. -/
def sizeCode (n : Nat) : BitVec 2 := if n = 1 then 0 else if n = 2 then 1 else if n = 4 then 2 else 3

/-- An answer as a 64-bit value. -/
def ansWord (d : List Byte) : Word := BitVec.ofNat 64 (leNat d)

/-- The device-read hold that an abandoned word leaves (R158): its read is not withdrawn. The answer of a
NORMAL_NC load is discarded (R152). -/
def holdOf (k : Core) : Option Hold :=
  match k.rdTxn with
  | none => k.hold
  | some t =>
    if t.stream = 2 ∧ t.kind = .read then
      some { cell := k.cell.getD 0, tcb := k.task.getD 0, pc := k.pc, va := t.va, size := sizeCode t.size, txn := t.id, answer := k.rdAns.map (fun a => (a.1, ansWord a.2)) }
    else k.hold

/-- Has the waiting word an atomic or a store-conditional under way at its target, which completes before the core stops
or takes an interrupt (R345, R425)? -/
def atomicOut (k : Core) : Bool :=
  match k.rdTxn with
  | some t => t.kind = .swap || t.kind = .fadd || t.kind = .cas || t.kind = .sc
  | none => false

/-- The word under way is given up: it is wholly unperformed, and a device load that waits goes into the hold. -/
def abandonWord (s : State) (c : Nat) : State :=
  updCore s c (fun k =>
    let h := holdOf k
    let m : CoreMode := match k.mode with | .waitLsu | .waitLong | .waitFence => .run | m => m
    { dropFailed k with ctx := k.pre.getD k.ctx, pre := none, hold := h, rdTxn := none, rdAns := none, rdInv := false, rdParts := [], walk := none, mode := m })

/-- A core stops at the word boundary before the word under way (R156, R423). -/
def stopAt (s : State) (c : Nat) (m : CoreMode) : State := updCore (abandonWord s c) c (fun k => { k with mode := m })

/-- Every result in flight reaches its port (R112). -/
def drainFlights (k : Ctx) : Ctx := settleAll (k.flights.map (·.unit)) k

end Sys2Proof.Machine
end

