-- ==== Sys2Proof/Machine/Ctl.lean ====
section
/-! DEFINITION. The shared operations of the event scheduler, the deadline monitor, the timers, the cell watchdogs, the
states of cells and the safe state (chapters 09, 10, 14 and 15). -/
namespace Sys2Proof.Machine

/-! ### Schedules (R208) -/

/-- The schedule records in force on a cluster: replaced ones stay until their instant (R50). -/
def schedRecs (s : State) (cl : Nat) : List Rec :=
  match s.comp.newSched.find? (fun e => e.1 = cl) with
  | some e => if s.now.toNat < e.2.toNat then s.comp.oldSched else s.comp.live
  | none => s.comp.live
/-- The FRETs of a cluster, and MAJOR_CYCLE. -/
def fretsOf (s : State) (cl : Nat) : List Rec := (recsOf (schedRecs s cl) tFRET).filter (fun r => ru8 r 0 = cl)
def majorOf (s : State) (cl : Nat) : Option Rec := findRec (schedRecs s cl) tMAJOR (fun r => ru8 r 0 = cl)
/-- The cells that a FRET admits. -/
def fretCells (r : Rec) : List Nat := (List.range (ru8 r 1)).map (fun i => ru16 r (12 + 2 * i))
/-- Is the fret open at an instant (R208)? -/
def fretAt (m r : Rec) (t : Nat) : Bool :=
  let cyc := ru32 m 4 * 100
  let x := (t + cyc - (ru32 m 8 * 100) % cyc) % cyc
  cyc ≠ 0 && ru32 r 4 * 100 ≤ x && x < (ru32 r 4 + ru32 r 8) * 100
/-- Is a cell windowed on a cluster; is it admitted there now? -/
def windowed (s : State) (cl c : Nat) : Bool := (majorOf s cl).isSome && (fretsOf s cl).any (fun r => (fretCells r).contains c)
def admitted (s : State) (cl c : Nat) : Bool :=
  !windowed s cl c || (fretsOf s cl).any (fun r => (getClu s cl).openFrets.contains (ru16 r 2) && (fretCells r).contains c)

/-! ### Ready queues and dispatch (R205, R207) -/

/-- The ready queue of a level. -/
def readyKey (s : State) (t : Nat) : Nat := (getTcb s t).cluster * 64 + (getTcb s t).prio
def setQueue (s : State) (key : Nat) (q : List Nat) : State := { s with sched := { s.sched with ready := put key q s.sched.ready } }
def enqTail (s : State) (t : Nat) : State := setQueue s (readyKey s t) (look [] (readyKey s t) s.sched.ready ++ [t])
def enqHead (s : State) (t : Nat) : State := setQueue s (readyKey s t) (t :: look [] (readyKey s t) s.sched.ready)
def dequeue (s : State) (t : Nat) : State := setQueue s (readyKey s t) ((look [] (readyKey s t) s.sched.ready).filter (fun u => u ≠ t))

/-- The task that a core runs, or will run once the preemption under way is done. -/
def coreTask (k : Core) : Option Nat := match k.preempt with | some x => x | none => k.task
/-- Can the scheduler use the core? -/
def usable (k : Core) : Bool := match k.mode with | .held | .locked | .safe => false | _ => true
/-- The core number of core `j` of a task's cluster, and of the core that runs a task or ran it last. -/
def coreOfTask (s : State) (t : Nat) : Nat := (getTcb s t).cluster * 8 + (getTcb s t).core
/-- Does the task on a core keep it: is it a task of a halted cell (R205)? -/
def keepsCore (s : State) (c : Nat) : Bool :=
  match (getCore s c).task with
  | some t => !(getCore s c).discard && (getTcb s t).state = .held && cellState s (getTcb s t).cell = .halted
  | none => false
/-- The cores a task is eligible on, lowest first: none while its cluster takes no steps (R17). -/
def eligibleCores (s : State) (t : Nat) : List Nat :=
  let x := getTcb s t
  if admitted s x.cluster x.cell && domainSteps s x.cluster then
    ((List.range 8).filter (fun j => x.coreMask.getLsbD j)).map (fun j => x.cluster * 8 + j) |>.filter (fun c => usable (getCore s c) && !keepsCore s c)
  else []

/-- A job slot, and one changed. -/
def getJob (s : State) (j : Nat) : Job := look {} j s.time.jobs
def updJob (s : State) (j : Nat) (f : Job → Job) : State := { s with time := { s.time with jobs := put j (f (getJob s j)) s.time.jobs } }
/-- USED begins and ceases to count for the open job of a task (R312). -/
def startUse (s : State) (t : Nat) : State :=
  match (getTcb s t).job with
  | none => s
  | some j => updJob s j (fun x => if x.since.isNone then { x with since := some s.now } else x)
def usedAt (x : Job) (t : Nat) : Nat := x.used + (match x.since with | some u => t - u.toNat | none => 0)
def stopUse (s : State) (t : Nat) : State :=
  match (getTcb s t).job with
  | none => s
  | some j => updJob s j (fun x => { x with used := usedAt x s.now.toNat, since := none })

/-- A READY task goes to a core that runs no task: it is RUNNING, and the switch to it starts (R205, R312). -/
def dispatchTo (s : State) (t c : Nat) : State :=
  let s1 := updTcb s t (fun x => { x with state := .running, core := c % 8 })
  startUse (updCore s1 c (fun k => { k with preempt := some (some t) })) t

/-- A task no longer comes to the core it was chosen for: it is READY at the head of its level. -/
def undispatch (s : State) (c : Nat) : State :=
  match (getCore s c).preempt with
  | some (some u) => enqHead (updTcb (stopUse s u) u (fun x => { x with state := .ready })) u
  | _ => s

/-- A core without a task that runs words all the same: a handler of L2 or L3 entered while the core was free, or the
code it was released at (R177, R409). -/
def inHandler (k : Core) : Bool := k.task.isNone && (match k.mode with | .run | .waitLsu | .waitLong | .waitFence => true | _ => false)

/-- The lines of a lower node, then those of the VALID groups of its upper node in their order, as far as the node buffer
of 2,048 bytes holds them (R195). -/
def nodeLines (s : State) (lo : Nat) : List Nat :=
  let hi := rdNat s lo 8
  let valid := rdNat s (hi + 8) 8 / 2 ^ 32
  let grp (g o n : Nat) : List Nat := if hi ≠ 0 ∧ valid.testBit g then (List.range n).map (fun i => hi + o + 64 * i) else []
  ((List.range 8).map (fun i => lo + 64 * i) ++ grp 2 0x100 2 ++ grp 3 0x180 2 ++ grp 4 0x40 3 ++ grp 4 0x200 8 ++ grp 5 0x400 8).take 32
/-- At the choice of a core for a task, its node's lines are prefetched and its resume line is asked for, unless
NODE_PREFETCH is clear; a node whose save is still under way is not read (R194, R195, R207). -/
def prefetchFor (s : State) (t c : Nat) : State :=
  let x := getTcb s t
  let lo := if x.nodeLo = 0 then x.srcLo else x.nodeLo
  if bit (stored s .cluSchedCtrl (0xF8000100000 + x.cluster * 0x10000)) 8 then
    updCore s c (fun k => { k with nodeBuf := if x.fresh || x.saving then [] else nodeLines s lo, resumeFor := some t })
  else updCore s c (fun k => { k with nodeBuf := [], resumeFor := none })

/-- A core is chosen for a task: the switch starts on a free core; a handler ends first, and a task that is on the core
is preempted first, while the chosen one stays READY (R205, R207, R312). -/
def giveTo (s : State) (t c : Nat) : State :=
  let k := getCore s c
  let s1 := prefetchFor s t c
  if k.task.isSome || inHandler k then updCore s1 c (fun k => { k with preempt := some (some t) }) else dispatchTo s1 t c
/-- A core is chosen for preemption by a READY task; one chosen for it before is READY again (R207, R211). -/
def preemptFor (s : State) (t c : Nat) : State := giveTo (undispatch s c) t c

/-- The lowest-numbered core of a list that runs no task; the core with the least PRIO, lowest number first. -/
def idleCore (s : State) (cs : List Nat) : Option Nat := cs.find? (fun c => (coreTask (getCore s c)).isNone)
def prioOn (s : State) (c : Nat) : Nat := match coreTask (getCore s c) with | some u => (getTcb s u).prio | none => 0
def weakest (s : State) : List Nat → Option Nat
  | [] => none
  | c :: cs => match weakest s cs with
    | none => some c
    | some d => if prioOn s c ≤ prioOn s d then some c else some d

/-- Where a READY task that no queue holds goes: to an idle core, or to one whose task has a lower PRIO (R207). -/
def place (s : State) (t : Nat) : Option State :=
  let cs := eligibleCores s t
  match idleCore s cs with
  | some c => some (giveTo s t c)
  | none =>
    match weakest s cs with
    | some c => if prioOn s c < (getTcb s t).prio then some (preemptFor s t c) else none
    | none => none
/-- A task becomes READY: it is dispatched, preempts, or joins the tail of its level (R207). -/
def makeReady (s : State) (t : Nat) : State :=
  let s1 := updTcb s t (fun x => { x with state := .ready })
  (place s1 t).getD (enqTail s1 t)
/-- A READY task in its queue is decided again: it keeps its place there where no core is for it. -/
def replace (s : State) (t : Nat) : State := (place (dequeue s t) t).getD s

/-- The task that a free core takes: the first eligible one of the highest nonempty level. -/
def nextTask (s : State) (c : Nat) : Nat → Option Nat
  | 0 => none
  | n + 1 =>
    match (look [] (c / 8 * 64 + n) s.sched.ready).find? (fun t => (eligibleCores s t).contains c) with
    | some t => some t
    | none => nextTask s c n

/-- A core that runs no task takes its next one (R207). -/
def feedCore (s : State) (c : Nat) : State :=
  match nextTask s c 64 with
  | some t => giveTo (dequeue s t) t c
  | none => s

/-- The task on a core is to leave it: the core is preempted, for the task already chosen or for its next one (R205). -/
def vacate (s : State) (c : Nat) : State :=
  if (getCore s c).preempt.isSome then s else feedCore (updCore s c (fun k => { k with preempt := some none })) c
/-- A task that was RUNNING no longer is: it leaves its core, or comes no more to the core it was dispatched to. -/
def leaveCore (s : State) (t : Nat) : State :=
  let c := coreOfTask s t
  let k := getCore s c
  if k.task = some t ∧ !k.discard then vacate s c
  else if k.preempt = some (some t) then feedCore (updCore s c (fun k => { k with preempt := none })) c
  else s
/-- Does the task on a core stay there when no other is chosen for the core? -/
def staysOn (s : State) (c : Nat) : Bool :=
  match (getCore s c).task with
  | none => true
  | some t => keepsCore s c || (!(getCore s c).discard && (getTcb s t).state == .running && coreOfTask s t == c && admitted s (c / 8) (getTcb s t).cell)
/-- The choice of a task for a core is withdrawn: the task on the core stays, or leaves for the next one. -/
def unchoose (s : State) (c : Nat) : State :=
  if (getCore s c).task.isNone then feedCore (updCore s c (fun k => { k with preempt := none })) c
  else if staysOn s c then updCore s c (fun k => { k with preempt := none })
  else feedCore (updCore s c (fun k => { k with preempt := some none })) c
/-- A READY task leaves its queue, and the core chosen for it. -/
def forget (s : State) (t : Nat) : State :=
  ((List.range 8).map (fun j => (getTcb s t).cluster * 8 + j)).foldl (fun s c =>
    if (getCore s c).preempt = some (some t) then unchoose s c else s) (dequeue s t)

/-- One evaluation of a cluster (R208): tasks of windowed cells that no open fret admits are preempted, or no longer come
to their core, and then READY tasks are dispatched in queue order, each keeping its place where no core is for it. -/
def evaluate (s : State) (cl : Nat) : State :=
  let cores := (List.range 8).map (fun j => cl * 8 + j)
  let s1 := cores.foldl (fun s c =>
    let s1 := match (getCore s c).preempt with
      | some (some u) => if admitted s cl (getTcb s u).cell then s
          else updCore (undispatch s c) c (fun k => { k with preempt := if k.task.isNone || staysOn s c then none else some none })
      | _ => s
    match (getCore s1 c).task with
    | some t => if (getTcb s1 t).state = .running ∧ !staysOn s1 c ∧ (getCore s1 c).preempt.isNone then updCore s1 c (fun k => { k with preempt := some none }) else s1
    | none => s1) s
  ((List.range 64).reverse.flatMap (fun p => look [] (cl * 64 + p) s1.sched.ready)).foldl replace s1

/-! ### Deadline jobs (R308 to R316) -/

def timeSrc (sub : Nat) : BitVec 16 := src 0x63 4 sub
def jobRec (s : State) (j : Nat) : Option Rec := findRec s.comp.live tJOB (fun r => ru16 r 0 = j)
def jobFlag (r : Rec) (i : Nat) : Bool := (ru16 r 6).testBit i
/-- A class delivered to the hypervisor (R315). -/
def tellHv (s : State) (cls detail home : Nat) (origin : Option Nat) : State :=
  { s with sched := { s.sched with evHv := s.sched.evHv ++ [{ cls := cls, detail := detail, home := home, origin := origin }] } }

/-- An open instance ends: the slot's state, its outcome count, and the task's open job (R308). -/
def endJob (s : State) (j : Nat) (goal : JobState) (count : Job → Job) : State :=
  let s1 := match (jobRec s j).map (fun r => ru16 r 4) with
    | some t => updTcb (stopUse s t) t (fun x => if x.job = some j then { x with job := none } else x)
    | none => s
  updJob s1 j (fun x => count { x with state := goal })

/-- A miss (R311, R314). -/
def missJob (s : State) (j : Nat) (goal : JobState) : State :=
  match jobRec s j with
  | none => s
  | some r =>
    let s1 := endJob s j goal (fun x => { x with nMissed := satAdd x.nMissed 1 })
    let s2 := raise s1 { code := 0x0701, cls := if jobFlag r 0 then 3 else 2, source := timeSrc 1, cell := some (BitVec.ofNat 12 (ru16 r 2)), syndrome := BitVec.ofNat 64 (ru16 r 4 * 65536 + j) }
    tellHv s2 0x0F j (getTcb s (ru16 r 4)).cluster (some (ru16 r 2))

/-- The instant at which an open job's budget is exhausted (R312), while its USED counts. -/
def exhaustAt (s : State) (r : Rec) (j : Nat) : Option Nat :=
  let x := getJob s j
  match x.exhausted, x.since with
  | none, some u => some (u.toNat + (ru32 r 16 - x.used))
  | _, _ => none

/-- A budget overrun (R313): with OVERRUN_FAULT 0 the job closes OVERRUN and its task enters BUDGET_HELD. The record's
SYNDROME, job and TCB as R314 has them for a miss, is the model's (DESIGN CHOICE, assumption 58). -/
def overrunJob (s : State) (j : Nat) : State :=
  match jobRec s j with
  | none => s
  | some r =>
    let t := ru16 r 4
    let s1 := raise s { code := 0x0702, cls := 0, source := timeSrc 1, cell := some (BitVec.ofNat 12 (ru16 r 2)), syndrome := BitVec.ofNat 64 (t * 65536 + j) }
    let e := (exhaustAt s r j).elim s.now (BitVec.ofNat 64)
    if jobFlag r 1 then tellHv (updJob s1 j (fun x => { x with exhausted := some e })) 0x10 j (getTcb s t).cluster (some (ru16 r 2))
    else
      let s2 := updJob (endJob s1 j .idle (fun x => { x with nOverrun := satAdd x.nOverrun 1 })) j (fun x => { x with exhausted := some e })
      let hold (s : State) : State := updTcb s t (fun x => { x with state := .budgetHeld, budgetJob := some j })
      match (getTcb s t).state with
      | .running => leaveCore (hold s2) t
      | .ready => forget (hold s2) t
      | _ => s2

/-- A close of the job is on its way with a stamp that `ok` accepts (R310, R311). -/
def closeComes (s : State) (j : Nat) (ok : Nat → Bool) : Bool := s.time.closes.any (fun c => c.1 = j && ok c.2.toNat)
/-- An open job whose budget was exhausted at or before an instant and its deadline overruns first, whether or not
BUDGET_EXHAUSTION has come yet: stamps decide, not the order of arrival (R313). -/
def overrunFirst (s : State) (r : Rec) (j : Nat) (limit : Nat) : State :=
  match exhaustAt s r j with
  | some e => if e ≤ limit ∧ e ≤ (getJob s j).deadline.toNat then overrunJob s j else s
  | none => s
/-- What a close with its stamp does to an open job (R310, R311, R313): a stamp before the exhaustion instant and at or
before the deadline ends it DONE. -/
def closeJob (s : State) (j : Nat) (stamp : Nat) : State :=
  match jobRec s j with
  | none => s
  | some r =>
    if (getJob s j).state ≠ .opened then s
    else
      let s1 := overrunFirst s r j stamp
      if (getJob s1 j).state ≠ .opened then s1
      else if stamp ≤ (getJob s j).deadline.toNat then endJob s1 j .idle (fun x => { x with nDone := satAdd x.nDone 1 })
      else missJob s1 j .idle
/-- An open job whose deadline has passed with no close stamped at or before it (R311). -/
def expireJob (s : State) (j : Nat) : State :=
  match jobRec s j with
  | none => s
  | some r =>
    let s1 := overrunFirst s r j (getJob s j).deadline.toNat
    if (getJob s1 j).state ≠ .opened then s1 else missJob s1 j .idle
/-- An open job of which a close stamped at or before its deadline is on its way is judged by that close now; the close
has then arrived (R311). -/
def settleJob (s : State) (j : Nat) : State :=
  match s.time.closes.find? (fun c => c.1 = j ∧ c.2.toNat ≤ (getJob s j).deadline.toNat) with
  | some c => closeJob { s with time := { s.time with closes := s.time.closes.filter (fun c => c.1 ≠ j) } } j c.2.toNat
  | none => s

/-- A routed event reaches its task (R206). -/
def deliverTask (s : State) (t : Nat) : State :=
  let x := getTcb s t
  match x.state with
  | .waiting => makeReady s t
  | .dormant => updClu s x.cluster (fun c => { c with dropped := satAdd c.dropped 1 })
  | _ =>
    if x.pending < 255 then updTcb s t (fun x => { x with pending := x.pending + 1 })
    else fault s 0x0304 (src x.cluster 0 2) (some x.cell)

/-- Does a cluster take events, or does the power controller hold them since its entry began (R387)? -/
def clusterTakes (s : State) (cl : Nat) : Bool := (getDom s cl).state = .run
/-- An event for a sleeping cluster is held in its order and wakes it; a count of an event number that would pass 255
saturates (R387). -/
def holdForCluster (s : State) (cl : Nat) (m : EvMsg) : State :=
  let q := look [] cl s.pwr.held
  let s1 := if 255 ≤ (q.filter (fun x => x.num = m.num)).length then fault s 0x0304 (src cl 0 2) (some (getTcb s m.tcb).cell)
    else { s with pwr := { s.pwr with held := put cl (q ++ [m]) s.pwr.held } }
  wakeDom s1 cl

/-- A release of a job with its stamp (R309). SYNDROME of JOB_OVERLAP, job and TCB as R314 has them for a miss, is the
model's (DESIGN CHOICE, assumption 58). -/
def releaseJob (s : State) (j : Nat) (stamp : Word) : State :=
  match jobRec s j with
  | none => s
  | some r =>
    let x := getJob s j
    let t := ru16 r 4
    let overlap (s : State) : State :=
      raise (updJob s j (fun x => { x with nOverlap := satAdd x.nOverlap 1 })) { code := 0x0703, cls := 0, source := timeSrc 1, cell := some (BitVec.ofNat 12 (ru16 r 2)), syndrome := BitVec.ofNat 64 (t * 65536 + j) }
    let openIt (s : State) : State :=
      if (getTcb s t).job.isSome then overlap s
      else
        -- a close stamped before this release was for an earlier instance
        let s0 := { s with time := { s.time with closes := s.time.closes.filter (fun c => c.1 ≠ j ∨ stamp.toNat ≤ c.2.toNat) } }
        let s1 := updTcb s0 t (fun y => { y with job := some j })
        let s2 := updJob s1 j (fun y => { y with state := .opened, deadline := stamp + BitVec.ofNat 64 (ru32 r 20), used := 0, exhausted := none, since := if (getTcb s t).state = .running then some stamp else none })
        if (getTcb s2 t).state = .budgetHeld ∧ (getTcb s2 t).budgetJob = some j then makeReady s2 t else s2
    match x.state with
    | .unused | .suspended => s
    | .idle => openIt s
    | .opened =>
      if stamp.toNat < x.deadline.toNat then overlap s
      else if closeComes s j (fun c => c ≤ x.deadline.toNat) then openIt (settleJob s j)
      else openIt (expireJob s j)

/-- The open jobs of a cell suspend as the cell leaves ACTIVE (R308, R49); a close on its way in time ends its job DONE
first (R311). -/
def suspendJobs (s : State) (c : Nat) : State :=
  ((recsOf s.comp.live tJOB).filter (fun r => ru16 r 2 = c)).foldl (fun s r =>
    let j := ru16 r 0
    match (getJob s j).state with
    | .opened =>
      let s0 := settleJob s j
      let s1 := if (getJob s0 j).state = .opened ∧ (getJob s0 j).deadline.toNat < s.now.toNat then expireJob s0 j else s0
      endJob s1 j .suspended (fun x => x)
    | .idle => updJob s j (fun x => { x with state := .suspended })
    | _ => s) s
def resumeJobs (s : State) (c : Nat) : State :=
  ((recsOf s.comp.live tJOB).filter (fun r => ru16 r 2 = c)).foldl (fun s r =>
    if (getJob s (ru16 r 0)).state = .suspended then updJob s (ru16 r 0) (fun x => { x with state := .idle }) else s) s

/-! ### Timers (R305 to R307) -/

def getTimer (s : State) (t : Nat) : Timer := look {} t s.time.timers
def updTimer (s : State) (t : Nat) (f : Timer → Timer) : State := { s with time := { s.time with timers := put t (f (getTimer s t)) s.time.timers } }
/-- The owner of a timer: a cell, or `none` for the hypervisor (R305). -/
def timerOwner (s : State) (t : Nat) : Option Nat :=
  if s.comp.isSealed then (routeOf s.comp.live (128 + t)).bind (fun r => if ru8 r 6 = 0 then some (ru16 r 2) else none) else none
/-- May the timer raise its event now (R307, R326, R340)? -/
def timerRuns (s : State) (t : Nat) : Bool :=
  match timerOwner s t with
  | none => true
  | some c => cellState s c = .active && !s.flt.safe

/-- An expiry at its compare value: stamped CMP (R306). -/
def expireTimer (s : State) (t : Nat) : State :=
  let x := getTimer s t
  updTimer (raiseEventAt s (128 + t) x.cmp) t (fun x =>
    if x.periodic ∧ x.period ≠ 0 then { x with cmp := x.cmp + x.period.setWidth 64 } else { x with en := false })
/-- An expiry that is late: it is stamped now, and a periodic timer passes over the expiries it skipped (R306, R307). -/
def expireLate (s : State) (t : Nat) : State :=
  updTimer (raiseEvent s (128 + t)) t (fun x =>
    if x.periodic ∧ x.period ≠ 0 then
      let n := (s.now.toNat - x.cmp.toNat) / x.period.toNat + 1
      { x with cmp := x.cmp + BitVec.ofNat 64 (n * x.period.toNat), missed := satAdd x.missed (n - 1) }
    else { x with en := false })
/-- The timers of a cell whose compare value passed while it was not ACTIVE (R307). -/
def wakeTimers (s : State) (c : Nat) : State :=
  (s.time.timers.map (·.1)).foldl (fun s t =>
    if timerOwner s t = some c ∧ (getTimer s t).en ∧ (getTimer s t).cmp.toNat ≤ s.now.toNat ∧ timerRuns s t then expireLate s t else s) s

/-! ### Cell watchdogs (R318 to R320) -/

def getWd (s : State) (c : Nat) : CellWd := look {} c s.time.wds
def updWd (s : State) (c : Nat) (f : CellWd → CellWd) : State := { s with time := { s.time with wds := put c (f (getWd s c)) s.time.wds } }
def wdMin (s : State) (c : Nat) : Nat := ((cellRec s.comp.live c).map (fun r => ru32 r 12)).getD 0
def wdMax (s : State) (c : Nat) : Nat := ((cellRec s.comp.live c).map (fun r => ru32 r 16)).getD 0
/-- Elapsed nanoseconds; elapsed time counts in whole microseconds (R318). -/
def wdNs (s : State) (c : Nat) : Nat := let w := getWd s c; if w.frozen then w.kept else s.now.toNat - w.base.toNat
def wdUs (s : State) (c : Nat) : Nat := wdNs s c / 1000
/-- Does it watch? -/
def wdOn (w : CellWd) : Bool := w.state = .first || w.state = .running
/-- It starts when its cell becomes ACTIVE (R318); in safe state it starts frozen (R340). -/
def wdStart (s : State) (c : Nat) : State :=
  if wdMax s c = 0 then updWd s c (fun _ => {}) else updWd s c (fun _ => { state := .first, base := s.now, frozen := s.flt.safe })
def wdFreeze (s : State) (c : Nat) : State :=
  if wdOn (getWd s c) ∧ !(getWd s c).frozen then updWd s c (fun w => { w with frozen := true, kept := wdNs s c }) else s
/-- It stops; the time since its last kick goes on being told (ELAPSED_US). -/
def wdStop (s : State) (c : Nat) : State :=
  updWd s c (fun w => { w with state := .stopped, frozen := false, base := s.now - BitVec.ofNat 64 (wdNs s c), kept := 0 })
/-- It runs again, with at least GRACE_US left (R320); not while the device is in safe state (R340). -/
def wdThaw (s : State) (c : Nat) : State :=
  let w := getWd s c
  if w.frozen ∧ !s.flt.safe then
    let e := min w.kept ((wdMax s c - (debugPolicy s.comp.live).2.2) * 1000)
    updWd s c (fun w => { w with frozen := false, base := s.now - BitVec.ofNat 64 e, kept := 0 })
  else s
/-- A failed window: recorded, delivered as class WATCHDOG, and the watchdog stops (R318, R315). -/
def wdFail (s : State) (c code : Nat) : State :=
  let s1 := wdStop s c
  let s2 := fault s1 code (timeSrc 2) (some c)
  tellHv s2 0x11 c (((List.range 16).find? (fun n => (clusterMask s.comp.live c).testBit n)).getD 0) (some c)

/-! ### The states of a cell (R215, R326, R49, R428) -/

/-- The TCBs of a cell's tasks. -/
def tasksOf (s : State) (c : Nat) : List Nat := ((recsOf s.comp.live tTASK).filter (fun r => ru16 r 0 = c)).map (fun r => ru16 r 2)

/-- A task is HELD (R205). A running task is preempted, but the task of a halted cell keeps its core, and a task chosen
for that core is decided again. -/
def holdTask (s : State) (keepCore : Bool) (t : Nat) : State :=
  let x := getTcb s t
  let c := coreOfTask s t
  let hold (s : State) : State := updTcb s t (fun y => { y with state := .held, heldFrom := x.state })
  match x.state with
  | .dormant | .held => s
  | .running =>
    if keepCore ∧ (getCore s c).task = some t then
      match (getCore s c).preempt with
      | some (some u) => replace (updCore (undispatch (hold s) c) c (fun k => { k with preempt := none })) u
      | _ => updCore (hold s) c (fun k => { k with preempt := none })
    else leaveCore (hold s) t
  | .ready => forget (hold s) t
  | .waiting | .budgetHeld => hold s

/-- A task leaves HELD (R205). One that kept its stopped core runs on there. -/
def freeTask (s : State) (t : Nat) : State :=
  let x := getTcb s t
  if x.state ≠ .held then s
  else if x.heldFrom = .running ∧ (getCore s (coreOfTask s t)).task = some t ∧ !(getCore s (coreOfTask s t)).discard ∧ (getCore s (coreOfTask s t)).preempt.isNone then
    let s1 := updTcb s t (fun x => { x with state := .running })
    if staysOn s1 (coreOfTask s1 t) then s1 else vacate s1 (coreOfTask s1 t)
  else if x.heldFrom = .running ∨ x.heldFrom = .ready ∨ 0 < x.pending then makeReady s t
  else updTcb s t (fun x => { x with state := .waiting })

/-- Does the debugger's setting freeze a halted cell's watchdog (R320, R428)? -/
def haltFreezes (s : State) (c : Nat) : Bool :=
  match fld (look {} c s.dbg.cells).ctrl 35 34 with
  | 1 => true
  | 2 => false
  | _ => (debugPolicy s.comp.live).2.1

/-- A cell leaves ACTIVE for a state: its tasks are HELD, its jobs suspend, its watchdog stops or freezes, its streams
follow (R49, R326, R428). -/
def leaveActive (s : State) (c : Nat) (goal : CellState) : State :=
  let s1 := updCell (suspendJobs s c) c (fun x => { x with state := goal })
  let runs (t : Nat) : Bool := (getTcb s1 t).state == .running
  let ts := tasksOf s1 c
  let s2 := (ts.filter (fun t => !runs t) ++ ts.filter runs).foldl (fun s t => holdTask s (goal = .halted) t) s1
  let s3 := match goal with
    | .quiesced => wdFreeze s2 c
    | .halted => if haltFreezes s2 c then wdFreeze s2 c else s2
    | _ => if wdOn (getWd s2 c) then wdStop s2 c else s2
  netRefresh s3

/-- The stopped cores of a cell are released: each takes the preemption of the cell's task (R326, R430). -/
def releaseStopped (s : State) (c : Nat) : State :=
  let s1 := (listedCores s).foldl (fun s n =>
    let k := getCore s n
    if k.mode = .stopped ∧ k.cell = some c ∧ k.task.isSome then updCore s n (fun k => { k with mode := .run, preempt := some none, stopReq := false })
    else if k.cell = some c then updCore s n (fun k => { k with stopReq := false }) else s) s
  { s1 with dbg := { s1.dbg with cells := s1.dbg.cells.map (fun e => if e.1 = c then (e.1, { e.2 with stopped := [], waiting := [] }) else e) } }

/-- A class K fault, or CELL_CMD FAULT, stops a cell (R215, R326): an ACTIVE or HALTED cell becomes FAULTED, and so does
a target cell while the engine is still QUIESCING (R52). -/
def faultCell (s : State) (c : Nat) : State :=
  match cellState s c with
  | .active => leaveActive s c .faulted
  | .halted => releaseStopped (leaveActive s c .faulted) c
  | .quiesced => if s.comp.engine = .quiescing then leaveActive s c .faulted else s
  | _ => s

/-- A cell becomes ACTIVE: at its creation and at a RESTART its watchdog starts afresh, otherwise it runs on. -/
def enterActive (s : State) (c : Nat) (afresh : Bool) : State :=
  let s1 := updCell s c (fun x => { x with state := .active })
  let s2 := resumeJobs s1 c
  let s3 := if afresh then wdStart s2 c else wdThaw s2 c
  let s4 := wakeTimers s3 c
  netRefresh ((tasksOf s c).foldl freeTask s4)

/-! ### Safe state (R340) -/

/-- Entry into safe state: SAFE and its cause, every stream to its safe frame, every A-core held at its next word
boundary, cell watchdogs frozen, sleeping domains awake (R340, R391). -/
def enterSafe (s : State) (cause : SafeCause) : State :=
  if s.flt.safe then s
  else
    let s1 := { s with flt := { s.flt with safe := true, safeCause := cause } }
    let s2 := (s.time.wds.map (·.1)).foldl wdFreeze s1
    let s3 := (listedCores s).foldl (fun s c =>
      if isS c ∨ (getCore s c).mode = .locked ∨ atomicOut (getCore s c) then s else stopAt s c .safe) s2
    pwrSafe (netRefresh s3)

end Sys2Proof.Machine
end

