-- ==== Sys2Proof/Machine/Time.lean ====
section
/-! DEFINITION. The timebase, timers, deadline jobs, cell watchdogs and the device watchdog as commands (chapter 14). -/
namespace Sys2Proof.Machine

def timeBase : Nat := 0xF8000030000
def updTime (s : State) (f : TimeSt → TimeSt) : State := { s with time := f s.time }

/-! ### The timebase (R299 to R303) -/

/-- May this party correct the timebase (R323): CLU_0 to CLU_15 and AON? -/
def timeParty (a : Access) : Bool := initEp a.init ≤ 15 || initEp a.init == 0x63
/-- A value of RATE as a signed number's magnitude. -/
def rateMag (v : Word) : Nat := ((v.setWidth 32).toInt).natAbs

/-- A write of TIME_RATE: a magnitude above the limit is a reserved value (R300, R5). -/
def writeRate (s : State) (a : Access) (v m : Word) : State :=
  let pa := timeBase + 0x18
  if !timeParty a then refuse s a 0x070B (timeSrc 0) pa
  else if fld m 31 0 = 0 then s
  else if fld (stored s .timeCtrl timeBase) 23 16 * 256000 < rateMag v then refuse s a 0x0003 (timeSrc 0) pa
  else store s pa (v &&& 0xFFFFFFFF)
def execTimeRateWrite (a : Access) (v : Word) (s : State) : Host.Outcome State Fault Refusal := .next (writeRate s a v 0xFFFFFFFF)

/-- A write of TIME_STEP: a forward step, before the first SEAL only (R300). A 32-bit write adds the half written. -/
def writeStep (s : State) (a : Access) (v m : Word) : State :=
  let pa := timeBase + 0x20
  if !timeParty a then refuse s a 0x070B (timeSrc 0) pa
  else if s.comp.isSealed then refuse s a 0x0001 (timeSrc 0) pa
  else { s with now := s.now + (v &&& m) }
def execTimeStepWrite (a : Access) (v : Word) (s : State) : Host.Outcome State Fault Refusal := .next (writeStep s a v (BitVec.allOnes 64))

/-- TIME_REF_LOSS (R301): the PLL enters holdover. -/
def execTimeRefLoss (s : State) : Host.Outcome State Fault Refusal :=
  .next (fault (updTime s (fun t => { t with holdover := true, refOk := false, goodSince := none })) 0x0709 (timeSrc 0) none)
/-- REF_OK: the reference is back within limits; out of holdover, the PLL is locked to it (R301). -/
def execRefOk (s : State) : Host.Outcome State Fault Refusal :=
  .next (updTime s (fun t => { t with refOk := true, goodSince := some s.now, locked := t.locked || !t.holdover }))
/-- HOLDOVER_EXIT: 1 ms after the reference is good again (R301). -/
def execHoldoverExit (s : State) : Host.Outcome State Fault Refusal :=
  .next (match s.time.goodSince with
    | some g => if s.time.holdover ∧ g.toNat + 1000000 ≤ s.now.toNat then updTime s (fun t => { t with holdover := false, goodSince := none, locked := true }) else s
    | none => s)
/-- TIME_PLL_UNLOCK (R301). -/
def execTimePllUnlock (s : State) : Host.Outcome State Fault Refusal :=
  .next (fault (updTime s (fun t => { t with locked := false })) 0x070A (timeSrc 0) none)

/-- PPS_OUT_RISE: the counter has passed k × 10⁹ + OFFSET_NS (R303). -/
def execPpsOutRise (s : State) : Host.Outcome State Fault Refusal :=
  let pps := stored s .timePps (timeBase + 0x28)
  let since := (s.now.toNat + 1000000000 - fld pps 63 32) % 1000000000
  .next (if bit (stored s .timeCtrl timeBase) 8 ∧ !s.time.ppsOut ∧ since < fld pps 23 16 * 1000000 then
    updTime s (fun t => { t with ppsOut := true, ppsRise := s.now - BitVec.ofNat 64 since }) else s)
/-- PPS_OUT_FALL: WIDTH_MS after its rise (R303). -/
def execPpsOutFall (s : State) : Host.Outcome State Fault Refusal :=
  .next (if s.time.ppsOut ∧ s.time.ppsRise.toNat + fld (stored s .timePps (timeBase + 0x28)) 23 16 * 1000000 ≤ s.now.toNat then
    updTime s (fun t => { t with ppsOut := false }) else s)
/-- PPS_IN_EDGE latches the counter and raises device event 32 (R303). -/
def execPpsInEdge (s : State) : Host.Outcome State Fault Refusal :=
  let old := s.time.ppsCap
  let cap := (s.now &&& 0x3FFFFFFFFFFFFFFF) ||| 0x8000000000000000 ||| (if bit old 63 ∨ bit old 62 then 0x4000000000000000 else 0)
  .next (raiseEvent (updTime s (fun t => { t with ppsCap := cap })) 32)

/-! ### Timers (R305 to R307) -/

/-- TIMER_EXPIRY: the counter has reached CMP (R306). -/
def execTimerExpiry (t : BitVec 8) (s : State) : Host.Outcome State Fault Refusal :=
  let x := getTimer s t.toNat
  .next (if x.en ∧ x.cmp.toNat ≤ s.now.toNat ∧ timerRuns s t.toNat then expireTimer s t.toNat else s)

/-- The timer expires at once where its compare value has passed (R306). -/
def dueNow (s : State) (t : Nat) : State :=
  let x := getTimer s t
  if x.en ∧ x.cmp.toNat ≤ s.now.toNat ∧ timerRuns s t then expireLate s t else s

/-- A write of a timer's control (R306, R307). -/
def writeTimerCtrl (s : State) (t : Nat) (v m : Word) : State :=
  let x := getTimer s t
  let cur := putFld (BitVec.ofNat 64 (b2n x.en + 2 * b2n x.periodic)) 63 32 x.period.toNat
  let w := (cur &&& ~~~m) ||| (v &&& m)
  let s1 := updTimer s t (fun x => { x with en := bit w 0, periodic := bit w 1, period := BitVec.ofNat 32 (fld w 63 32) })
  if bit w 0 ∧ !x.en then dueNow s1 t else s1
/-- A write of a timer's compare value. -/
def writeTimerCmp (s : State) (t : Nat) (v m : Word) : State :=
  dueNow (updTimer s t (fun x => { x with cmp := (x.cmp &&& ~~~m) ||| (v &&& m) })) t

/-- Does an access reach a timer's own registers (R305)? Without the owner's cell ID they answer DECODE. -/
def timerReach (s : State) (a : Access) (t : Nat) : Bool :=
  match timerOwner s t with
  | some c => a.cell.map (·.toNat) == some c
  | none => false

/-! ### Deadline jobs (R309 to R314) -/

/-- JOB_RELEASE_PERIODIC: a multiple of PERIOD_NS not yet taken as a release has come (R309). -/
def execJobReleasePeriodic (j : BitVec 14) (s : State) : Host.Outcome State Fault Refusal :=
  .next (match jobRec s j.toNat with
    | none => s
    | some r =>
      let p := ru32 r 12
      let k := max (getJob s j.toNat).next 1
      if jobFlag r 2 ∧ p ≠ 0 ∧ k * p ≤ s.now.toNat ∧ !s.flt.safe then
        let st := (getJob s j.toNat).state
        let s1 := updJob s j.toNat (fun x => { x with next := k + 1 })
        if st = .unused ∨ st = .suspended then s1
        else
          let s2 := releaseJob s1 j.toNat (BitVec.ofNat 64 (k * p))
          let cl := (getTcb s2 (ru16 r 4)).cluster
          -- a sleeping cluster's task hears of the release when it wakes; numbers from 65,536 up stand for releases
          if clusterTakes s2 cl then deliverTask s2 (ru16 r 4) else holdForCluster s2 cl { num := 65536 + j.toNat, tcb := ru16 r 4, stamp := BitVec.ofNat 64 (k * p) }
      else s)

/-- JOB_CLOSE_ARRIVAL: the oldest close on its way reaches the monitor. In safe state it closes nothing (R340). -/
def execJobCloseArrival (s : State) : Host.Outcome State Fault Refusal :=
  .next (match s.time.closes with
    | [] => s
    | c :: cs =>
      let s1 := updTime s (fun t => { t with closes := cs })
      if s.flt.safe then s1 else closeJob s1 c.1 c.2.toNat)

/-- DEADLINE_EXPIRY: the deadline has passed, and no close stamped at or before it is on its way (R311). -/
def execDeadlineExpiry (j : BitVec 14) (s : State) : Host.Outcome State Fault Refusal :=
  let x := getJob s j.toNat
  .next (
    if x.state = .opened ∧ x.deadline.toNat < s.now.toNat ∧ !s.flt.safe ∧ !closeComes s j.toNat (fun c => c ≤ x.deadline.toNat) then
      expireJob s j.toNat
    else s)

/-- BUDGET_EXHAUSTION: USED has reached BUDGET_NS, and no close stamped before that instant is on its way (R313). -/
def execBudgetExhaustion (j : BitVec 14) (s : State) : Host.Outcome State Fault Refusal :=
  let x := getJob s j.toNat
  .next (match jobRec s j.toNat with
    | none => s
    | some r =>
      match exhaustAt s r j.toNat with
      | some e =>
        if x.state = .opened ∧ e ≤ s.now.toNat ∧ e ≤ x.deadline.toNat ∧ !s.flt.safe ∧ !closeComes s j.toNat (fun c => c < e) then overrunJob s j.toNat else s
      | none => s)

/-! ### Cell watchdogs (R318, R319) -/

/-- A kick of a cell's watchdog with its key. -/
def kickWd (s : State) (c key : Nat) : State :=
  let w := getWd s c
  if !wdOn w ∨ w.frozen then s
  else if wdMax s c < wdUs s c then wdFail s c 0x0704
  else if key ≠ 0x5A ∨ (w.state = .running ∧ wdUs s c < wdMin s c) then wdFail s c 0x0705
  else updWd s c (fun w => { w with state := .running, base := s.now })
/-- A write of TIME_WD_KICK kicks the watchdog of the cell ID that the access carries (R319). -/
def writeWdKick (s : State) (a : Access) (v m : Word) : State :=
  if fld m 7 0 = 0 then s else match a.cell with
    | some c => kickWd s c.toNat (fld v 7 0)
    | none => s
def execWdKick (a : Access) (v : Word) (s : State) : Host.Outcome State Fault Refusal := .next (writeWdKick s a v 0xFF)
/-- WD_EXPIRED: no kick by WD_MAX_US (R318). -/
def execWdExpired (cell : CellId) (s : State) : Host.Outcome State Fault Refusal :=
  let c := cell.toNat
  .next (if wdOn (getWd s c) ∧ !(getWd s c).frozen ∧ wdMax s c ≤ wdUs s c then wdFail s c 0x0704 else s)

/-! ### The device watchdog (R321, R322) -/

/-- Elapsed timebase time of the device watchdog's window, in nanoseconds. -/
def devElapsed (s : State) : Nat := s.now.toNat - s.time.devLast.toNat
/-- The device watchdog trips: DEV_WATCHDOG, WDO low, and safe state without firmware; only PORST_N ends it. -/
def devTrip (s : State) : State :=
  let s1 := updTime s (fun t => { t with devTripped := true, wdo := false })
  enterSafe (fault s1 0x0707 (timeSrc 3) none) .devWd
/-- A write of TIME_DEV_WD_KICK. -/
def writeDevKick (s : State) (a : Access) (v m : Word) : State :=
  if !isMld a then refuse s a 0x070B (timeSrc 0) (timeBase + 0x98)
  else if fld m 7 0 = 0 then s
  else if s.time.devTripped then s
  else if fld v 7 0 ≠ 0x5A ∨ devElapsed s < s.time.devMin.toNat * 1000000 ∨ s.time.devMax.toNat * 1000000 < devElapsed s then devTrip s
  else updTime s (fun t => { t with devLast := s.now, wdo := !t.wdo })
def execDevWdKick (a : Access) (v : Word) (s : State) : Host.Outcome State Fault Refusal := .next (writeDevKick s a v 0xFF)
/-- DEV_WATCHDOG: no kick by MAX_MS. While the boot ROM waits it kicks in time (R406). -/
def execDevWatchdog (s : State) : Host.Outcome State Fault Refusal :=
  .next (if !s.time.devTripped ∧ !romWaits s ∧ s.time.devMax.toNat * 1000000 ≤ devElapsed s then devTrip s else s)

def devWdWord (s : State) : Word := BitVec.ofNat 64 (at' s.time.devMax.toNat 48 + at' s.time.devMin.toNat 32 + b2n s.time.devLock)
/-- A write of TIME_DEV_WD: Mladette pairs only; MIN_MS must lie below MAX_MS; LOCK holds until PORST_N. -/
def writeDevWd (s : State) (a : Access) (v m : Word) : State :=
  let pa := timeBase + 0x90
  if !isMld a then refuse s a 0x070B (timeSrc 0) pa
  else
    let j := judgeReg s a .timeDevWd pa s.time.devLock (devWdWord s) v m
    let bad : Bool := fld j.word 63 48 ≤ fld j.word 47 32
    let s1 := if bad then s else updTime s (fun t => { t with devMax := BitVec.ofNat 16 (fld j.word 63 48), devMin := BitVec.ofNat 16 (fld j.word 47 32) })
    let s2 := if bit j.cmd 0 then updTime s1 (fun t => { t with devLock := true }) else s1
    recordCodes s2 a pa (j.codes ++ (if bad then [0x0003] else []))
def execDevWdLock (a : Access) (v : Word) (s : State) : Host.Outcome State Fault Refusal := .next (writeDevWd s a (v ||| 1) (BitVec.allOnes 64))

/-! ### Registers -/

def timerWord (x : Timer) : Word := BitVec.ofNat 64 (at' x.period.toNat 32 + at' x.missed.toNat 8 + at' (b2n x.periodic) 1 + b2n x.en)
def selJob (s : State) : Nat := fld (look 0 (timeBase + 0x38) s.regs) 13 0
def selTimer (s : State) : Nat := fld (look 0 (timeBase + 0x60) s.regs) 7 0
def selWd (s : State) : Nat := fld (look 0 (timeBase + 0x80) s.regs) 11 0
def jobCode (x : JobState) : Nat := match x with | .unused => 0 | .idle => 1 | .opened => 2 | .suspended => 3
def wdCode (x : WdState) : Nat := match x with | .off => 0 | .first => 1 | .running => 2 | .stopped => 3

/-- A TIME register as read; TIME_WD_KICK reads the elapsed time of the accessing cell's watchdog (R319). -/
def timeRead (s : State) (a : Access) (r : Reg) (n pa : Nat) : Word :=
  match r with
  | .timeStatus => BitVec.ofNat 64 (4 * b2n s.time.holdover + 2 * b2n s.time.refOk + b2n s.time.locked)
  | .timeNow => s.now
  | .timeStep | .timeDevWdKick => 0
  | .timePpsCap => s.time.ppsCap
  | .timeJobInfo =>
    match jobRec s (selJob s) with
    | some r => BitVec.ofNat 64 (at' (ru16 r 4) 48 + at' (ru16 r 2) 32 + at' (ru16 r 6 % 8) 16 + jobCode (getJob s (selJob s)).state)
    | none => BitVec.ofNat 64 (jobCode (getJob s (selJob s)).state)
  | .timeJobDeadline => (getJob s (selJob s)).deadline
  | .timeJobUsed => BitVec.ofNat 64 (usedAt (getJob s (selJob s)) s.now.toNat % 2 ^ 32)
  | .timeJobCount =>
    let x := getJob s (selJob s)
    BitVec.ofNat 64 (at' x.nOverlap.toNat 48 + at' x.nOverrun.toNat 32 + at' x.nMissed.toNat 16 + x.nDone.toNat)
  | .timeTmrActrl => timerWord (getTimer s (selTimer s))
  | .timeTmrAcmp => (getTimer s (selTimer s)).cmp
  | .timeTmrCtrl => timerWord (getTimer s n)
  | .timeTmrCmp => (getTimer s n).cmp
  | .timeWdInfo =>
    let w := getWd s (selWd s)
    BitVec.ofNat 64 (at' (if w.state = .off then 0 else wdUs s (selWd s) % 2 ^ 32) 32 + 4 * b2n w.frozen + wdCode w.state)
  | .timeWdKick =>
    match a.cell with
    | some c => BitVec.ofNat 64 (at' (if (getWd s c.toNat).state = .off then 0 else wdUs s c.toNat % 2 ^ 32) 32)
    | none => 0
  | .timeDevWd => devWdWord s
  | _ => stored s r pa

/-- What a read of a counting register clears. -/
def timeClear (s : State) (r : Reg) (n : Nat) (m : Word) : State :=
  match r with
  | .timeJobCount => updJob s (selJob s) (fun x => { x with
      nOverlap := if m.getLsbD 48 then 0 else x.nOverlap, nOverrun := if m.getLsbD 32 then 0 else x.nOverrun
      nMissed := if m.getLsbD 16 then 0 else x.nMissed, nDone := if m.getLsbD 0 then 0 else x.nDone })
  | .timeTmrActrl => if m.getLsbD 8 then updTimer s (selTimer s) (fun x => { x with missed := 0 }) else s
  | .timeTmrCtrl => if m.getLsbD 8 then updTimer s n (fun x => { x with missed := 0 }) else s
  | _ => s

/-- A write of a TIME register. -/
def timeWrite (s : State) (a : Access) (r : Reg) (n pa : Nat) (v m : Word) : State :=
  match r with
  | .timeCtrl =>
    let s1 := writeCtrl s a r pa v m
    if bit (stored s1 .timeCtrl timeBase) 8 then s1 else updTime s1 (fun t => { t with ppsOut := false })
  | .timeRate => writeRate s a v m
  | .timeStep => writeStep s a v m
  | .timePps | .timeJobSel | .timeTmrSel | .timeWdSel => writePlain s a r pa pa false v m
  | .timePpsCap => updTime s (fun t => { t with ppsCap := t.ppsCap &&& ~~~(v &&& m &&& 0xC000000000000000) })
  | .timeTmrActrl => writeTimerCtrl s (selTimer s) v m
  | .timeTmrAcmp => writeTimerCmp s (selTimer s) v m
  | .timeTmrCtrl => writeTimerCtrl s n v m
  | .timeTmrCmp => writeTimerCmp s n v m
  | .timeDevWd => writeDevWd s a v m
  | .timeDevWdKick => writeDevKick s a v m
  | .timeWdKick => writeWdKick s a v m
  | _ => s

/-- Does an access reach a TIME register (R305)? -/
def timeReach (s : State) (a : Access) (r : Reg) (n : Nat) : Bool :=
  match r with
  | .timeTmrCtrl | .timeTmrCmp => timerReach s a n
  | _ => true

end Sys2Proof.Machine
end

