-- ==== Sys2Proof/Machine/Flt.lean ====
section
/-! DEFINITION. The fault collector: classes and reactions, the fault ring, the block table, safe state and the fault
pins (chapter 15). -/
namespace Sys2Proof.Machine

def fltBase : Nat := 0xF8000040000
def fltSource : BitVec 16 := src 0x63 2 0

/-! ### Records (R333, R334) -/

/-- The bytes of a record up to its CRC, and whole. -/
def recBody (s : State) (r : FaultRec) (lost : Nat) : List Byte :=
  let m := r.msg
  let flags := b2n m.addr.isSome + 2 * (match m.addr with | some (_, va) => b2n va | none => 0) + 4 * b2n (r.escalated || m.escalated) + 8 * b2n r.raised + 16 * b2n m.blocked
  natLe 8 m.time.toNat ++ natLe 4 r.seq.toNat ++ natLe 2 m.source.toNat ++
  natLe 2 (match m.cell with | some c => c.toNat | none => 0x8000) ++ natLe 2 m.code ++ natLe 1 r.cls.toNat ++ natLe 1 flags ++
  natLe 4 lost ++ natLe 8 (match m.addr with | some (a, _) => a.toNat | none => 0) ++ natLe 8 m.syndrome.toNat ++
  (if r.cls = 3 then (s.comp.programme ++ natLe 16 0).take 16 else natLe 16 0) ++
  natLe 4 (match m.init with | some (i, st) => 2 ^ 31 + st.toNat * 1024 + i.toNat | none => 0)
def recBytes (s : State) (r : FaultRec) (lost : Nat) : List Byte := let b := recBody s r lost; b ++ natLe 4 (crc32c b)

def lostOf (s : State) (source : BitVec 16) : Nat := (look (0 : BitVec 32) source.toNat s.flt.lostBy).toNat
/-- A record that is not stored: counted by class and by source, and event 4 raised (R336, R339). -/
def notStored (s : State) (r : FaultRec) : State :=
  let f := s.flt
  let k := r.msg.source.toNat
  let s1 := updFlt s (fun f0 => { f0 with lostBy := put k (satAdd (look (0 : BitVec 32) k f.lostBy) 1) f.lostBy })
  let s2 := match r.cls with
    | 0 => updFlt s1 (fun f => { f with lostC := satAdd f.lostC 1 })
    | 1 => updFlt s1 (fun f => { f with lostO := satAdd f.lostO 1 })
    | 2 => updFlt s1 (fun f => { f with lostK := satAdd f.lostK 1 })
    | _ => updFlt s1 (fun f => { f with lostD := satAdd f.lostD 1 })
  raiseEvent s2 4

/-- A record enters the input queue of 256, or takes the place of the youngest class C or O record (R336). -/
def queueRecord (s : State) (r : FaultRec) : State :=
  if s.flt.queue.length < 256 then updFlt s (fun f => { f with queue := f.queue ++ [r] })
  else if r.cls.toNat ≤ 1 then notStored s r
  else
    let q := s.flt.queue.reverse
    match q.find? (fun x => x.cls.toNat ≤ 1) with
    | some y => notStored (updFlt s (fun f => { f with queue := (q.erase y).reverse ++ [r] })) y
    | none => notStored s r

/-! ### What a fault of each class does (R324, R326, R340, R48) -/

/-- An event held for a target goes on its route; a periodic release held is a message of the monitor and is not an
event. -/
def releaseEvent (s : State) (h : HeldEvent) : State :=
  if 65536 ≤ h.num then s
  else match routeOf s.comp.live h.num with
    | none => { s with comp := { s.comp with dropped := satAdd s.comp.dropped 1 } }
    | some r =>
      if ru8 r 6 = 0 then { s with sched := { s.sched with evTasks := s.sched.evTasks ++ [{ num := h.num, tcb := ru16 r 4, stamp := h.stamp, dest := ru16 r 2, origin := h.origin }] } }
      else if ru8 r 6 = 1 then tellHv s 0x18 h.num (h.num % 16) h.origin
      else if h.num < 128 then s
      else { s with sched := { s.sched with mld := s.sched.mld ++ [{ num := h.num, cell := h.origin }] } }
/-- Quiesced target cells return to ACTIVE unchanged, and the events held for them are delivered (R45, R49). -/
def releaseUnchanged (s : State) : State :=
  let s1 := (s.comp.targets.filter (fun t => t.2 ≠ 2)).foldl (fun s t =>
    if cellState s t.1 = .quiesced then enterActive s t.1 false else s) s
  let s2 := s1.comp.held.foldl releaseEvent s1
  { s2 with comp := { s2.comp with held := [], targets := [] } }

/-- A class D fault ends an operation of the composition engine (R48); where an abort was pending, a mutual-exclusion
element decides whether it was granted first (R31). R48 names the shadow tables alone: that target cells already QUIESCED
return to ACTIVE, with their held events delivered, where QUIESCING or QUIESCED ends so, is the model's (DESIGN CHOICE,
assumption 72). -/
def compClassD (s : State) : State :=
  match s.comp.engine with
  | .empty | .sealed | .committing => s
  | _ =>
    let s1 := match s.comp.engine with
      | .quiescing | .quiesced => releaseUnchanged s
      | _ => s
    let d := drawFree s1
    let won : Bool := s1.comp.op.abortReq && Config.freeBit d.1
    let s2 := if s1.comp.op.abortReq then d.2 else s1
    { s2 with comp := { s2.comp with
        engine := if s2.comp.isSealed then .sealed else .empty
        op := if won then s2.comp.op.aborted else s2.comp.op.finish 4
        cause := if won then s2.comp.cause else 2, shadow := [], shadowProg := [], targets := [], locked := [], stagedSeq := 0 } }

def causeOf (code : Nat) : SafeCause := if code = 0x0C04 then .extSafe else if code = 0x0707 then .devWd else if code = 0x0C05 then .fwSafe else .classD

/-- The reaction to a fault as it enters the collector. -/
def react (s : State) (r : FaultRec) : State :=
  if r.cls = 2 then
    raiseEvent (match r.msg.cell with | some c => faultCell s c.toNat | none => s) 1
  else if r.cls = 3 then
    let s1 := if s.flt.drec.isEmpty then updFlt s (fun f => { f with drec := recBytes s r (lostOf s r.msg.source) }) else s
    raiseEvent (compClassD (enterSafe s1 (causeOf r.msg.code))) 2
  else s

/-- FAULT_RECORD_ARRIVAL: the oldest detected fault enters the collector: it takes its SEQ and its class in force, its
reaction is taken, and its record is queued. -/
def execFaultRecordArrival (s : State) : Host.Outcome State Fault Refusal :=
  .next (match s.flt.raised with
    | [] => s
    | m :: ms =>
      let c := classInForce s m
      let k := m.source.toNat
      let q := look (0 : BitVec 32) k s.flt.seqs
      let r : FaultRec := { msg := m, seq := q, cls := BitVec.ofNat 2 c.1, escalated := c.2.2, raised := c.2.1 }
      let s1 := updFlt s (fun f => { f with raised := ms, seqs := put k (q + 1) f.seqs })
      queueRecord (react s1 r) r)

/-! ### The ring (R336, R337) -/

def ringSize (s : State) : Nat := 2 ^ s.flt.ringLog2.toNat
def ringUsed (s : State) : Nat := (s.flt.head - s.flt.tail).toNat
def reserve (s : State) : Nat := fld (stored s .fltCtrl fltBase) 23 16

/-- The collector's own write stream (DESIGN CHOICE, assumption 68). -/
def ringBlocked (s : State) : Bool := (blockOf s collectorInit 0 none).isSome

/-- FAULT_RECORD_STORE: the oldest queued record is written to the ring, then HEAD advances; or it is not stored. While the
collector's stream is blocked (R330), or its write must wait, the record stays queued; a record whose write fails is not
stored. -/
def execFaultRecordStore (s : State) : Host.Outcome State Fault Refusal :=
  .next (match s.flt.queue with
    | [] => s
    | r :: rs =>
      if !s.flt.ringEn ∨ ringBlocked s then s
      else
        let s1 := updFlt s (fun f => { f with queue := rs })
        let room := ringSize s - ringUsed s
        if room = 0 ∨ (r.cls.toNat ≤ 1 ∧ room ≤ reserve s) then notStored s1 r
        else
          let k := r.msg.source
          let a := s.flt.ringBase.toNat + 64 * (s.flt.head.toNat % ringSize s)
          let x := ioWrite collectorInit 0 none [(a, recBytes s1 r (lostOf s k))] s1
          match x.2 with
          | .wait _ => updFlt x.1 (fun f => { f with queue := s.flt.queue })
          | .failed _ => notStored x.1 r
          | .done =>
            let s3 := updFlt x.1 (fun f => { f with head := f.head + 1, lostBy := drop' k.toNat f.lostBy })
            let s4 := if r.cls.toNat ≤ 1 then raiseEvent s3 0 else s3
            if ringUsed s3 = ringSize s / 2 then raiseEvent s4 3 else s4)

/-- Does the ring lie aligned in scratch (R337)? -/
def ringPlacedOk (s : State) : Bool :=
  let b := s.flt.ringBase.toNat
  let n := 64 * ringSize s
  b % n = 0 && scratchBase ≤ b && b + n ≤ scratchLimit

def fltCtrlWord (s : State) : Word := (stored s .fltCtrl fltBase &&& 0xFF0001) ||| BitVec.ofNat 64 (4 * b2n s.flt.lock + 2 * b2n s.flt.ringEn)

/-- A write of FLT_CTRL: RING_EN and LOCK from Mladette pairs only; RING_EN only over a ring that R337 allows. A write that
carries LOCK or RING_EN as it reads changes neither and records nothing (R484). -/
def writeFltCtrl (s : State) (a : Access) (v m : Word) : State :=
  let wantEn := bit m 1 && bit v 1 != s.flt.ringEn
  let wantLock := bit (v &&& m) 2 && !s.flt.lock
  let s0 := writeCtrl s a .fltCtrl fltBase v (m &&& ~~~6)
  let s1 := if expertOn s fltBase ∧ !expertOn s0 fltBase then updFlt s0 (fun f => { f with raise := [] }) else s0
  if (wantEn ∨ wantLock) ∧ !isMld a then refuse s1 a 0x0C07 fltSource fltBase
  else
    let s2 := if !wantEn then s1
      else if s.flt.lock then refuse s1 a 0x0001 fltSource fltBase
      else if bit v 1 ∧ !ringPlacedOk s then refuse s1 a 0x0C07 fltSource fltBase
      else updFlt s1 (fun f => { f with ringEn := bit v 1 })
    if wantLock then updFlt s2 (fun f => { f with lock := true }) else s2
def execRingEnWrite (a : Access) (v : Word) (s : State) : Host.Outcome State Fault Refusal := .next (writeFltCtrl s a v (BitVec.allOnes 64))

/-- A write of FLT_RING_BASE or FLT_RING_SIZE: refused while the ring is enabled (R337), locked by LOCK. -/
def writeRing (s : State) (a : Access) (r : Reg) (pa : Nat) (v m : Word) : State :=
  if s.flt.ringEn then refuse s a 0x0C07 fltSource pa
  else
    let cur : Word := if r = .fltRingBase then s.flt.ringBase else s.flt.ringLog2.setWidth 64
    let j := judgeReg s a r pa s.flt.lock cur v m
    let s1 := if r = .fltRingBase then updFlt s (fun f => { f with ringBase := j.word }) else updFlt s (fun f => { f with ringLog2 := j.word.setWidth 4 })
    recordCodes s1 a pa j.codes

/-- A write of FLT_RING_TAIL frees records; a value that would make HEAD − TAIL negative or larger than the ring is
refused. -/
def writeTail (s : State) (a : Access) (v m : Word) : State :=
  let t := ((s.flt.tail.setWidth 64 &&& ~~~m) ||| (v &&& m)).setWidth 32
  if fld m 31 0 = 0 then s
  else if ringSize s < (s.flt.head - t).toNat then refuse s a 0x0C07 fltSource (fltBase + 0x28)
  else updFlt s (fun f => { f with tail := t })
def execRingTailWrite (a : Access) (v : Word) (s : State) : Host.Outcome State Fault Refusal := .next (writeTail s a v 0xFFFFFFFF)

/-! ### Blocked ordering streams (R330 to R332) -/

/-- A block entry command (R332): `rel` for RELEASE. -/
def blockCmd (s : State) (a : Access) (rel : Bool) (entry gen : Nat) : State :=
  let b := getBlock s entry
  if !(isMld a || isHyp a) then updFlt s (fun f => { f with blkResult := 2 })
  else if !b.valid ∨ b.gen.toNat ≠ gen then updFlt s (fun f => { f with blkResult := 1 })
  else if b.cmd.isSome then updFlt s (fun f => { f with blkResult := 3 })
  else setBlock (updFlt s (fun f => { f with blkResult := 0 })) entry { b with cmd := some rel }
def writeBlkCmd (s : State) (a : Access) (v m : Word) : State :=
  if fld m 13 12 = 0 then s
  else match fld v 13 12 with
    | 1 => blockCmd s a true (fld v 8 0) (fld v 22 16)
    | 2 => blockCmd s a false (fld v 8 0) (fld v 22 16)
    | _ => refuse s a 0x0003 fltSource (fltBase + 0x60)
def execBlockRelease (a : Access) (v : Word) (s : State) : Host.Outcome State Fault Refusal := .next (blockCmd s a true (fld v 8 0) (fld v 22 16))
def execBlockDiscard (a : Access) (v : Word) (s : State) : Host.Outcome State Fault Refusal := .next (blockCmd s a false (fld v 8 0) (fld v 22 16))

/-- Writes held under an entry: those of a core's store buffer, of inbound PCIe requests, or of received frames. -/
def heldWrites (s : State) (b : BlockEntry) : Nat :=
  if initEp b.init = 0x61 then (s.peri.posted.filter (fun p => p.write && p.txn.isNone && p.tc = b.stream.toNat && some (BitVec.ofNat 12 p.cell) == b.cell)).length
  else if initEp b.init = 0x60 then ((s.net.hdrs.filter (fun h => h.cell == b.cell)).map (fun h => h.lines.length)).foldl (· + ·) 0
  else if b.init = collectorInit then s.flt.queue.length
  else
    let c := if initEp b.init = 0x63 then 128 + initUnit b.init else b.init.toNat
    ((getCore s c).sbuf.filter (fun e => e.cell == b.cell && e.mt == (if b.stream = 2 then 0 else 1) && !e.sent)).length

/-! ### Safe state and pins (R339 to R344) -/

/-- FLT_SAFE_CMD: KEY 0xA5 from a Mladette pair enters safe state and records FW_SAFE; any other write is refused. -/
def writeSafeCmd (s : State) (a : Access) (v m : Word) : State :=
  if fld m 7 0 = 0 then s
  else if isMld a ∧ fld v 7 0 = 0xA5 then enterSafe (fault s 0x0C05 fltSource none) .fwSafe
  else refuse s a 0x0C07 fltSource (fltBase + 0x40)
def execFltSafeCmd (a : Access) (v : Word) (s : State) : Host.Outcome State Fault Refusal := .next (writeSafeCmd s a v 0xFF)

/-- FLT_PIN written: SAFE_RELEASE under the conditions of R344, FW_FAULT by Mladette pairs. -/
def writePin (s : State) (a : Access) (v m : Word) : State :=
  let rel := bit (v &&& m) 0
  let fw := bit m 1 && bit v 1 != s.flt.fwFault
  let okRel := s.comp.isSealed && !s.boot.unverified && !s.flt.safe && isMld a
  let s1 := if rel ∧ okRel then updFlt s (fun f => { f with safeRelease := true }) else s
  let s2 := if fw ∧ isMld a then updFlt s1 (fun f => { f with fwFault := bit v 1 }) else s1
  if (rel && !okRel) || (fw && !isMld a) then refuse s2 a 0x0C07 fltSource (fltBase + 0x38) else s2
def execSafeRelease (a : Access) (_v : Word) (s : State) : Host.Outcome State Fault Refusal := .next (writePin s a 1 1)
def execFwFault (a : Access) (v : Word) (s : State) : Host.Outcome State Fault Refusal := .next (writePin s a v 2)

/-- The levels of the fault pins: are SAFE_N, FAULT_N and CORE_LOCKUP_N held low (R343)? -/
def safePinLow (s : State) : Bool := s.flt.safe || !s.flt.safeRelease
def faultPinLow (s : State) : Bool := s.boot.porst || s.boot.por || s.flt.safe || s.flt.fwFault
def lockupPinLow (s : State) : Bool := s.cores.any (fun k => k.2.mode = .locked)

/-- EXT_SAFE_N goes low and its filter starts (R341). -/
def execExtSafeNFall (s : State) : Host.Outcome State Fault Refusal :=
  .next (if s.flt.extLevel then updFlt s (fun f => { f with extLevel := false, extLow := some s.now }) else s)
/-- When the filter of EXT_SAFE_N ends: after FILTER_US, or 50 ns, of low level; `none` while the level is high, after it
has been raised, or with ENABLE 0 (R341). -/
def extFilterEnd (s : State) : Option Nat :=
  let e := if s.comp.isSealed then extSafe s.comp.live else (true, 0)
  if e.1 then s.flt.extLow.map (fun t => t.toNat + (if e.2 = 0 then 50 else e.2 * 1000)) else none
/-- EXT_SAFE is raised (R341). -/
def raiseExtSafe (s : State) : State :=
  enterSafe (fault (updFlt s (fun f => { f with extLow := none })) 0x0C04 (src 0x63 6 0) none) .extSafe
/-- EXT_SAFE: the level has stayed low until its filter ends (R341). -/
def execExtSafe (s : State) : Host.Outcome State Fault Refusal :=
  .next (if (extFilterEnd s).any (fun t => t ≤ s.now.toNat) then raiseExtSafe s else s)
/-- EXT_SAFE_N rises: where its filter has ended before, EXT_SAFE is raised; else nothing is (R345). At the very instant the
commands' order decides. -/
def execExtSafeNRise (s : State) : Host.Outcome State Fault Refusal :=
  .next (updFlt (if (extFilterEnd s).any (fun t => t < s.now.toNat) then raiseExtSafe s else s) (fun f => { f with extLevel := true, extLow := none }))

/-- LOCKSTEP_MISMATCH: the pair takes no further step (R342). -/
def execLockstepMismatch (pair : Fin 2) (s : State) : Host.Outcome State Fault Refusal :=
  .next (if s.flt.pairStopped.contains pair.val then s
    else
      let s1 := updFlt s (fun f => { f with pairStopped := addSorted pair.val f.pairStopped })
      fault (stopAt s1 (128 + pair.val) .safe) 0x0C01 (coreSrc (128 + pair.val) 0) none)

/-! ### Registers -/

def safeCode (c : SafeCause) : Nat := match c with | .none => 0 | .classD => 1 | .extSafe => 2 | .devWd => 3 | .fwSafe => 4
def selBlock (s : State) : Nat := fld (look 0 (fltBase + 0x48) s.regs) 8 0
def selCode (s : State) : Nat := fld (look 0 (fltBase + 0x68) s.regs) 15 0

/-- An FLT register as read. -/
def fltRead (s : State) (r : Reg) (n pa : Nat) : Word :=
  let f := s.flt
  match r with
  | .fltCtrl => fltCtrlWord s
  | .fltStatus => BitVec.ofNat 64 (at' (f.blocks.filter (fun e => e.2.valid)).length 16 + at' (safeCode f.safeCause) 8 + 8 * b2n (lockupPinLow s) + 4 * b2n (faultPinLow s) + 2 * b2n (safePinLow s) + b2n f.safe)
  | .fltRingBase => f.ringBase
  | .fltRingSize => f.ringLog2.setWidth 64
  | .fltRingHead => f.head.setWidth 64
  | .fltRingTail => f.tail.setWidth 64
  | .fltLost => BitVec.ofNat 64 (at' f.lostD.toNat 48 + at' f.lostK.toNat 32 + at' f.lostO.toNat 16 + f.lostC.toNat)
  | .fltPin => BitVec.ofNat 64 (2 * b2n f.fwFault + b2n f.safeRelease)
  | .fltSafeCmd => 0
  | .fltBlkInfo =>
    let b := getBlock s (selBlock s)
    if b.valid then BitVec.ofNat 64 (at' 1 63 + at' b.gen.toNat 56 + at' (min 65535 (heldWrites s b)) 32 + at' b.status.toNat 28 + at' ((b.cell.map (·.toNat)).getD 0) 16 + at' b.stream.toNat 10 + b.init.toNat)
    else BitVec.ofNat 64 (at' b.gen.toNat 56)
  | .fltBlkAddr => let b := getBlock s (selBlock s); if b.valid then b.pa else 0
  | .fltBlkCmd => BitVec.ofNat 64 (at' f.blkResult.toNat 24)
  | .fltReact => BitVec.ofNat 64 (4 * composedClass s (selCode s) + ((f.raise.find? (fun e => e.1 = selCode s)).map (fun e => e.2.toNat)).getD (composedClass s (selCode s)))
  | .fltDrec => BitVec.ofNat 64 (leNat ((f.drec.drop (8 * n)).take 8))
  | _ => stored s r pa

/-- What a read of FLT_LOST clears. -/
def fltClear (s : State) (r : Reg) (m : Word) : State :=
  match r with
  | .fltLost => updFlt s (fun f => { f with
      lostD := if m.getLsbD 48 then 0 else f.lostD, lostK := if m.getLsbD 32 then 0 else f.lostK
      lostO := if m.getLsbD 16 then 0 else f.lostO, lostC := if m.getLsbD 0 then 0 else f.lostC })
  | _ => s

/-- A write of FLT_REACT: an expert field, never of a code 0x0C00 to 0x0CFF. -/
def writeReact (s : State) (a : Access) (pa : Nat) (v m : Word) : State :=
  let c := selCode s
  let j := judgeReg s a .fltReact pa false (fltRead s .fltReact 0 pa) v m
  if fld m 1 0 = 0 then s
  else if 0x0C00 ≤ c ∧ c ≤ 0x0CFF then refuse s a 0x0C07 fltSource pa
  else if j.codes.isEmpty then (if fld j.word 1 0 = fld (fltRead s .fltReact 0 pa) 1 0 then s else updFlt s (fun f => { f with raise := put c (BitVec.ofNat 2 (fld j.word 1 0)) f.raise }))
  else recordCodes s a pa j.codes

/-- A write of an FLT register. -/
def fltWrite (s : State) (a : Access) (r : Reg) (pa : Nat) (v m : Word) : State :=
  match r with
  | .fltCtrl => writeFltCtrl s a v m
  | .fltRingBase | .fltRingSize => writeRing s a r pa v m
  | .fltRingTail => writeTail s a v m
  | .fltPin => writePin s a v m
  | .fltSafeCmd => writeSafeCmd s a v m
  | .fltBlkSel | .fltReactSel => writePlain s a r pa pa false v m
  | .fltBlkCmd => writeBlkCmd s a v m
  | .fltReact => writeReact s a pa v m
  | _ => s

end Sys2Proof.Machine
end

