-- ==== Sys2Proof/Machine/Xlate.lean ====
section
/-! DEFINITION. Address translation: the walk, the slice guard, the TLBs, and the MPU of an S-core (chapter 10, R410). -/
namespace Sys2Proof.Machine

/-- Kinds of access (R228). -/
inductive AKind where
  | fetch | load | store | rmw
deriving DecidableEq, Repr

/-- Does the access write? -/
def AKind.writes (k : AKind) : Bool := k = .store || k = .rmw

/-- A failed check of R225 to R230: whether it is a permission (PERM, or NX for a fetch), its stage, walk level and
cause, the IPA it reports, and the PA that the slice guard refused. -/
structure XFault where
  perm : Bool := false
  stage : Nat := 1
  level : Nat := 0
  cause : Nat := 1
  ipa : Nat := 0
  guardPa : Option Nat := none
  /-- no fault: a table read has no answer yet, and the walk goes on waiting -/
  wait : Bool := false
  /-- no fault: a wrong-path walk that would have to set a bit is given up (R164) -/
  given : Bool := false
deriving DecidableEq, Repr

/-- The leaf of one stage: output address, size, permissions, memory type, walk level, and the entry whose DIRTY a store
must set first. -/
structure Leaf where
  pa : Nat
  log2 : Nat
  perm : Nat
  mt : Nat
  level : Nat
  dm : Option Nat := none
deriving DecidableEq, Repr

/-- A walk's state: the device, whose tables it marks, and the TLB it uses and fills; the initiator, stream and cell ID its
reads carry, the core it is made for, and whether it is on the wrong path. -/
structure Wk where
  s : State
  tlb : List TlbEntry
  init : InitId
  stream : BitVec 4 := 14
  cell : Option CellId := none
  core : Option Nat := none
  spec : Bool := false

/-- The asid that marks a stage-2 entry. -/
def s2Asid : Nat := 65536

/-! ### The slice guard (R230) -/

/-- The slices of a composition that hold an address: cell and ATTR (a scratch slice grants read and write). -/
def slicesAt (rs : List Rec) (pa : Nat) : List (Nat × Nat) :=
  ((recsOf rs tHBM).filter (fun r => ru64 r 8 ≤ pa && pa < ru64 r 8 + ru64 r 16)).map (fun r => (ru16 r 0, ru16 r 2)) ++
  ((recsOf rs tSCRATCH).filter (fun r =>
    let b := scratchBase + ru8 r 2 * 0x200000 + ru32 r 4
    b ≤ pa && pa < b + ru32 r 8)).map (fun r => (ru16 r 0, 3))

/-- Is a cell's access to an output address refused? -/
def sliceRefuses (s : State) (cell pa : Nat) (k : AKind) : Bool :=
  (k = .fetch && scratchBase ≤ pa && pa < scratchLimit) ||
  (s.comp.isSealed && (slicesAt s.comp.live pa).any (fun e =>
    if e.1 = cell then
      match k with
      | .fetch => !e.2.testBit 2
      | .load => !e.2.testBit 0
      | .store => !e.2.testBit 1
      | .rmw => !(e.2.testBit 0 && e.2.testBit 1)
    else isProtected s.comp.live e.1))

/-! ### Memory types and permissions (R223, R224, R228) -/

/-- Strength of a type, strongest first. -/
def typeRank (t : Nat) : Nat := match t with | 0 => 0 | 1 => 1 | 3 => 2 | _ => 3
def stronger (a b : Nat) : Nat := if typeRank a ≤ typeRank b then a else b
/-- The override by physical address (R224). -/
def finalType (pa t : Nat) : Nat :=
  if 0xF0040000000 ≤ pa then 0
  else if scratchBase ≤ pa ∧ pa < scratchLimit ∧ t ≠ 0 then 1 else t
/-- Entry of an MTT. -/
def mttEntry (mtt : Word) (i : Nat) : Nat := fld mtt (8 * i + 7) (8 * i)

/-- Does stage 1 (or a host regime) grant an access at level `lvl`; does stage 2? -/
def stage1Ok (perm lvl : Nat) (k : AKind) : Bool :=
  let r := perm.testBit (if lvl = 0 then 2 else 0)
  let w := perm.testBit (if lvl = 0 then 3 else 1)
  match k with
  | .fetch => !perm.testBit (if lvl = 0 then 5 else 4)
  | .load => r
  | .store => w
  | .rmw => r && w
def stage2Ok (perm : Nat) (k : AKind) : Bool :=
  match k with
  | .fetch => !perm.testBit 8
  | .load => perm.testBit 6
  | .store => perm.testBit 7
  | .rmw => perm.testBit 6 && perm.testBit 7
/-- Permissions of a stage that is not enabled (R218). -/
def allStage1 : Nat := 15
def allStage2 : Nat := 192

/-! ### The walk (R219 to R227) -/

/-- A request of a walk: an 8-byte access of a table entry. -/
def walkReq (w : Wk) (k : ReqKind) (pa : Nat) (new old : Nat) : Req :=
  { init := w.init, level := 0, cell := w.cell, stream := w.stream, tag := 0, peek := false, kind := k, addr := BitVec.ofNat 44 pa, size := 8, data := natLe 8 new, cmp := BitVec.ofNat 64 old }
/-- One table read (R225): its value, or the cause it ends the walk with; `none` while it has no answer. It is read through
the core's L2, and on a miss at its home slice; on the wrong path without a change of replacement (R162, R164). -/
def tableRead (w : Wk) (pa : Nat) : Wk × Except (Option Nat) Nat :=
  let plain : Bool := match regionOf pa with | .hbm | .scratch _ => true | _ => false
  let value (s : State) : Wk × Except (Option Nat) Nat := ({ w with s := s }, if poisonedAt s pa 8 then .error (some 3) else .ok (rdNat s pa 8))
  if !plain then (w, .error (some 4))
  else if w.core.any (fun c => decide (pa < hbmLimit) && hasL2 w.s (cluOf c) (pa / 64)) then
    value (if w.spec then w.s else l2Touch w.s (w.core.getD 0) (pa / 64) 0 false)
  else
    match carryReadPa w.s w.init w.stream w.cell pa 8 with
    | (s1, none) => ({ w with s := s1 }, .error none)
    | (s1, some st) =>
      if st ≠ stOK then ({ w with s := s1 }, .error (some 4))
      else value (if w.spec then (memAccess s1 (walkReq w .read pa 0 0)).1 else (memPerform s1 (walkReq w .read pa 0 0) 1).1)
/-- A bit of an entry set by compare-and-swap with the value that was read (R226, R227). -/
def entrySwap (w : Wk) (pa new old : Nat) : Wk := { w with s := (memPerform w.s (walkReq w .cas pa new old) 1).1 }

/-- Is an entry invalid at a level of a stage (R221)? -/
def badEntry (stage lv e : Nat) : Bool :=
  let table : Bool := e.testBit 1 && lv < 3
  let out := (e >>> 12) % 2 ^ 32
  let size := if lv = 1 then 18 else if lv = 2 then 9 else 0
  !e.testBit 0 ||
  (if table then (e >>> 2) % 1024 ≠ 0 || (e >>> 44) % 4096 ≠ 0
   else
    (e >>> 44) % 256 ≠ 0 || e.testBit 55 || (stage = 2 && (e.testBit 7 || e.testBit 8 || e.testBit 10)) ||
    lv = 0 || (lv = 3 && !e.testBit 1) || out % 2 ^ size ≠ 0 || (e.testBit 54 && (lv < 3 || out % 16 ≠ 0)))

/-- Permissions and AF of a leaf entry, as `perm` codes them. -/
def leafPerm (stage e : Nat) : Nat :=
  if stage = 2 then ((e >>> 5) % 4) * 64 + (if e.testBit 9 then 256 else 0) else (e >>> 5) % 64

/-- The leaf that a valid leaf entry gives for an input address. -/
def leafOf (stage lv e ea addr : Nat) (mtt : Word) : Leaf :=
  let log2 := if lv = 1 then 30 else if lv = 2 then 21 else if e.testBit 54 then 16 else 12
  let out := ((e >>> 12) % 2 ^ 32) * 4096
  { pa := out / 2 ^ log2 * 2 ^ log2 + addr % 2 ^ log2, log2 := log2, perm := leafPerm stage e,
    mt := mttEntry mtt ((e >>> 2) % 8), level := lv, dm := if e.testBit 52 && !e.testBit 53 then some ea else none }

/-- The walk of one stage over the levels left. `loc` gives the PA of a table entry: the entry's own address, or its
stage-2 translation. -/
def walkLevels (stage : Nat) (ha : Bool) (mtt : Word) (loc : Wk → Nat → Wk × Except XFault Nat) (addr : Nat) :
    List Nat → Nat → Wk → Wk × Except XFault Leaf
  | [], _, w => (w, .error { stage := stage })
  | lv :: rest, table, w =>
    let idx := (addr >>> (39 - 9 * lv)) % (if stage = 2 ∧ lv = 0 then 32 else 512)
    match loc w (table + 8 * idx) with
    | (w1, .error f) => (w1, .error f)
    | (w0, .ok ea) =>
      match tableRead w0 ea with
      | (w1, .error none) => (w1, .error { wait := true })
      | (w1, .error (some c)) => (w1, .error { stage := stage, level := lv, cause := c })
      | (w1, .ok e) =>
        if badEntry stage lv e then (w1, .error { stage := stage, level := lv, cause := 1 })
        else if lv < 3 ∧ e.testBit 1 then walkLevels stage ha mtt loc addr rest (((e >>> 12) % 2 ^ 32) * 4096) w1
        else if e.testBit 11 then (w1, .ok (leafOf stage lv e ea addr mtt))
        else if ha ∧ w1.spec then (w1, .error { given := true })
        else if ha ∧ pageLocked w1.s ea 8 then (w1, .error { stage := stage, level := lv, cause := 4 })
        else if ha then (entrySwap w1 ea (e + 2 ^ 11) e, .ok (leafOf stage lv e ea addr mtt))
        else (w1, .error { stage := stage, level := lv, cause := 2 })

/-- DIRTY set in an entry by compare-and-swap (R227). The walk that read the entry is part of the same step, so it holds the
value read. -/
def setDirtyBit (w : Wk) (ea : Option Nat) : Wk :=
  match ea with
  | some a => let e := rdNat w.s a 8; entrySwap w a (e ||| 2 ^ 53) e
  | none => w

/-- Does a TLB entry cover an address? -/
def covers (base log2 a : Nat) : Bool := base / 2 ^ log2 = a / 2 ^ log2

/-- The set of the L2 TLB that an entry goes to: 256 sets of 8 ways, indexed by the number of its page (the index is the
model's, DESIGN CHOICE, assumption 67). -/
def tlbSet (t : TlbEntry) : Nat := ((if t.asid = s2Asid then t.ipa else t.va) / 2 ^ t.log2) % 256
/-- What the TLBs of a core keep of a list, youngest first (R231): L1 the 64 youngest entries that are no stage-2 entries,
L2 the 8 youngest of each set. The order of replacement is the model's (DESIGN CHOICE, assumption 67). -/
def capTlb (l : List TlbEntry) : List TlbEntry :=
  ((List.range l.length).zip l).filterMap (fun e =>
    let before := l.take e.1
    if (e.2.asid ≠ s2Asid ∧ (before.filter (fun t => t.asid ≠ s2Asid)).length < 64) ∨ (before.filter (fun t => tlbSet t = tlbSet e.2)).length < 8
    then some e.2 else none)
/-- Does a new entry take the place of an old one: the same span of the same space, or another entry's view of the same
64 KiB page (R222)? -/
def replaces (t x : TlbEntry) : Bool :=
  t.host = x.host && t.cell == x.cell && t.asid = x.asid &&
  (if t.asid = s2Asid then covers t.ipa t.log2 x.ipa && t.log2 = x.log2
   else (covers t.va t.log2 x.va && t.log2 = x.log2) || (t.big.isSome && x.big.isSome && t.va / 65536 = x.va / 65536 && t.big != x.big))
/-- An entry installed. -/
def installTlb (t : TlbEntry) (l : List TlbEntry) : List TlbEntry := capTlb (t :: l.filter (fun x => !replaces t x))

/-- Stage 2 of a cell for an IPA (R217, R218): by a stage-2 entry of the TLB, or by a walk, which installs one; where a store
has DIRTY to set, by a walk. -/
def stage2 (w : Wk) (cell ipa : Nat) (dirty : Bool) : Wk × Except XFault Leaf :=
  let c := getCell w.s cell
  if !bit c.s2 0 then
    if 2 ^ 44 ≤ ipa then (w, .error { stage := 2, cause := 5, ipa := ipa })
    else (w, .ok { pa := ipa, log2 := 44, perm := allStage2, mt := 2, level := 0 })
  else
    match w.tlb.find? (fun t => t.asid = s2Asid && t.cell == some cell && covers t.ipa t.log2 ipa && (t.dirty || !dirty)) with
    | some t => (w, .ok { pa := t.pa + ipa % 2 ^ t.log2, log2 := t.log2, perm := t.perm, mt := t.mt, level := t.lv2, dm := if t.dirty then none else some t.va })
    | none =>
      match walkLevels 2 (bit c.s2 1) c.mttS2 (fun w a => (w, .ok a)) ipa [0, 1, 2, 3] (fld c.s2 43 12 * 4096) w with
      | (w1, .error f) => (w1, .error { f with ipa := ipa })
      | (w1, .ok l) =>
        -- the entry's own address stands in `va` while a store must still set its DIRTY
        let t : TlbEntry := { cell := some cell, asid := s2Asid, va := l.dm.getD 0, ipa := ipa / 2 ^ l.log2 * 2 ^ l.log2, pa := l.pa / 2 ^ l.log2 * 2 ^ l.log2, log2 := l.log2, mt := l.mt, perm := l.perm, lv2 := l.level, dirty := l.dm.isNone }
        ({ w1 with tlb := installTlb t w1.tlb }, .ok l)

/-- The output of stage 2 for a cell's access, with its permission and the slice guard. -/
def stage2Checked (w : Wk) (cell ipa : Nat) (k : AKind) (dirty : Bool) : Wk × Except XFault Leaf :=
  match stage2 w cell ipa dirty with
  | (w1, .error f) => (w1, .error f)
  | (w1, .ok l) =>
    if !stage2Ok l.perm k then (w1, .error { perm := true, stage := 2, level := l.level, ipa := ipa })
    else if sliceRefuses w1.s cell l.pa k then
      ({ w1 with tlb := w.tlb }, .error { perm := true, stage := 2, level := l.level, ipa := ipa, guardPa := some l.pa })
    else (w1, .ok l)

/-- The address of a stage-1 table entry in the cell regime. -/
def tableLoc (cell : Nat) (w : Wk) (a : Nat) : Wk × Except XFault Nat :=
  match stage2Checked w cell a .load false with
  | (w1, .error f) => (w1, .error f)
  | (w1, .ok l) => (w1, .ok l.pa)

/-- A whole walk of the cell regime for an access at level `lvl`; `dirty` where the access must set DIRTY. -/
def walkCell (w : Wk) (cell : Nat) (root mtt1 : Word) (lvl va : Nat) (k : AKind) (dirty : Bool) : Wk × Except XFault TlbEntry :=
  let asid := fld root 63 48
  let page : Option BigPage := (w.tlb.find? (fun t => t.asid = asid && t.host = 0 && t.cell == some cell && t.big.isSome && t.va / 65536 = va / 65536)).bind (·.big)
  let r1 : Wk × Except XFault Leaf :=
    if 2 ^ 48 ≤ va then (w, .error { cause := 5 })
    else if bit root 0 then
      match (if dirty ∧ page.any (fun b => b.dm.isSome) then none else page) with
      | some b => (w, .ok { pa := b.ipa + va % 65536, log2 := 16, perm := b.perm, mt := b.mt, level := 3, dm := b.dm })
      | none => walkLevels 1 (bit root 1) mtt1 (tableLoc cell) va [0, 1, 2, 3] (fld root 43 12 * 4096) w
    else if 2 ^ 44 ≤ va then (w, .error { cause := 5 })
    else (w, .ok { pa := va, log2 := 44, perm := allStage1, mt := 2, level := 0 })
  match r1 with
  | (w1, .error f) => (w1, .error f)
  | (w1, .ok l1) =>
    if !stage1Ok l1.perm lvl k then (w1, .error { perm := true, stage := 1, level := l1.level })
    else
      match stage2Checked w1 cell l1.pa k dirty with
      | (w2, .error f) => (w2, .error f)
      | (w2, .ok l2) =>
        let n := min l1.log2 l2.log2
        let w3 : Wk := if dirty then { setDirtyBit (setDirtyBit w2 l1.dm) l2.dm with tlb := w2.tlb.map (fun t => if t.asid = s2Asid ∧ some t.va = l2.dm then { t with dirty := true, va := 0 } else t) } else w2
        let big : Option BigPage := if bit root 0 && l1.log2 == 16 then some { ipa := l1.pa / 65536 * 65536, perm := l1.perm, mt := l1.mt, dm := if dirty then none else l1.dm } else none
        (w3, .ok { cell := some cell, big := big, asid := asid, va := va / 2 ^ n * 2 ^ n, ipa := l1.pa / 2 ^ n * 2 ^ n, pa := l2.pa / 2 ^ n * 2 ^ n, log2 := n, mt := finalType l2.pa (stronger l1.mt l2.mt), perm := (l1.perm % 64) + (l2.perm / 64) * 64, lv1 := l1.level, lv2 := l2.level, dirty := dirty || (l1.dm.isNone && l2.dm.isNone) })

/-- A whole walk of host regime `h`. -/
def walkHost (w : Wk) (h : Nat) (root mtt : Word) (va : Nat) (k : AKind) (dirty : Bool) : Wk × Except XFault TlbEntry :=
  if 2 ^ 48 ≤ va then (w, .error { cause := 5 })
  else
    match walkLevels 1 (bit root 1) mtt (fun w a => (w, .ok a)) va [0, 1, 2, 3] (fld root 43 12 * 4096) w with
    | (w1, .error f) => (w1, .error f)
    | (w1, .ok l) =>
      if !stage1Ok l.perm h k then (w1, .error { perm := true, stage := 1, level := l.level })
      else
        let w2 : Wk := if dirty then setDirtyBit w1 l.dm else w1
        (w2, .ok { cell := none, host := h, va := va / 2 ^ l.log2 * 2 ^ l.log2, ipa := 0, pa := l.pa / 2 ^ l.log2 * 2 ^ l.log2, log2 := l.log2, mt := finalType l.pa l.mt, perm := l.perm + allStage2, lv1 := l.level, dirty := dirty || l.dm.isNone })

/-! ### The MPU of an S-core (R410) -/

/-- Access rights (bit 0 read, 1 write, 2 execute) and type of an address, or none: the lowest-numbered enabled region
that holds it decides. -/
def mpuMap (k : Core) (pair : Nat) (lvl pa : Nat) : Option (Nat × Nat) :=
  if k.mpuEn then
    ((List.range 16).find? (fun i =>
      let b := look 0 i k.mpuBase
      bit b 0 && decide (fld b 43 12 ≤ pa / 4096) && decide (pa / 4096 ≤ fld (look 0 i k.mpuAttr) 43 12))).map (fun i =>
        let a := look 0 i k.mpuAttr
        (if lvl = 0 then fld a 5 3 else fld a 2 0, fld a 11 10))
  else if lvl = 0 then none
  else match regionOf pa with
    | .rom => some (5, 2)
    | .sram p => if p = pair then some (7, 2) else none
    | .scratch _ => some (3, 1)
    | .hbm => some (3, 2)
    | _ => if 0xF8000000000 ≤ pa ∧ pa < 2 ^ 44 then some (3, 0) else none

/-! ### Looking an access up (R231) -/

/-- What a lookup answers: a fault, a walk to be made, or the physical address and the memory type. -/
inductive XRes where
  | fault (f : XFault)
  | miss
  | ok (pa mt : Nat)
deriving DecidableEq, Repr

/-- The regime of a core at a level needs no table (R218). -/
def bareRegime (s : State) (k : Core) (lvl : Nat) : Bool :=
  match lvl with
  | 2 => !bit k.htRoot2 0
  | 3 => !bit k.htRoot3 0
  | _ => !bit k.s1Root 0 && !bit (getCell s (k.cell.getD 0)).s2 0

/-- Translation of an access of core `c` at level `lvl`; `dirty` where it must set DIRTY. -/
def lookup (s : State) (c : Nat) (lvl : Nat) (va : Nat) (kd : AKind) (dirty : Bool) : XRes :=
  let k := getCore s c
  if isS c then
    match mpuMap k (c - 128) lvl va with
    | none => .fault { perm := true }
    | some (r, t) =>
      let ok : Bool := match kd with | .fetch => r.testBit 2 | .load => r.testBit 0 | .store => r.testBit 1 | .rmw => r.testBit 0 && r.testBit 1
      if ok then .ok va t else .fault { perm := true }
  else if 2 ^ 48 ≤ va then .fault { cause := 5 }
  else
    let cell := k.cell.getD 0
    let guard (pa lv : Nat) (r : XRes) : XRes :=
      if lvl ≤ 1 ∧ sliceRefuses s cell pa kd then .fault { perm := true, stage := 2, level := lv, ipa := pa, guardPa := some pa } else r
    if bareRegime s k lvl then
      if 2 ^ 44 ≤ va then .fault { cause := 5 } else guard va 0 (.ok va (finalType va 2))
    else
      match k.tlb.find? (fun t => t.asid ≠ s2Asid && covers t.va t.log2 va &&
          (if lvl ≤ 1 then t.host = 0 && t.cell == some cell && t.asid = fld k.s1Root 63 48 else t.host = lvl)) with
      | none => .miss
      | some t =>
        let off := va % 2 ^ t.log2
        if !stage1Ok t.perm lvl kd then .fault { perm := true, stage := 1, level := t.lv1 }
        else if !stage2Ok t.perm kd then .fault { perm := true, stage := 2, level := t.lv2, ipa := t.ipa + off }
        else
          let r : XRes := if dirty && !t.dirty then .miss else .ok (t.pa + off) t.mt
          match guard (t.pa + off) t.lv2 r with
          | .fault f => .fault { f with ipa := t.ipa + off }
          | r => r

/-- A walk of a core for an address at a level: the entry it would install, in the regime of that level; `spec` on the
wrong path. -/
def walkFor (s : State) (c lvl va : Nat) (kd : AKind) (dirty spec : Bool) : Wk × Except XFault TlbEntry :=
  let k := getCore s c
  let w : Wk := { s := s, tlb := k.tlb, init := coreInit c, cell := coreCell k, core := some c, spec := spec }
  match lvl with
  | 2 => walkHost w 2 k.htRoot2 k.mttH2 va kd dirty
  | 3 => walkHost w 3 k.htRoot3 k.mttH3 va kd dirty
  | _ => walkCell w (k.cell.getD 0) k.s1Root (getCell s (k.cell.getD 0)).mttS1 lvl va kd dirty

/-- A probe (R488): the translation without installing anything, as a TLB hit or a walk gives it. -/
def probe (s : State) (c lvl va : Nat) (kd : AKind) : Except XFault (Nat × Nat) :=
  match lookup s c lvl va kd false with
  | .fault f => .error f
  | .ok pa mt => .ok (pa, mt)
  | .miss =>
    match (walkFor s c lvl va kd false false).2 with
    | .error f => .error f
    | .ok t => .ok (t.pa + va % 2 ^ t.log2, t.mt)


/-! ### The exceptions of a failed access (R183, R184, R229) -/

/-- The exception of a failed translation or permission for an access of a word. -/
def xExc (f : XFault) (kd : AKind) (high : Bool) (slotB long : Bool) (pc addr : Word) : Exc :=
  let wr := b2n kd.writes
  { cls := if f.perm then (if kd = .fetch then 0x05 else 0x09) else (if kd = .fetch then 0x06 else 0x07)
    base := if f.stage = 2 then 2 else 1
    fields := BitVec.ofNat 24 (if f.perm ∧ kd = .fetch then f.stage else f.stage + 4 * f.level + 16 * f.cause + 256 * wr + 512 * b2n high)
    detail := if f.stage = 2 then BitVec.ofNat 32 (f.ipa >>> 12) else 0
    addr := addr, slotB := slotB, long := long, pc := pc }

/-- XLATE_GUARD recorded with the PA that the slice guard refused (R230). -/
def recordGuard (s : State) (c : Nat) (pa : Option Nat) : State :=
  match pa with
  | some a => raise s { code := 0x0401, cls := 0, source := coreSrc c 0, cell := coreCell (getCore s c), addr := some (BitVec.ofNat 64 a, false) }
  | none => s

end Sys2Proof.Machine
end

