-- ==== Sys2Proof/Machine/Slc.lean ====
section
/-! DEFINITION. The commands of the home slices, maintenance and the tokens of the SLC sites, and the SLC registers
(R261 to R279). -/
namespace Sys2Proof.Machine

/-! ### Maintenance (R274 to R279) -/

/-- Ways that a class leaves under a new mask. -/
def leaving (s : State) (k : Nat) (new : BitVec 16) : BitVec 16 := wayMask s k &&& ~~~new

/-- Does an operation match a line of a slice? -/
def mntMatches (s : State) (m : Mnt) (l : SlcLine) : Bool :=
  match m.op with
  | 1 | 2 => fld m.arg 43 6 ≤ l.line && l.line < fld m.arg 43 6 + fld m.len 43 6
  | 3 | 4 => l.owner == some (fld m.arg 11 0)
  | 5 | 6 => l.cls == fld m.arg 4 0
  | _ => l.cls == fld m.arg 4 0 && (leaving s (fld m.arg 4 0) (BitVec.ofNat 16 (fld m.arg 31 16))).getLsbD l.way
/-- Does it remove the lines it cleans? -/
def mntInval (op : Nat) : Bool := op == 2 || op == 4 || op == 6 || op == 7

/-- One matched line cleaned, or cleaned and removed; `false` where its write-back was answered other than OK. -/
def mntLine (s : State) (site : Nat) (inval fails : Bool) (line : Nat) : State × Bool :=
  let r := writeBack (if inval then dropOthers s none line else cleanCopies s line) site line fails
  if inval && r.2 then (removeSlc r.1 site line, true) else r
/-- Lines cleaned in turn: how many were, and whether all were. -/
def mntFold (site : Nat) (inval : Bool) (fails : Option Nat) : List Nat → State → State × Nat
  | [], s => (s, 0)
  | l :: ls, s =>
    let r := mntLine s site inval (fails == some l) l
    let q := mntFold site inval fails ls r.1
    (q.1, q.2 + b2n r.2)

/-- The hypervisor's operation at a slice does its next `n` matched lines, of which the write-back of one may fail; answers
whether all were cleaned. -/
def mntLines (s : State) (site n : Nat) (fails : Option Nat) : State × Bool :=
  match (getSite s site).mnt with
  | none => (s, true)
  | some m =>
    let ls := (((getSite s site).lines.filter (mntMatches s m)).map (·.line)).take n
    let r := mntFold site (mntInval m.op) fails ls s
    (updSite r.1 site (fun x => { x with op := { x.op with progress := satAdd x.op.progress r.2 } }), r.2 == ls.length)

/-- A slice of a REMASK has ended; after the last one of its operation the new mask takes effect, unless a slice failed
(R274). Operations on disjoint slices run side by side. -/
def remaskSlice (s : State) (site : Nat) (ok : Bool) : State :=
  match s.cache.remask.find? (fun r => r.slices.contains site) with
  | none => s
  | some r =>
    let r1 : Remask := { r with slices := r.slices.filter (fun x => x ≠ site), failed := r.failed || !ok }
    if r1.slices.isEmpty then
      { s with cache := { s.cache with remask := s.cache.remask.erase r, masks := if r1.failed then s.cache.masks else put r.cls r.mask s.cache.masks } }
    else { s with cache := { s.cache with remask := s.cache.remask.map (fun x => if x = r then r1 else x) } }

/-- A hypervisor operation ends at a slice: it gives the token back and reports its end. -/
def mntEnd (s : State) (site : Nat) (op : OpStatus → OpStatus) (cause : BitVec 4) (ok : Bool) : State :=
  remaskSlice (updSite s site (fun x => { x with op := op x.op, mnt := none, holder := .none, cause := cause })) site ok

/-- An abort granted at a slice after a number of its matched lines that no rule fixes (R278). -/
def mntAbort (s : State) (site : Nat) (cause : BitVec 4) : State :=
  let n := match (getSite s site).mnt with | some m => ((getSite s site).lines.filter (mntMatches s m)).length | none => 0
  let d := drawFree s
  mntEnd (mntLines d.2 site ((Config.freeWord d.1).toNat % (n + 1)) none).1 site OpStatus.aborted cause false
/-- The engine of a slice finishes: ERROR where a write-back was answered other than OK, else DONE (R278). -/
def mntFinish (s : State) (site : Nat) (fails : Option Nat) (cause : BitVec 4) : State :=
  let r := mntLines s site (getSite s site).lines.length fails
  if r.2 then mntEnd r.1 site (fun o => o.finish 2) cause true else mntEnd r.1 site (fun o => o.finish 4) 1 false
/-- A pending abort of a slice's operation is decided against its completion (R31): the abort wins at some line, or the
engine has finished. -/
def mntDecide (s : State) (site : Nat) (cause : BitVec 4) (fails : Option Nat) : State :=
  let d := drawFree s
  let any : Bool := match (getSite s site).mnt with | some m => (getSite s site).lines.any (mntMatches s m) | none => false
  if any && Config.freeBit d.1 then mntAbort d.2 site cause else mntFinish d.2 site fails 0

/-- Are the tokens of every slice of a mask free? -/
def tokensFree (s : State) (mask : Nat) : Bool := (List.range 16).all (fun n => !(mask.testBit n) || tokenFree (getSite s n))

/-- The range of an address operation. -/
def mntRange (arg len : Word) : Nat × Nat := (fld arg 43 6 * 64, fld len 43 6 * 64)
/-- Refused for its arguments? -/
def mntBad (s : State) (op mask : Nat) (arg len : Word) : Bool :=
  let r := mntRange arg len
  let k := fld arg 4 0
  mask = 0 || op = 0 || 7 < op ||
  (match op with
   | 1 | 2 => fld arg 5 0 ≠ 0 || fld arg 63 44 ≠ 0 || r.2 = 0 || hbmLimit < r.1 + r.2
   | 3 | 4 => fld arg 63 12 ≠ 0 || cellState s (fld arg 11 0) = .absent
   | 5 | 6 => fld arg 63 5 ≠ 0 || (classRec s k).isNone
   | _ => fld arg 63 32 ≠ 0 || fld arg 15 5 ≠ 0 || (classRec s k).isNone || fld arg 31 16 = 0 || (sliceMask s k).toNat ≠ mask ||
      -- rule 0x23: the ways of a safety or real-time class stay apart in shared slices
      (recsOf s.comp.live tCLASS).any (fun q =>
        let j := ru8 q 0
        j ≠ k && ((classUsers s.comp.live k).any (isProtected s.comp.live) || (classUsers s.comp.live j).any (isProtected s.comp.live)) &&
        (sliceMask s j &&& sliceMask s k) ≠ 0 && (wayMask s j &&& BitVec.ofNat 16 (fld arg 31 16)) ≠ 0))
/-- Refused because it names safety (R276)? -/
def mntSafety (s : State) (op : Nat) (arg len : Word) : Bool :=
  let r := mntRange arg len
  match op with
  | 1 | 2 => (recsOf s.comp.live tHBM).any (fun q => s.comp.isSealed && isSafety s.comp.live (ru16 q 0) && ru64 q 8 < r.1 + r.2 && r.1 < ru64 q 8 + ru64 q 16)
  | 3 | 4 => s.comp.isSealed && isSafety s.comp.live (fld arg 11 0)
  | _ => s.comp.isSealed && (classUsers s.comp.live (fld arg 4 0)).any (isSafety s.comp.live)

/-- A start of a maintenance operation (R275, R276). -/
def mntStart (s : State) (a : Access) (op mask : Nat) : State :=
  let arg := look 0 (slcBase + 0x10) s.regs
  let len := look 0 (slcBase + 0x18) s.regs
  let res (s : State) (r : BitVec 2) : State := { s with cache := { s.cache with mntResult := r } }
  if mntBad s op mask arg len then refuse (res s 2) a 0x0508 slcSource (slcBase + 8)
  else if mntSafety s op arg len then refuse (res s 3) a 0x0508 slcSource (slcBase + 8)
  else if !tokensFree s mask then res s 1
  else
    let sites := (List.range 16).filter (fun n => mask.testBit n)
    let k := fld arg 4 0
    let new := BitVec.ofNat 16 (fld arg 31 16)
    -- the L2 phase of a REMASK
    let s0 := if op = 7 then
        (List.range 16).foldl (fun s n => ((getL2 s n).filter (fun l => l.cls = k && (leaving s k new).getLsbD l.way)).foldl (fun s l => dropL2 s n l.line) s) s
      else s
    let s1 := sites.foldl (fun s n => updSite s n (fun x => { x with holder := .hyp, op := OpStatus.start, mnt := some { op := op, arg := arg, len := len }, cause := 0 })) s0
    res (if op = 7 then { s1 with cache := { s1.cache with remask := s1.cache.remask ++ [{ cls := k, mask := new, slices := sites }] } } else s1) 0

/-- A write of SLC_MNT_CMD: SLICE_MASK, and OP where it is not 0. -/
def writeMntCmd (s : State) (a : Access) (pa : Nat) (v m : Word) : State :=
  let j := judgeReg s a .slcMntCmd pa false (stored s .slcMntCmd pa) v m
  let s1 := recordCodes (store s pa j.word) a pa j.codes
  if fld j.cmd 3 0 = 0 then s1 else mntStart s1 a (fld j.cmd 3 0) (fld j.word 63 48)
/-- The rows of R274: a write of SLC_MNT_CMD with that OP. -/
def mntCmd (op : Nat) (a : Access) (v : Word) (s : State) : State := writeMntCmd s a (slcBase + 8) (putFld v 3 0 op) (BitVec.allOnes 64)
def execCleanAddr (a : Access) (v : Word) (s : State) : Host.Outcome State Fault Refusal := .next (mntCmd 1 a v s)
def execCleanInvAddr (a : Access) (v : Word) (s : State) : Host.Outcome State Fault Refusal := .next (mntCmd 2 a v s)
def execCleanCell (a : Access) (v : Word) (s : State) : Host.Outcome State Fault Refusal := .next (mntCmd 3 a v s)
def execCleanInvCell (a : Access) (v : Word) (s : State) : Host.Outcome State Fault Refusal := .next (mntCmd 4 a v s)
def execCleanClass (a : Access) (v : Word) (s : State) : Host.Outcome State Fault Refusal := .next (mntCmd 5 a v s)
def execCleanInvClass (a : Access) (v : Word) (s : State) : Host.Outcome State Fault Refusal := .next (mntCmd 6 a v s)
def execRemask (a : Access) (v : Word) (s : State) : Host.Outcome State Fault Refusal := .next (mntCmd 7 a v s)

/-- MNT_SLICE_DONE: the engine of a slice has finished its matched lines; `wbOk` is false where a write-back was answered
other than OK (R278). The holder decides whose operation it was. A site whose domain takes no steps finishes nothing
(R17). -/
def execMntSliceDone (site : Fin 16) (wbOk : Bool) (s : State) : Host.Outcome State Fault Refusal :=
  let n := site.val
  let x := getSite s n
  .next (
    if !domainSteps s (16 + n) then s
    else match x.holder with
    | .hyp =>
      match x.mnt with
      | none => s
      | some m =>
        let fails := if wbOk then none else (x.lines.find? (fun l => mntMatches s m l && dirtyLine s l.line)).map (·.line)
        if x.op.abortReq then mntDecide s n 2 fails else mntFinish s n fails 0
    | .commit =>
      let ls := (x.lines.filter (fun l => s.comp.cleanCls.contains l.cls)).map (·.line)
      let fails := if wbOk then none else ls.find? (fun l => dirtyLine s l)
      let s1 := (mntFold n true fails ls s).1
      updSite { s1 with comp := { s1.comp with cleaning := s1.comp.cleaning.filter (fun y => y ≠ n) } } n (fun y => { y with holder := .none })
    | _ => s)

/-- TOKEN_GRANT: a freed token goes to what queues for it, in the order commit, power, training (R279). -/
def execTokenGrant (site : Fin 16) (s : State) : Host.Outcome State Fault Refusal :=
  let n := site.val
  let x := getSite s n
  .next (
    if x.holder ≠ .none then s
    else if x.qCommit then updSite s n (fun x => { x with holder := .commit, qCommit := false })
    else if x.qPower then updSite s n (fun x => { x with holder := .power, qPower := false })
    else match x.trainQueue with
      | h :: t =>
        schedTrain (updSite s n (fun x => { x with trainQueue := t, qTrain := !t.isEmpty })) (4 * n + h)
      | [] => updSite s n (fun x => { x with qTrain := false }))

/-! ### Registers -/

def selSlice (s : State) : Nat := fld (look 0 (slcBase + 0x20) s.regs) 3 0
def selClass (s : State) : Nat := fld (look 0 (slcBase + 0x38) s.regs) 4 0
def holderCode (h : Holder) : Nat := match h with | .none => 0 | .hyp => 1 | .commit => 2 | .power => 3 | .training => 4

/-- A register of SLC as read. -/
def slcRead (s : State) (r : Reg) (pa : Nat) : Word :=
  let x := getSite s (selSlice s)
  let k := selClass s
  match r with
  | .slcMntCmd => (stored s .slcMntCmd pa &&& 0xFFFF000000000000) ||| BitVec.ofNat 64 (at' s.cache.mntResult.toNat 8)
  | .slcOpStatus => x.op.word
  | .slcToken => BitVec.ofNat 64 (at' x.trainHmc.toNat 12 + at' x.cause.toNat 8 + at' (b2n x.qTrain) 6 + at' (b2n x.qPower) 5 + at' (b2n x.qCommit) 4 + holderCode x.holder)
  | .slcClassInfo =>
    if (classRec s k).isSome then
      BitVec.ofNat 64 (at' (sliceMask s k).toNat 48 + at' (wayMask s k).toNat 32 + at' (b2n ((classUsers s.comp.live k).any (isSafety s.comp.live))) 17 +
        at' (b2n ((classUsers s.comp.live k).any (fun c => kindIn s.comp.live c == 1))) 16 + 1)
    else 0
  | .slcErr => BitVec.ofNat 64 (at' x.ue.toNat 32 + x.ce.toNat)
  | _ => stored s r pa
/-- What a read of SLC_ERR clears. -/
def slcClear (s : State) (r : Reg) (m : Word) : State :=
  match r with
  | .slcErr => updSite s (selSlice s) (fun x => { x with ue := if m.getLsbD 63 then 0 else x.ue, ce := if m.getLsbD 0 then 0 else x.ce })
  | _ => s
/-- A write of an SLC register. -/
def slcWrite (s : State) (a : Access) (r : Reg) (pa : Nat) (v m : Word) : State :=
  match r with
  | .slcCtrl => writeCtrl s a r pa v m
  | .slcMntCmd => writeMntCmd s a pa v m
  | .slcMntArg | .slcMntLen | .slcSliceSel | .slcClassSel => writePlain s a r pa pa false v m
  | .slcOpStatus =>
    updSite s (selSlice s) (fun x =>
      let o := if bit (v &&& m) 3 then { x.op with abortLate := false } else x.op
      { x with op := if bit (v &&& m) 8 then o.request else o })
  | .slcErrInject =>
    let j := judgeReg s a r pa false (stored s r pa) v m
    recordCodes (store s pa (if bit j.cmd 9 then putFld j.word 9 9 1 else j.word)) a pa j.codes
  | _ => s
/-- SLC_ERR_INJECT: the register written with ARM set. -/
def execSlcErrInject (a : Access) (v : Word) (s : State) : Host.Outcome State Fault Refusal :=
  .next (slcWrite s a .slcErrInject (slcBase + 0x50) (v ||| 0x200) (BitVec.allOnes 64))

end Sys2Proof.Machine
end

