-- ==== Sys2Proof/Machine/Ctxt.lean ====
section
/-! DEFINITION. Register contexts: save nodes, saving and restoring by the scheduler, and the pools of nodes
(chapter 09, R187 to R202). -/
namespace Sys2Proof.Machine

/-! ### Pools (R192, R193) -/

def getPool (s : State) (cell : Nat) (hi : Bool) : Pool := look {} cell (if hi then s.sched.poolHi else s.sched.poolLo)
def setPool (s : State) (cell : Nat) (hi : Bool) (p : Pool) : State :=
  if hi then { s with sched := { s.sched with poolHi := put cell p s.sched.poolHi } } else { s with sched := { s.sched with poolLo := put cell p s.sched.poolLo } }
/-- Nodes of a pool that are free. -/
def poolFree (s : State) (cell : Nat) (hi : Bool) : Nat := (getPool s cell hi).returned.length + (poolCount s.comp.live cell hi - (getPool s cell hi).next)
/-- The node a pool would hand out next: the last returned, or the lowest never taken. -/
def poolHead (s : State) (cell : Nat) (hi : Bool) : Option Nat :=
  let p := getPool s cell hi
  match p.returned with
  | n :: _ => some n
  | [] => if p.next < poolCount s.comp.live cell hi then some p.next else none
def poolTake (s : State) (cell : Nat) (hi : Bool) : State :=
  let p := getPool s cell hi
  match p.returned with
  | _ :: t => setPool s cell hi { p with returned := t }
  | [] => setPool s cell hi { p with next := p.next + 1 }
/-- Address of the node that a pool would hand out next, 0 for none. -/
def poolHeadAddr (s : State) (cell : Nat) (hi : Bool) : Nat := ((poolHead s cell hi).map (nodeAddr s.comp.live cell hi)).getD 0
/-- A node returned: it is the next one taken, and its NEXT is the next free node (R189, R190, R192). -/
def poolReturn (s : State) (cell : Nat) (hi : Bool) (n : Nat) : State :=
  let p := getPool s cell hi
  setPool (performWrite s (nodeAddr s.comp.live cell hi n) (natLe 8 (poolHeadAddr s cell hi))) cell hi { p with returned := n :: p.returned }
/-- The pools of a cell, every node free: its NEXT is the next free node, and the last one's is 0 (R189, R190, R192). -/
def freshPools (s : State) (c : Nat) : State :=
  let link (hi : Bool) (s : State) : State :=
    let n := poolCount s.comp.live c hi
    (List.range n).foldl (fun s i => performWrite s (nodeAddr s.comp.live c hi i) (natLe 8 (if i + 1 < n then nodeAddr s.comp.live c hi (i + 1) else 0))) s
  link true (link false { s with sched := { s.sched with poolLo := drop' c s.sched.poolLo, poolHi := drop' c s.sched.poolHi } })
/-- Number of the node at an address of a cell's pool, if it is one. -/
def nodeNum (s : State) (cell : Nat) (hi : Bool) (a : Nat) : Option Nat :=
  (List.range (poolCount s.comp.live cell hi)).find? (fun n => nodeAddr s.comp.live cell hi n = a)
/-- A bound node returned to its free list. -/
def giveBack (s : State) (cell : Nat) (hi : Bool) (a : Nat) : State :=
  if a = 0 then s else match nodeNum s cell hi a with | some n => poolReturn s cell hi n | none => s

/-! ### What a node holds (R189 to R191) -/

/-- The scalar port file, in the order of R189. -/
def scalarPorts : List Nat := [112, 114, 144, 146, 176, 177, 178, 192, 194, 195, 208, 210, 211, 224, 225, 226, 272, 273, 274, 368]
/-- Registers of a group. -/
def groupBytes (x : Ctx) (g : Nat) : List Byte :=
  if g < 4 then (List.range 16).flatMap (fun i => natLe 8 (look (0 : Word) (16 * g + i) x.g).toNat)
  else (List.range 16).flatMap (fun i => natLe 32 (look (0 : VWord) (16 * (g - 4) + i) x.v).toNat)
/-- The wide port file (R187): VEC.O, VEC.P, VEC.Q, and the upper bits of LSU.P and LSU.Q. -/
def wideBytes (x : Ctx) : List Byte :=
  natLe 32 (portVal x 304).toNat ++ natLe 32 (portVal x 305).toNat ++ natLe 32 (portVal x 306).toNat ++
  natLe 24 (portVal x 225 >>> 64).toNat ++ natLe 24 (portVal x 226 >>> 64).toNat

/-- INFO (R191). -/
def infoWord (cell tcb valid written : Nat) (hi explicit : Bool) : Nat :=
  cell + at' tcb 16 + at' valid 32 + at' written 40 + at' (b2n hi) 48 + at' (b2n explicit) 49

/-- The hold's words of a lower node. -/
def holdBytes (h : Option Hold) : List Byte :=
  match h with
  | none => natLe 24 0
  | some h =>
    let st := (h.answer.map (fun a => a.1.toNat)).getD 0
    natLe 8 ((h.pc.toNat / 8) * 8 + 2 * b2n h.answer.isSome + 1) ++ natLe 8 (h.va.toNat % 2 ^ 48 + at' h.size.toNat 48 + at' st 52) ++
    natLe 8 ((h.answer.map (fun a => a.2.toNat)).getD 0)

/-- The control state and scalar port file of a lower node: 256 bytes. -/
def lowerHead (x : Ctx) (hold : Option Hold) (next info level pc : Nat) (rep : Bool) : List Byte :=
  natLe 8 next ++ natLe 8 info ++
  natLe 8 (level + at' (b2n rep) 3 + at' (x.p.toNat / 2) 9 + at' x.rc.toNat 16 + at' x.sel.toNat 32) ++
  natLe 8 x.link.toNat ++ natLe 8 pc ++ natLe 8 x.csr.toNat ++ holdBytes hold ++
  natLe 8 (lo64 (portVal x 337)).toNat ++ natLe 8 (lo64 (portVal x 338)).toNat ++ natLe 8 (lo64 (portVal x 370)).toNat ++
  scalarPorts.flatMap (fun a => natLe 8 (lo64 (portVal x a)).toNat)

/-- Where a group lies in its node, and its length. -/
def groupOff (g : Nat) : Nat := match g with | 0 => 0x100 | 1 => 0x180 | 2 => 0x100 | 3 => 0x180 | 4 => 0x200 | _ => 0x400
def groupLen (g : Nat) : Nat := if g < 4 then 128 else 512
/-- The groups of a half. -/
def halfGroups (hi : Bool) : List Nat := if hi then [2, 3, 4, 5] else [0, 1]
/-- The bits of a half in VALID and WRITTEN. -/
def halfMask6 (hi : Bool) : Nat := if hi then 0x3C else 0x03
/-- The numbers set in a mask of groups. -/
def maskOf (gs : List Nat) : Nat := gs.foldl (fun m g => m ||| 1 <<< g) 0

/-- A write cut into the lines of 64 bytes it covers. -/
def cutLines : Nat → Nat → List Byte → List (Nat × List Byte)
  | 0, _, _ => []
  | n + 1, a, bs => if bs.isEmpty then [] else (a, bs.take 64) :: cutLines n (a + 64) (bs.drop 64)

/-! ### Loading groups (R194, R195) -/

/-- A group's registers from its node's bytes. -/
def putGroup (x : Ctx) (g : Nat) (bs : List Byte) : Ctx :=
  let y : Ctx := if g < 4 then { x with g := (List.range 16).foldl (fun t i => put (16 * g + i) (BitVec.ofNat 64 (leNat ((bs.drop (8 * i)).take 8))) t) x.g }
    else { x with v := (List.range 16).foldl (fun t i => put (16 * (g - 4) + i) (BitVec.ofNat 256 (leNat ((bs.drop (32 * i)).take 32))) t) x.v }
  { y with dirty := y.dirty &&& ~~~(BitVec.ofNat 6 (1 <<< g)), pendGroups := y.pendGroups &&& ~~~(BitVec.ofNat 6 (1 <<< g)) }
/-- The wide port file from its node's bytes; the upper bits of LSU.P and LSU.Q stay where they were written while VA was
pending (R195). -/
def putWide (x : Ctx) (bs : List Byte) : Ctx :=
  let w (o n : Nat) : VWord := BitVec.ofNat 256 (leNat ((bs.drop o).take n))
  let up (a o : Nat) (k : Bool) (y : Ctx) : Ctx := if k then y else setPort y a ((portVal y a &&& 0xFFFFFFFFFFFFFFFF) ||| (w o 24 <<< 64))
  let y := setPort (setPort (setPort x 304 (w 0 32)) 305 (w 32 32)) 306 (w 64 32)
  { up 226 120 x.keepQ (up 225 96 x.keepP y) with keepP := false, keepQ := false }
/-- A group loaded from the node at an address. -/
def loadGroup (s : State) (x : Ctx) (node g : Nat) : Ctx :=
  let y := putGroup x g (rdBytes s (node + groupOff g) (groupLen g))
  if g = 4 then putWide y (rdBytes s (node + 0x40) 144) else y
/-- Is a line of a group's load poisoned? -/
def groupPoisoned (s : State) (node g : Nat) : Bool := poisonedAt s (node + groupOff g) (groupLen g) || (g == 4 && poisonedAt s (node + 0x40) 144)

def nodeOfGroup (k : Core) (g : Nat) : Nat := if g < 2 then k.nodeLo else k.nodeHi
/-- Every pending restore of a half completed. -/
def completeHalf (s : State) (k : Core) (hi : Bool) (x : Ctx) : Ctx :=
  (halfGroups hi).foldl (fun x g => if x.pendGroups.getLsbD g then loadGroup s x (nodeOfGroup k g) g else x) x

/-! ### Saving (R194) -/

/-- The groups a save of a half into a node writes. -/
def saveGroups (k : Core) (x : Ctx) (hi : Bool) (node : Nat) : List Nat :=
  if (if hi then k.nodeHi else k.nodeLo) = node then (halfGroups hi).filter (fun g => x.dirty.getLsbD g) else halfGroups hi
/-- VALID after the save: every group that the node holds. -/
def validAfter (k : Core) (hi : Bool) (node : Nat) (gs : List Nat) : Nat :=
  (if (if hi then k.nodeHi else k.nodeLo) = node then k.validGroups.toNat &&& halfMask6 hi else 0) ||| maskOf gs

/-- What a save of a half writes: the lines, each with its address. `sp` replaces g63 in an upper node (R199). -/
def saveLines (k : Core) (x : Ctx) (hi : Bool) (node cell tcb : Nat) (explicit : Bool) (next level pc : Nat) (rep : Bool) (hold : Option Hold) (sp : Option Word) : List (Nat × List Byte) :=
  let gs := saveGroups k x hi node
  let info := infoWord cell tcb (validAfter k hi node gs) (maskOf gs) hi explicit
  let y : Ctx := match sp with | some w => { x with g := put 63 w x.g } | none => x
  let head : List (Nat × List Byte) := if hi then cutLines 1 node (natLe 8 0 ++ natLe 8 info ++ natLe 48 0) ++
      (if gs.contains 4 then cutLines 3 (node + 0x40) (wideBytes x ++ natLe 48 0) else [])
    else cutLines 4 node (lowerHead x hold next info level pc rep)
  head ++ gs.flatMap (fun g => cutLines 8 (node + groupOff g) (groupBytes y g))

/-- The core after a save of a half: the node is the half's source, the groups written are no longer dirty. -/
def afterSave (k : Core) (hi : Bool) (node : Nat) (gs : List Nat) : Core :=
  let v := (k.validGroups.toNat &&& (0x3F - halfMask6 hi)) ||| validAfter k hi node gs
  { k with
    ctx := { k.ctx with dirty := k.ctx.dirty &&& ~~~(BitVec.ofNat 6 (maskOf gs)) }
    validGroups := BitVec.ofNat 6 v
    nodeLo := if hi then k.nodeLo else node
    nodeHi := if hi then node else k.nodeHi }

/-- A save write handed to the source port: ordering stream 15 (R194). -/
def submitSave (s : State) (c tcb : Nat) (l : Nat × List Byte) : State :=
  let k := getCore s c
  updTcb (submit s { init := coreInit c, level := k.level, cell := coreCell k, stream := 15, kind := .write, addr := l.1, size := l.2.length, data := l.2, purpose := .save c tcb })
    tcb (fun x => { x with saves := x.saves + 1, saving := true })

/-- Must the scheduler's save write the upper half: is a group of it dirty, or is its source another node (R193)? -/
def needsUpper (k : Core) (bound : Nat) : Bool := (k.ctx.dirty.toNat &&& 0x3C) ≠ 0 || (k.nodeHi ≠ 0 && k.nodeHi ≠ bound)

/-- A node bound for a half of a task, if the task has none: its address, or `none` where the pool is empty (R202). -/
def bindNode (s : State) (t : Nat) (hi : Bool) : Option (State × Nat) :=
  let x := getTcb s t
  let a := if hi then x.nodeHi else x.nodeLo
  if a ≠ 0 then some (s, a)
  else
    match poolHead s x.cell hi with
    | none => none
    | some n =>
      let b := nodeAddr s.comp.live x.cell hi n
      some (updTcb (poolTake s x.cell hi) t (fun x => if hi then { x with nodeHi := b } else { x with nodeLo := b }), b)

/-- The scheduler's save of the task that core `c` runs; `none` with the half whose pool is empty where it cannot be
made, in which case nothing is written (R202). -/
def saveTask (s : State) (c t : Nat) : Except Bool State :=
  let k0 := getCore s c
  match bindNode s t false with
  | none => .error false
  | some (s1, lo) =>
    let up := needsUpper k0 (getTcb s t).nodeHi
    match if up then (bindNode s1 t true).map (fun p => (p.1, p.2)) else some (s1, (getTcb s1 t).nodeHi) with
    | none => .error true
    | some (s2, hi) =>
      let cell := (getTcb s t).cell
      -- pending restores of a half saved into another node are completed first
      let x1 := if k0.nodeLo ≠ lo then completeHalf s2 k0 false k0.ctx else k0.ctx
      let x2 := if up ∧ k0.nodeHi ≠ hi then completeHalf s2 k0 true x1 else x1
      let k := { k0 with ctx := x2 }
      let s3 := setCore s2 c k
      let linesLo := saveLines k x2 false lo cell t false hi k.level.toNat k.pc.toNat x2.rep k.hold none
      let linesHi := if up then saveLines k x2 true hi cell t false 0 0 0 false none none else []
      let s4 := (linesLo ++ linesHi).foldl (fun s l => submitSave s c t l) s3
      let s5 := updCore s4 c (fun j =>
        let j1 := afterSave j false lo (saveGroups k x2 false lo)
        if up then afterSave j1 true hi (saveGroups k x2 true hi) else j1)
      -- a hold still unanswered is written into the node when its answer comes (R197)
      let s6 := match k.hold with
        | some h => if h.answer.isNone then
            let re (q : Txn) : Txn := if q.id = h.txn then { q with purpose := .hold t c lo h.pc } else q
            let s7 := { s5 with fab := { s5.fab with txns := s5.fab.txns.map re, waiting := s5.fab.waiting.map re } }
            updTcb s7 t (fun x => { x with holdOut := true })
          else s5
        | none => s5
      .ok (updTcb (updCore s6 c (fun j => { j with hold := none })) t (fun x => { x with fresh := false }))

/-! ### Restoring (R195, R196) -/

/-- Does a node's INFO fail: its cell and, where compared, its TCB, or HALF (R196, R200)? -/
def infoBad (s : State) (node cell : Nat) (tcb : Option Nat) (hi : Bool) : Bool :=
  let info := rdNat s (node + 8) 8
  info % 4096 ≠ cell || (match tcb with | some t => info / 2 ^ 16 % 65536 ≠ t | none => false) || info.testBit 48 != hi
/-- Does a node fail the checks of a restore: INFO, and of a lower node STATUS.LEVEL (R196)? -/
def nodeBad (s : State) (node cell : Nat) (tcb : Option Nat) (hi : Bool) : Bool :=
  infoBad s node cell tcb hi || (!hi && 1 < rdNat s (node + 0x10) 8 % 4)

/-- The control state and scalar ports of a lower node. -/
def loadHead (s : State) (x : Ctx) (node : Nat) : Ctx :=
  let w (o : Nat) : Word := BitVec.ofNat 64 (rdNat s (node + o) 8)
  let st := w 0x10
  let y : Ctx := { x with p := BitVec.ofNat 8 (2 * fld st 15 9), rc := BitVec.ofNat 13 (min (fld st 28 16) 4096), sel := BitVec.ofNat 4 (fld st 35 32), link := w 0x18, csr := csrWrite 0 (w 0x28), flights := [], traps := [], poison := [] }
  let z := (List.range 20).foldl (fun y i =>
    let a := scalarPorts.getD i 0
    if a = 225 ∨ a = 226 then setPort y a ((portVal y a >>> 64 <<< 64) ||| wide (w (0x60 + 8 * i))) else setPort y a (wide (w (0x60 + 8 * i)))) y
  setPort (setPort (setPort z 337 (wide (w 0x48))) 338 (wide (w 0x50))) 370 (wide (w 0x58))

/-- The hold of a lower node, for the running cell and task. -/
def loadHold (s : State) (node cell tcb : Nat) : Option Hold :=
  let a := BitVec.ofNat 64 (rdNat s (node + 0x30) 8)
  let b := BitVec.ofNat 64 (rdNat s (node + 0x38) 8)
  if !bit a 0 then none
  else some { cell := cell, tcb := tcb, pc := a &&& ~~~7, va := BitVec.ofNat 64 (fld b 47 0), size := BitVec.ofNat 2 (fld b 49 48), answer := if bit a 1 then some (BitVec.ofNat 3 (fld b 54 52), BitVec.ofNat 64 (rdNat s (node + 0x40) 8)) else none }

/-- The groups of a half whose VALID bit a node has set: pending, or loaded at once; the others are zero (R191, R195). -/
def restoreHalf (s : State) (k : Core) (hi eager : Bool) (node : Nat) : Core :=
  let valid := if node = 0 then 0 else (rdNat s (node + 8) 8 / 2 ^ 32) % 64 &&& halfMask6 hi
  let x0 := (halfGroups hi).foldl (fun x g => putGroup x g []) k.ctx
  let x1 := if hi then { putWide { x0 with keepP := false, keepQ := false } [] with keepP := false, keepQ := false } else x0
  let k1 : Core := { k with
    ctx := { x1 with pendGroups := x1.pendGroups ||| BitVec.ofNat 6 valid }
    validGroups := BitVec.ofNat 6 ((k.validGroups.toNat &&& (0x3F - halfMask6 hi)) ||| valid)
    nodeLo := if hi then k.nodeLo else node
    nodeHi := if hi then node else k.nodeHi }
  if eager then { k1 with ctx := completeHalf s k1 hi k1.ctx } else k1
/-- Is a line that an eager restore of a half reads poisoned? -/
def halfPoisoned (s : State) (node : Nat) (hi : Bool) : Bool :=
  let valid := (rdNat s (node + 8) 8 / 2 ^ 32) % 64
  (halfGroups hi).any (fun g => valid.testBit g && groupPoisoned s node g)

/-- Lines of nodes read by a core's context engine for a cell, on stream 15 (R194, R239): whether each was answered OK and
without poison, or `none` where one must wait. A failed read is recorded, and its data are poison (R75). -/
def ctxRead (c : Nat) (cell : Option CellId) : List Nat → State → State × Option Bool
  | [], s => (s, some true)
  | a :: rest, s =>
    let r := carryReadPa s (coreInit c) 15 cell a 64
    match r.2 with
    | none => (r.1, none)
    | some st =>
      if st ≠ stOK then (readFailed r.1 (coreInit c) cell 15 st a, some false)
      else
        let p := memPerform r.1 (devReq (coreInit c) 15 cell .read a 64 []) 1
        if p.2.1 ≠ stOK then (p.1, some false) else ctxRead c cell rest p.1
/-- The lines that groups of a half take in their node: those of VALID groups, or of all the groups named. -/
def groupLines (s : State) (node : Nat) (gs : List Nat) : List Nat :=
  let valid := (rdNat s (node + 8) 8 / 2 ^ 32) % 64
  (gs.filter (fun g => valid.testBit g)).flatMap (fun g => (List.range (groupLen g / 64)).map (fun i => node + groupOff g + 64 * i) ++ (if g = 4 then (List.range 3).map (fun i => node + 0x40 + 64 * i) else []))

/-- A restore fails: CTX_NODE_BAD for the cell, and the task is HELD (R196). -/
def nodeFail (s : State) (c t : Nat) : State :=
  holdTask (fault s 0x0302 (coreSrc c 1) (some (getTcb s t).cell)) false t

/-- The core without a task: free, and at L0. -/
def freeCore (s : State) (c : Nat) : State :=
  updCore s c (fun k =>
    let k1 := if k.level = 0 then k else flushItt k
    { k1 with
      dq := [], fq := [], group := none, spec := k1.spec.filter (fun l => l.keep), walk := none, task := none, mode := .free, preempt := none, discard := false, resv := none, pre := none, exc := none, window := 0, level := 0
      ctx := { k1.ctx with rep := false, mprog := none, pendGroups := 0, keepP := false, keepQ := false } })
/-- The handler that a core without a task ran has returned to L1 or L0: level and PC are those that R180 restores, and the
core takes the task chosen for it meanwhile, or its next one, or is free again as it was at the interruption, since no rule
gives such a core words to run (R177, R207; assumption 16). -/
def leaveHandler (s : State) (c : Nat) : State :=
  let k := getCore s c
  if isS c ∨ k.task.isSome ∨ 1 < k.level.toNat ∨ k.mode ≠ .run then s
  else match k.preempt with
    | some (some t) => dispatchTo (dequeue (freeCore s c) t) t c
    | _ => feedCore (updCore (freeCore s c) c (fun x => { x with level := k.level })) c
/-- The core given to a task: registers of its context, its cell, its S1_ROOT; every predictor and speculative buffer
flushed where the cell changes (R151, R165), the target table alone where only the level does (R149). -/
def enterTask (s : State) (c t : Nat) (pc : Word) (level : BitVec 2) (f : Core → Core) : State :=
  let x := getTcb s t
  updCore s c (fun k =>
    let k1 := if k.cell = some x.cell then (if k.level = level then k else flushItt k) else flushCell k
    refetch (f { k1 with task := some t, cell := some x.cell, level := level, pc := pc, mode := .run, preempt := none, resv := none, exc := none, pre := none, window := 0, s1Root := (getCell s x.cell).s1 }) pc)

/-- Is a task's context still on another core, which has to save it first? -/
def stillOn (s : State) (t n : Nat) : Bool := s.cores.any (fun e => e.1 ≠ n && e.2.task = some t && !e.2.discard)

/-- TASK_SWITCH_IN: the task chosen for a core that runs none comes in: an empty context at its entry for a task never
saved, or its node's lines 0x000 to 0x0FF, checked, and its groups eager or pending (R195, R196). A task whose restore
fails is HELD, and the core takes its next one. The checks of INFO and of poison are made of the upper node's first line
too, which the restore reads (DESIGN CHOICE, assumption 60: R196 names the lower node's). -/
def execTaskSwitchIn (c : CoreId) (s : State) : Host.Outcome State Fault Refusal :=
  let n := c.val
  let k := getCore s n
  .next (
    match k.preempt with
    | some (some t) =>
      let x := getTcb s t
      if k.task.isSome ∨ isS n ∨ x.saving ∨ k.mode ≠ .free ∨ stillOn s t n ∨ !domainSteps s (cluOf n) then s
      else if x.fresh then
        enterTask s n t x.entryVa 0 (fun k => { k with ctx := {}, nodeLo := 0, nodeHi := 0, validGroups := 0, hold := none })
      else
        let lo := if x.nodeLo = 0 then x.srcLo else x.nodeLo
        let hi := if x.nodeLo = 0 then x.srcHi else rdNat s lo 8
        let st := BitVec.ofNat 64 (rdNat s (lo + 0x10) 8)
        let lines := (List.range 4).map (fun i => lo + 64 * i) ++ (if hi = 0 then [] else [hi]) ++
          (if x.eager then groupLines s lo (halfGroups false) ++ (if hi = 0 then [] else groupLines s hi (halfGroups true)) else [])
        let r := ctxRead n (some (BitVec.ofNat 12 x.cell)) lines s
        match r.2 with
        | none => r.1
        | some ok =>
          let s1 := r.1
          if !ok ∨ nodeBad s1 lo x.cell (some t) false ∨ (hi ≠ 0 ∧ nodeBad s1 hi x.cell (some t) true) then nodeFail s1 n t
          else
            enterTask s1 n t (BitVec.ofNat 64 (rdNat s1 (lo + 0x20) 8)) (BitVec.ofNat 2 (fld st 1 0)) (fun k =>
              let k1 := restoreHalf s1 (restoreHalf s1 { k with ctx := {} } false x.eager lo) true x.eager hi
              { k1 with ctx := { loadHead s1 k1.ctx lo with rep := bit st 3 }, hold := loadHold s1 lo x.cell t })
    | _ => s)

/-- GROUP_LOAD_DONE: a pending group is loaded from its node; a poisoned line fails the restore (R195, R196). -/
def execGroupLoadDone (c : CoreId) (grp : Fin 6) (s : State) : Host.Outcome State Fault Refusal :=
  let n := c.val
  let k := getCore s n
  let g := grp.val
  .next (
    if !k.ctx.pendGroups.getLsbD g then s
    else
      let node := nodeOfGroup k g
      let load (s : State) : State := updCore s n (fun k => { k with ctx := loadGroup s k.ctx node g, pre := k.pre.map (fun x => loadGroup s x node g) })
      let r := ctxRead n (coreCell k) (groupLines s node [g]) s
      match r.2, k.task with
      | none, _ => r.1
      | some false, some t => nodeFail r.1 n t
      | _, _ => load r.1)

/-- SAVING_CLEAR: every save write of a task has completed, and with it an answer that its hold awaited (R194, R197). -/
def execSavingClear (tcb : BitVec 16) (s : State) : Host.Outcome State Fault Refusal :=
  let t := tcb.toNat
  let x := getTcb s t
  .next (if x.saving ∧ x.saves = 0 ∧ !x.holdOut then updTcb s t (fun x => { x with saving := false }) else s)

end Sys2Proof.Machine
end

