-- ==== Sys2Proof/Machine/Halt.lean ====
section
/-! DEFINITION. Halting and resuming a cell or a core, and the cross-trigger channels (R422 to R431). -/
namespace Sys2Proof.Machine

def getDbgCell (s : State) (c : Nat) : DbgCell := look {} c s.dbg.cells
def updDbgCell (s : State) (c : Nat) (f : DbgCell → DbgCell) : State := { s with dbg := { s.dbg with cells := put c (f (getDbgCell s c)) s.dbg.cells } }

/-- DBG_CELL_CTRL of a cell: BREAK_HALT, MODE, CTI_IN, CTI_OUT. -/
def breakHalt (s : State) (c : Nat) : Bool := bit (getDbgCell s c).ctrl 32
def debugMode (s : State) (c : Nat) : Bool := bit (getDbgCell s c).ctrl 33
def ctiIn (s : State) (c : Nat) : Nat := fld (getDbgCell s c).ctrl 31 16
def ctiOut (s : State) (c : Nat) : Nat := fld (getDbgCell s c).ctrl 15 0

/-- The cores that run a task of a cell and take steps. -/
def runningCores (s : State) (c : Nat) : List Nat :=
  (listedCores s).filter (fun n => let k := getCore s n; !isS n && k.cell == some c && k.task.isSome && (match k.mode with | .stopped | .locked | .safe | .held | .free => false | _ => true))

/-- Is a core ready to stop: at L1 or L0, with no atomic or device load that must complete first (R423, R160)? -/
def waitsForAnswer (k : Core) : Bool :=
  atomicOut k || (match k.rdTxn with | some t => t.stream = 2 && t.kind = .read && k.hold.isSome | none => false)

/-- PRODUCTION is in force (R393). -/
def production (s : State) : Bool := s.boot.lc = 1

/-- One cell is asked to halt (R422, R427, R430): class DEBUG on its cores where MODE is 1; a safety cell in PRODUCTION
is recorded and becomes FAULTED; any other cell's cores are asked to stop, or it is HALTED at once where none runs it. A cell
that is not ACTIVE is not halted (R215). The request wakes the clusters of the cell's cores (R387). -/
def haltOne (s : State) (c : Nat) (cause : BitVec 3) : State :=
  if cellState s c ≠ .active then s
  else if debugMode s c then
    (runningCores s c).foldl (fun s n => wakeDom (updCore s n (fun k => { k with irqs := k.irqs ++ [{ cls := 0x12, base := 1, detail := 1 }] })) (n / 8)) s
  else if isSafety s.comp.live c ∧ production s then
    faultCell (fault s 0x0706 (src 0x64 3 0) (some c)) c
  else
    let rs := runningCores s c
    let s1 := updDbgCell s c (fun d => { d with cause := cause, late := rs.any (fun n => decide (1 < (getCore s n).level.toNat) || waitsForAnswer (getCore s n)), stopped := [], waiting := rs })
    let s2 := rs.foldl (fun s n => wakeDom (updCore s n (fun k => { k with stopReq := true })) (n / 8)) s1
    if rs.isEmpty then leaveActive s2 c .halted else s2

/-- Cells halted by a set of channels, and by the channels that their halts fire in turn; no cell of `done` a second time
(R422, R424). -/
def fireChannels : Nat → State → Nat → List Nat → State
  | 0, s, _, _ => s
  | n + 1, s, ch, done =>
    match (s.dbg.cells.map (·.1)).find? (fun c => !(done.contains c) && cellState s c = .active && (ctiOut s c &&& ch) ≠ 0 && (getDbgCell s c).waiting.isEmpty) with
    | none => s
    | some c => fireChannels n (haltOne s c 2) (if debugMode s c then ch else ch ||| ctiIn s c) (c :: done)

/-- A cell halted by a command (1) or a T_BREAK (3), with the channels its halt fires. -/
def haltCell (s : State) (c : Nat) (cause : BitVec 3) : State :=
  let s1 := haltOne s c cause
  if debugMode s c then s1 else fireChannels (s.dbg.cells.length + 1) s1 (ctiIn s c) [c]

/-- RESUME of a HALTED cell: it is ACTIVE, and its stopped cores continue (R429). -/
def resumeCell (s : State) (c : Nat) : State :=
  let s1 := (listedCores s).foldl (fun s n =>
    let k := getCore s n
    if k.cell = some c ∧ !(s.dbg.coreHalts.contains n) then updCore s n (fun k => { k with mode := if k.mode = .stopped then .run else k.mode, stopReq := false, stepOne := false }) else s) s
  let s2 := updDbgCell s1 c (fun d => { d with stopped := [], waiting := [], late := false })
  if cellState s c = .halted then enterActive s2 c false else s2

/-! ### The granted level (R418, R421) -/

/-- Does a level grant halt, resume and step of a cell; its core state, its memory and its trace? -/
def runCover (s : State) (lvl c : Nat) : Bool := decide (2 ≤ lvl) || (lvl == 1 && kindIn s.comp.live c == 0)
def dataCover (s : State) (lvl c : Nat) : Bool := decide (1 + kindIn s.comp.live c ≤ lvl)
/-- The granted level of an OPEN session (R418). -/
def grantedLevel (s : State) : Nat :=
  if s.dbg.auth ≠ .opened then 0
  else
    let ceil : Nat := match s.boot.lc.toNat with | 0 => 3 | 1 => 2 | 2 => 2 | _ => 0
    let pol : Nat := if s.comp.isSealed then (debugPolicy s.comp.live).1 else if s.boot.lc = 0 then 3 else 0
    min s.dbg.certLevel.toNat (min ceil (min pol (fld (stored s .dbgHvLimit 0xF8000070010) 1 0)))
/-- A cell no longer covered is resumed and its settings cleared. -/
def uncoverCell (s : State) (c : Nat) : State :=
  let s1 := if cellState s c = .halted ∨ !(getDbgCell s c).waiting.isEmpty then resumeCell s c else s
  updDbgCell s1 c (fun d => { d with ctrl := 0 })
/-- The level evaluated anew; when it falls, each cell that it no longer covers is resumed first. -/
def reLevel (s : State) : State :=
  let l := grantedLevel s
  let s1 := if l < s.dbg.level.toNat then ((s.dbg.cells.map (·.1)).filter (fun c => !runCover s l c)).foldl uncoverCell s else s
  { s1 with dbg := { s1.dbg with level := BitVec.ofNat 2 l } }

end Sys2Proof.Machine
end

