-- ==== Sys2Proof/Machine/Chk.lean ====
section
/-! DEFINITION. The check-value unit of a core: owners and claims, feeds, comparison and parity (chapter 17). -/
namespace Sys2Proof.Machine

/-- Parameters of PRESET 0 to 6 (R374): WIDTH, POLY, INIT, REFIN and REFOUT, XOROUT. -/
def presetParams (p : Nat) : Nat × Nat × Nat × Bool × Nat :=
  match p with
  | 0 => (8, 0x1D, 0xFF, false, 0xFF)
  | 1 => (8, 0x2F, 0xFF, false, 0xFF)
  | 2 => (16, 0x1021, 0xFFFF, false, 0)
  | 3 => (32, 0x04C11DB7, 0xFFFFFFFF, true, 0xFFFFFFFF)
  | 4 => (32, 0x1EDC6F41, 0xFFFFFFFF, true, 0xFFFFFFFF)
  | 5 => (32, 0xF4ACFB13, 0xFFFFFFFF, true, 0xFFFFFFFF)
  | _ => (64, 0x42F0E1EBA9EA3693, 0xFFFFFFFFFFFFFFFF, true, 0xFFFFFFFFFFFFFFFF)

/-- A context given a configuration: a preset, or the expert values (R375). -/
def configure (x : ChkCtx) (preset width : Nat) (refin refout : Bool) (poly init xorout : Nat) : ChkCtx :=
  if preset ≤ 6 then
    let p := presetParams preset
    { x with preset := BitVec.ofNat 8 preset, width := p.1, poly := BitVec.ofNat 64 p.2.1, init := BitVec.ofNat 64 p.2.2.1, refin := p.2.2.2.1, refout := p.2.2.2.1, xorout := BitVec.ofNat 64 p.2.2.2.2 }
  else { x with preset := BitVec.ofNat 8 preset, width := width, poly := BitVec.ofNat 64 poly, init := BitVec.ofNat 64 init, refin := refin, refout := refout, xorout := BitVec.ofNat 64 xorout }

def getChk (k : Core) (i : Nat) : ChkCtx := look {} i k.chk
def setChk (k : Core) (i : Nat) (x : ChkCtx) : Core := { k with chk := put i x k.chk }

/-- The CHK_PRESET record of a cell for a context. -/
def chkRec (s : State) (cell i : Nat) : Option Rec := if s.comp.isSealed then findRec s.comp.live tCHK (fun r => ru16 r 0 = cell && ru8 r 2 = i) else none

/-- Does the core's running cell own the context? An S-core's contexts have no owner and serve it (R372). -/
def ownsChk (c : Nat) (k : Core) (x : ChkCtx) : Bool := isS c || (k.cell.isSome && x.owner == k.cell)

/-- A claim of a context by the running cell (R370, R371). -/
def claimChk (s : State) (c : Nat) (k : Core) (i : Nat) : ChkCtx :=
  let x := getChk k i
  if ownsChk c k x then x
  else
    let cell := k.cell.getD 4096
    let kept : Bool := match x.owner with | some o => isSafety s.comp.live o && cellState s o != .faulted | none => false
    match chkRec s cell i with
    | some r =>
      if kept then { x with denied := addSorted cell x.denied }
      else
        { configure { owner := some cell, trap := (ru8 r 5).testBit 2 } (ru8 r 3) (ru8 r 4) ((ru8 r 5).testBit 0) ((ru8 r 5).testBit 1) (ru64 r 8) (ru64 r 16) (ru64 r 24) with
          denied := x.denied.filter (fun d => d ≠ cell) }
    | none => { x with denied := addSorted cell x.denied }

/-- One byte fed (R373). -/
def feedOne (x : ChkCtx) (b : Byte) : ChkCtx :=
  { x with val := BitVec.ofNat 64 (crcByte x.width x.poly.toNat x.refin x.val.toNat b % 2 ^ x.width), st := { x.st with progress := satAdd x.st.progress 1 } }

/-- One step of a feed: the next byte; after it an abort asked for is granted, or the feed is done (R376). -/
def feedStep (x : ChkCtx) : ChkCtx :=
  match x.feeding with
  | [] => x
  | b :: bs =>
    let y := feedOne x b
    if bs.isEmpty then { y with feeding := [], st := { y.st.finish 2 with progress := y.st.progress } }
    else if y.st.abortReq then { y with feeding := [], st := y.st.aborted }
    else { y with feeding := bs }
/-- A feed run to its end. -/
def feedAll : Nat → ChkCtx → ChkCtx
  | 0, x => x
  | n + 1, x => if x.feeding.isEmpty then x else feedAll n (feedStep x)
/-- CHK is free: every feed of the core has ended (R109, R112). -/
def finishChk (k : Core) : Core := { k with chk := k.chk.map (fun e => (e.1, feedAll 4 e.2)) }

/-- Even parity of the bytes of a value (R378). -/
def parityOf (v : Word) : BitVec 8 :=
  BitVec.ofNat 8 ((List.range 8).foldl (fun m i => m + at' (popFrom 8 (fld v (8 * i + 7) (8 * i)) % 2) i) 0)

/-- A new operation of a context: DONE, and ABORT_LATE cleared. -/
def chkDone (x : ChkCtx) : ChkCtx := { x with st := { st := 2 } }

/-- T_INIT: on an S-core the written configuration takes effect first (R372). -/
def chkInit (c : Nat) (x : ChkCtx) : ChkCtx :=
  let y : ChkCtx := if isS c then
      let w := x.cfgW
      { configure x (fld w 15 8) (fld w 6 0) (bit w 16) (bit w 17) x.polyW.toNat x.initW.toNat x.xorW.toNat with trap := bit w 24 }
    else x
  chkDone { y with val := y.init }

/-- What an operation of CHK does (R370 to R378): 0 feed of n bytes, 1 T_INIT, 2 a move into VAL, 3 a move into EXP,
4 T_CMP, 5 T_ABORT. Answers whether CHK_MISMATCH is to be taken. -/
def chkOp (s : State) (c op n : Nat) (v : Word) : State × Bool :=
  let k := if op = 5 then getCore s c else finishChk (getCore s c)
  let i := k.ctx.sel.toNat
  let x := if op = 1 ∨ op = 2 ∨ op = 3 then claimChk s c k i else getChk k i
  let own := ownsChk c k x
  let fin (x : ChkCtx) : State := setCore s c (setChk k i x)
  if !own then (fin x, false)
  else
    match op with
    | 0 => (fin (if n = 0 then x else { x with feeding := natLe n v.toNat, st := { st := 1, progress := x.st.progress } }), false)
    | 1 => (fin (chkInit c x), false)
    | 2 => (fin (chkDone { x with val := BitVec.ofNat 64 (v.toNat % 2 ^ x.width) }), false)
    | 3 => (fin { x with exp := v, par := parityOf v }, false)
    | 4 =>
      let bad := parityOf x.exp ^^^ x.par
      let er (cause : BitVec 4) : ChkCtx := { x with st := { st := 4, progress := x.st.progress }, cause := cause }
      if bad ≠ 0 then
        (raise (fin { er 2 with parBytes := bad }) { code := 0x0306, cls := 2, source := coreSrc c 0, cell := x.owner.map (BitVec.ofNat 12), syndrome := BitVec.ofNat 64 (bad.toNat * 256 + i) }, false)
      else if chkFinal x = x.exp.toNat % 2 ^ x.width then (fin { x with st := { st := 2, progress := x.st.progress } }, false)
      else (fin (er 1), x.trap)
    | _ => (fin (if x.feeding.isEmpty then x else { x with st := x.st.request }), false)

/-- What a move out of VAL (353), EXP (354), STATUS (355) or Q (356) returns: nothing of another cell's context (R371). -/
def chkRead (c : Nat) (k : Core) (x : Ctx) (a : Nat) : Word :=
  let y := getChk k x.sel.toNat
  if ownsChk c k y then
    (match a with
     | 353 => y.val
     | 354 => y.exp
     | 355 => y.st.word
     | _ => BitVec.ofNat 64 (chkFinal y))
  else if a = 355 then 4 else 0
/-- A move out of EXP checks its parity (R378). -/
def expCheck (s : State) (c : Nat) (x : Ctx) : State :=
  let k := getCore s c
  let i := x.sel.toNat
  let y := getChk k i
  let bad := parityOf y.exp ^^^ y.par
  if ownsChk c k y ∧ bad ≠ 0 then
    raise (setCore s c (setChk k i { y with parBytes := bad })) { code := 0x0306, cls := 2, source := coreSrc c 0, cell := y.owner.map (BitVec.ofNat 12), syndrome := BitVec.ofNat 64 (bad.toNat * 256 + i) }
  else s

/-! ### System registers 0x040 to 0x044 -/

def chkReg (c : Nat) (k : Core) (num : Nat) : Word :=
  let y := getChk k k.ctx.sel.toNat
  let own := ownsChk c k y
  match num with
  | 0x40 =>
    if isS c then y.cfgW
    else if own then BitVec.ofNat 64 (at' (y.owner.getD 0) 32 + at' 1 31 + at' (b2n y.trap) 24 + at' (b2n y.refout) 17 + at' (b2n y.refin) 16 + at' y.preset.toNat 8 + y.width)
    else BitVec.ofNat 64 (at' (b2n y.trap) 24)
  | 0x41 => if isS c then y.polyW else if own then y.poly else 0
  | 0x42 => if isS c then y.initW else if own then y.init else 0
  | 0x43 => if isS c then y.xorW else if own then y.xorout else 0
  | _ =>
    if own then BitVec.ofNat 64 (at' y.parBytes.toNat 8 + y.cause.toNat)
    else if y.denied.contains (k.cell.getD 4096) then 4 else 3

/-- A configuration that no context can have: a PRESET that R374 does not list, or an expert one whose WIDTH lies outside
8 to 64 (R375). On an S-core such a write leaves the rest of the register as it is, under R5 (DESIGN CHOICE, assumption
56). -/
def chkCfgBad (v : Word) : Bool := 7 ≤ fld v 15 8 && !(fld v 15 8 == 255 && 8 ≤ fld v 6 0 && fld v 6 0 ≤ 64)
/-- A write of those registers: the whole configuration on an S-core; on an A-core TRAP by the owner alone. -/
def chkRegWrite (c : Nat) (k : Core) (num : Nat) (v : Word) : Core :=
  let i := k.ctx.sel.toNat
  let y := getChk k i
  if isS c then
    (match num with
     | 0x40 => setChk k i { y with cfgW := if chkCfgBad v then (y.cfgW &&& 0xFF7F) ||| (v &&& 0x1030000) else v &&& 0x103FF7F }
     | 0x41 => setChk k i { y with polyW := v }
     | 0x42 => setChk k i { y with initW := v }
     | 0x43 => setChk k i { y with xorW := v }
     | _ => k)
  else if num = 0x40 ∧ ownsChk c k y then setChk k i { y with trap := bit v 24 }
  else k

end Sys2Proof.Machine
end

