-- ==== Sys2Proof/Machine/SysRegs.lean ====
section
/-! DEFINITION. The system registers of a core (R139): numbers, access levels, reads, and writes with their effects. -/
namespace Sys2Proof.Machine

/-! ### Which numbers exist, and at which level (R139, R169, R410) -/

/-- Minimum level of a system register; `none` where the number is unassigned on the core. An S-core has no translation
registers, no SR1, SR2, DTB1 or DTB2; an A-core has no MPU. -/
def srLevel (c num : Nat) : Option Nat :=
  let both : Option Nat := if num = 0x010 ∨ num = 0x014 ∨ num = 0x029 ∨ (0x040 ≤ num ∧ num ≤ 0x044) then some 1
    else if num = 0x013 ∨ (0x120 ≤ num ∧ num ≤ 0x127) then some 3 else none
  if both.isSome then both
  else if isS c then (if num = 0x060 ∨ (0x070 ≤ num ∧ num ≤ 0x08F) then some 3 else none)
  else if num = 0x011 ∨ (0x020 ≤ num ∧ num ≤ 0x022) ∨ num = 0x028 ∨ (0x100 ≤ num ∧ num ≤ 0x107) then some 1
  else if num = 0x012 ∨ num = 0x024 ∨ num = 0x026 ∨ (0x030 ≤ num ∧ num ≤ 0x034) ∨ (0x110 ≤ num ∧ num ≤ 0x117) then some 2
  else if num = 0x025 ∨ num = 0x027 then some 3
  else none

/-- May the core reach the register that a number operand names? -/
def srOk (c lvl : Nat) (num : Word) : Bool :=
  decide (num.toNat < 4096) && (match srLevel c num.toNat with | some l => decide (l ≤ lvl) | none => false)
/-- A write of TLB_INV with an OP of a higher level raises PERM as well. -/
def srWriteOk (c lvl : Nat) (num v : Word) : Bool :=
  srOk c lvl num && !(num = 0x028 && 4 ≤ fld v 3 0 && fld v 3 0 ≤ 6 && lvl < 2)

/-! ### Reads -/

/-- CUR_STATUS. -/
def curStatus (c : Nat) (k : Core) : Word :=
  BitVec.ofNat 64 (at' k.window.toNat 32 + at' (if isS c then 0 else k.cell.getD 0) 16 + at' (b2n k.ctx.rep) 3 + at' (b2n (k.window = 0)) 2 + k.level.toNat)

/-- Entries of a cluster's descriptor store in use; an S-core's own tables for an S-core (R171). -/
def storeUsed (s : State) (c : Nat) : Nat :=
  if isS c then (((getCore s c).tab3.map List.length).getD 0)
  else
    let n := cluOf c
    (s.cells.foldl (fun m e => m + (look [] n e.2.tabs).length) 0) +
    (List.range 8).foldl (fun m j => m + (((getCore s (8 * n + j)).tab2.map List.length).getD 0) + (((getCore s (8 * n + j)).tab3.map List.length).getD 0)) 0

/-- The sealed L1 table that serves a core: its running cell's on its cluster. -/
def tab1 (s : State) (c : Nat) : Option DescTable :=
  match (getCore s c).cell with
  | some x => ((getCell s x).tabs.find? (fun e => e.1 = cluOf c)).map (·.2)
  | none => none

def sealState (s : State) (c : Nat) : Word :=
  let k := getCore s c
  BitVec.ofNat 64 (at' (8192 - storeUsed s c) 16 + at' (b2n k.tab3.isSome) 2 + at' (b2n k.tab2.isSome) 1 + b2n (!isS c && (tab1 s c).isSome))

def saveSet (k : Core) (l : Nat) : SaveSet := match l with | 1 => k.sr1 | 2 => k.sr2 | _ => k.sr3
def setSaveSet (k : Core) (l : Nat) (x : SaveSet) : Core := match l with | 1 => { k with sr1 := x } | 2 => { k with sr2 := x } | _ => { k with sr3 := x }

def saveSetReg (x : SaveSet) (i : Nat) : Word :=
  match i with
  | 0 => x.pc
  | 1 => x.status
  | 2 => x.cls
  | 3 => x.synd
  | 4 => x.addr
  | 5 => x.sp
  | 6 => if x.valid then 1 else 0
  | _ => x.mprog.setWidth 64

def stateCode (x : CellState) : Nat := match x with | .absent => 0 | .active => 1 | .faulted => 2 | .quiesced => 3 | .halted => 4

/-- A system register as T_SRRD reads it. -/
def srRead (s : State) (c num : Nat) : Word :=
  let k := getCore s c
  let sel := k.cellSel.toNat
  if 0x100 ≤ num ∧ num ≤ 0x127 then saveSetReg (saveSet k (1 + (num - 0x100) / 16)) (num % 16)
  else if 0x040 ≤ num ∧ num ≤ 0x044 then chkReg c k num
  else if 0x070 ≤ num ∧ num ≤ 0x08F then look 0 ((num - 0x070) / 2) (if num % 2 = 0 then k.mpuBase else k.mpuAttr)
  else match num with
    | 0x010 => curStatus c k
    | 0x011 => k.dtb1
    | 0x012 => k.dtb2
    | 0x013 => k.dtb3
    | 0x014 => sealState s c
    | 0x020 => k.s1Root
    | 0x021 => (k.cell.map (fun x => (getCell s x).s1)).getD 0
    | 0x022 => (k.cell.map (fun x => (getCell s x).mttS1)).getD 0x03020100
    | 0x024 => k.htRoot2
    | 0x025 => k.htRoot3
    | 0x026 => k.mttH2
    | 0x027 => k.mttH3
    | 0x030 => k.cellSel.setWidth 64
    | 0x031 => (getCell s sel).s2
    | 0x032 => (getCell s sel).mttS2
    | 0x033 => BitVec.ofNat 64 (at' (b2n (cellBlocked s sel)) 8 + at' (if s.comp.isSealed then kindIn s.comp.live sel else 0) 4 + stateCode (cellState s sel))
    | 0x034 => BitVec.ofNat 64 (at' k.cellResult.toNat 8)
    | 0x060 => if k.mpuEn then 1 else 0
    | _ => 0

/-! ### Writes -/

/-- A refused or partly refused write of a system register is recorded by its core (R5, R484). R334 leaves SYNDROME to
each code and no rule lays it out for these two: the model puts the register's number there (DESIGN CHOICE,
assumption 58). -/
def srRefuse (s : State) (c code num : Nat) : State :=
  raise s { code := code, cls := 0, source := coreSrc c 0, cell := coreCell (getCore s c), syndrome := BitVec.ofNat 64 num }

/-- An MTT written: an entry with a value R223 does not list keeps its old value, and is recorded (R5). -/
def mttMerge (old v : Word) : Word :=
  (List.range 8).foldl (fun w i => if mttEntry v i ≤ 3 then putFld w (8 * i + 7) (8 * i) (mttEntry v i) else w) old
def mttBad (v : Word) : Bool := (List.range 8).any (fun i => 3 < mttEntry v i)

/-- LEVEL 1 and 2 are values that an S-core's STATUS does not have (R169): they are handled under R5 (DESIGN CHOICE,
assumption 69). -/
def badLevel (v : Word) : Bool := fld v 1 0 == 1 || fld v 1 0 == 2
/-- A save-set register written (chapter 08): its RW fields. -/
def saveSetWrite (c : Nat) (x : SaveSet) (i : Nat) (v : Word) : SaveSet :=
  match i with
  | 0 => { x with pc := v }
  | 1 =>
    -- an S-core implements L0 and L3 alone (R169)
    let w := (x.status &&& ~~~0xB) ||| (v &&& 0xB)
    { x with status := if isS c ∧ badLevel v then putFld w 1 0 (fld x.status 1 0) else w }
  | 2 => { x with cls := v &&& 0xFF }
  | 3 =>
    let w := v &&& ~~~0xE0
    { x with synd := if fld v 3 2 = 3 then putFld w 3 2 (fld x.synd 3 2) else w }
  | 4 => { x with addr := v }
  | 5 => { x with sp := v }
  | 6 => { x with valid := bit v 0 }
  | _ => { x with mprog := if isS c then v.setWidth 17 else (v.setWidth 16).setWidth 17 }

/-- Every TLB of the device, the IOTLB included where asked, drops the entries that a test matches (R232, R233). -/
def dropTlbs (s : State) (io : Bool) (p : TlbEntry → Bool) : State :=
  let s1 := (listedCores s).foldl (fun s c => if (getCore s c).tlb.any p then updCore s c (fun k => { k with tlb := k.tlb.filter (fun t => !p t) }) else s) s
  if io then { s1 with iommu := { s1.iommu with iotlb := s1.iommu.iotlb.filter (fun t => !p t) } } else s1
def ofCell (x : Nat) (t : TlbEntry) : Bool := t.host = 0 && t.cell == some x

/-- The invalidation that a write of TLB_INV makes (R232). -/
def tlbInvalidate (s : State) (c : Nat) (v : Word) : State :=
  let k := getCore s c
  let x := k.cell.getD 4096
  let sel := k.cellSel.toNat
  let a := fld v 47 12 * 4096
  let asid := fld v 63 48
  match fld v 3 0 with
  | 1 => dropTlbs s false (fun t => ofCell x t && t.asid = asid && covers t.va t.log2 a)
  | 2 => dropTlbs s false (fun t => ofCell x t && t.asid = asid)
  | 3 => dropTlbs s false (ofCell x)
  | 4 => dropTlbs s true (fun t => ofCell sel t && covers t.ipa t.log2 a)
  | 5 => dropTlbs s true (ofCell sel)
  | 6 => dropTlbs s false (fun t => t.host = k.level.toNat)
  | _ => s

/-- Does a domain that carries a part of a cell run below its floor (R216, R317)? -/
def cellBelowFloor (s : State) (x : Nat) : Bool :=
  (List.range 39).any (fun d => carries s.comp.live d x && inRun s d && decide (slowestPs s.comp.live d < (getDom s d).ps))

/-- Does a class K fault of the cell lie between its detection and its stop (R345)? -/
def kPending (s : State) (x : Nat) : Bool := s.flt.raised.any (fun m => m.cell == some (BitVec.ofNat 12 x) && (classInForce s m).1 = 2)

/-- CELL_CMD RESTART and FAULT (R215, R216). Where several reasons refuse a RESTART, RESULT names the first of: the state or
a pending fault, a blocked stream, a domain below its floor (DESIGN CHOICE, assumption 69: the spec gives no order). -/
def cellCommand (s : State) (c cmd : Nat) : State :=
  let x := (getCore s c).cellSel.toNat
  let res (s : State) (r : BitVec 2) : State := updCore s c (fun k => { k with cellResult := r })
  match cmd with
  | 1 =>
    if kPending s x ∨ cellState s x ≠ .faulted then res s 1
    else if cellBlocked s x then res s 3
    else if cellBelowFloor s x then res s 1
    else res (enterActive (dropTlbs s true (ofCell x)) x true) 0
  | 2 =>
    if s.comp.isSealed ∧ isSafety s.comp.live x then res s 2
    else if cellState s x ≠ .active then res s 1
    else res (faultCell (fault s 0x0405 (coreSrc c 0) (some x)) x) 0
  | 3 => srRefuse s c 0x0003 0x034
  | _ => s

/-- May CELL_S2 and CELL_MTT_S2 of a cell no longer be written (RWL with the lock SEAL)? -/
def s2Locked (s : State) (x : Nat) : Bool := s.comp.isSealed && isSafety s.comp.live x

/-- The L1 instruction invalidation of IC_INV (R267); `pa` is where the line at VA lies. -/
def icInv (s : State) (c : Nat) (v : Word) (pa : Option Nat) : State :=
  updCore s c (fun k =>
    let k1 : Core := match fld v 1 0, pa with
      | 1, some a => { k with l1i := drop' (a / 64) k.l1i }
      | 2, _ => { k with l1i := [] }
      | _, _ => k
    if fld v 1 0 = 0 then k else { k1 with dq := k1.dq.take 1, fq := [], group := none, fetchPc := (k1.dq.head?.map (fun d => d.addr + 8)).getD k1.fetchPc, spec := k1.spec.filter (fun l => !l.fetch) })

/-- A system register written by T_SRWR: TLB_INV, IC_INV and the commands act as their registers say. -/
def srWrite (s : State) (c num : Nat) (v : Word) (pa : Option Nat) : State :=
  let k := getCore s c
  let sel := k.cellSel.toNat
  let root (m : Word) : Word := v &&& m
  let updRun (f : Cell → Cell) : State := match k.cell with | some x => updCell s x f | none => s
  if 0x100 ≤ num ∧ num ≤ 0x127 then
    let l := 1 + (num - 0x100) / 16
    let s1 := setCore s c (setSaveSet k l (saveSetWrite c (saveSet k l) (num % 16) v))
    if (num % 16 = 3 ∧ fld v 3 2 = 3) ∨ (num % 16 = 1 ∧ isS c ∧ badLevel v) then srRefuse s1 c 0x0003 num else s1
  else if 0x040 ≤ num ∧ num ≤ 0x044 then
    let s1 := setCore s c (chkRegWrite c (finishChk k) num v)
    if num = 0x040 ∧ isS c ∧ chkCfgBad v then srRefuse s1 c 0x0003 num else s1
  else if 0x070 ≤ num ∧ num ≤ 0x08F then
    let i := (num - 0x070) / 2
    if num % 2 = 0 then setCore s c { k with mpuBase := put i (v &&& 0xFFFFFFFF001) k.mpuBase }
    else setCore s c { k with mpuAttr := put i (v &&& 0xFFFFFFFFC3F) k.mpuAttr }
  else match num with
    | 0x011 => setCore s c { k with dtb1 := v &&& ~~~0x1FFF }
    | 0x012 => setCore s c { k with dtb2 := v &&& ~~~0x1FFF }
    | 0x013 => setCore s c { k with dtb3 := v &&& ~~~0x1FFF }
    | 0x020 => setCore s c { k with s1Root := root 0xFFFF0FFFFFFFF003 }
    | 0x021 => updRun (fun x => { x with s1 := root 0xFFFF0FFFFFFFF003 })
    | 0x022 =>
      let s1 := updRun (fun x => { x with mttS1 := mttMerge x.mttS1 v })
      if mttBad v then srRefuse s1 c 0x0003 num else s1
    | 0x024 => updCore s c (fun k => { k with htRoot2 := root 0x0FFFFFFFF003, tlb := k.tlb.filter (fun t => t.host ≠ 2) })
    | 0x025 => updCore s c (fun k => { k with htRoot3 := root 0x0FFFFFFFF003, tlb := k.tlb.filter (fun t => t.host ≠ 3) })
    | 0x026 =>
      let s1 := setCore s c { k with mttH2 := mttMerge k.mttH2 v }
      if mttBad v then srRefuse s1 c 0x0003 num else s1
    | 0x027 =>
      let s1 := setCore s c { k with mttH3 := mttMerge k.mttH3 v }
      if mttBad v then srRefuse s1 c 0x0003 num else s1
    | 0x028 => if 1 ≤ fld v 3 0 ∧ fld v 3 0 ≤ 6 then tlbInvalidate s c v else srRefuse s c 0x0003 num
    | 0x029 => if fld v 1 0 = 3 then srRefuse s c 0x0003 num else icInv s c v pa
    | 0x030 => setCore s c { k with cellSel := v.setWidth 12 }
    | 0x031 =>
      if s2Locked s sel then (if (getCell s sel).s2 = root 0x0FFFFFFFF003 then s else srRefuse s c 0x0001 num)
      else dropTlbs (updCell s sel (fun x => { x with s2 := root 0x0FFFFFFFF003 })) true (ofCell sel)
    | 0x032 =>
      if s2Locked s sel then (if (getCell s sel).mttS2 = v then s else srRefuse s c 0x0001 num)
      else
        let s1 := updCell s sel (fun x => { x with mttS2 := mttMerge x.mttS2 v })
        if mttBad v then srRefuse s1 c 0x0003 num else s1
    | 0x034 => cellCommand s c (fld v 1 0)
    | 0x060 => setCore s c { k with mpuEn := bit v 0 }
    | _ => s

end Sys2Proof.Machine
end

