-- ==== Sys2Proof/Machine/Priv.lean ====
section
/-! DEFINITION. Privilege levels: delivery of an exception, entry, lock-up, return, and the seal of a descriptor table
(chapter 08). -/
namespace Sys2Proof.Machine

/-! ### Delivery (R174, R175) -/

/-- The sealed table that serves a level of a core. -/
def tableOf (s : State) (c l : Nat) : Option DescTable :=
  match l with
  | 1 => if isS c then none else tab1 s c
  | 2 => (getCore s c).tab2
  | _ => (getCore s c).tab3
/-- The valid descriptor of a class at a level. -/
def descOf (s : State) (c l cls : Nat) : Option Desc := (tableOf s c l).bind (fun t => (t.find? (fun e => e.1 = cls)).map (·.2))

/-- Base level of a class on a core: an S-core has L3 alone above L0 (R169). -/
def baseOn (c base : Nat) : Nat := if isS c then 3 else base

/-- Where delivery ends: level, descriptor, whether it passed, and the level escalated from. -/
structure Delivery where
  level : Nat
  desc : Desc
  passed : Bool
  escFrom : Nat

/-- Rules 1 and 2 of R175 over the levels left; `free` names the level that is entered even with its save set occupied
(R181). -/
def deliverSync (s : State) (c cls : Nat) (free : Option Nat) : List Nat → Bool → Nat → Option Delivery
  | [], _, _ => none
  | l :: ls, passed, esc =>
    match descOf s c l cls with
    | none => deliverSync s c cls free ls true esc
    | some d =>
      if (saveSet (getCore s c) l).valid ∧ free ≠ some l then deliverSync s c cls free ls passed l
      else some { level := l, desc := d, passed := passed, escFrom := esc }
/-- The levels from `t` up. -/
def levelsFrom (t : Nat) : List Nat := [1, 2, 3].filter (fun l => t ≤ l)

/-! ### Entry (R178, R179) -/

def spReg (c : Nat) : Nat := if isS c then 15 else 63
def spGroup (c : Nat) : Nat := if isS c then 0 else 3
def spOf (c : Nat) (x : Ctx) : Word := look 0 (spReg c) x.g
def setSp (c : Nat) (x : Ctx) (w : Word) : Ctx := setDirty { x with g := put (spReg c) w x.g } (spGroup c)

/-- A pending GD is loaded before g63 is read or written (R156, R180). -/
def loadSp (s : State) (c : Nat) : State :=
  let k := getCore s c
  if !isS c ∧ k.ctx.pendGroups.getLsbD 3 then
    let s1 := match k.task with | some t => if groupPoisoned s k.nodeHi 3 then nodeFail s c t else s | none => s
    updCore s1 c (fun k => { k with ctx := loadGroup s k.ctx k.nodeHi 3 })
  else s

/-- NIW_CAP of a cell. -/
def niwCap (s : State) (x : Nat) : Option Nat := (cellRec s.comp.live x).map (fun r => ru8 r 5)
/-- The cap of a window at a level (R179). -/
def capOf (s : State) (c l : Nat) : Option Nat :=
  if isS c ∨ !s.comp.isSealed then none
  else if l = 1 then (getCore s c).cell.bind (niwCap s)
  else
    let caps := ((cellsOf s.comp.live).filter (fun x => onCore s.comp.live x c)).filterMap (niwCap s)
    match caps with | [] => none | a :: t => some (t.foldl min a)
/-- Steps of the window that opens. -/
def windowOf' (s : State) (c l niw : Nat) : BitVec 10 :=
  BitVec.ofNat 10 (4 * (match capOf s c l with | some m => min niw m | none => niw))

/-- SYNDROME (R186). -/
def syndromeOf (e : Exc) (passed : Bool) (esc : Nat) : Word :=
  BitVec.ofNat 64 (at' e.detail.toNat 32 + at' e.fields.toNat 8 + at' (b2n passed) 4 + at' esc 2 + at' (b2n e.long) 1 + b2n e.slotB)

/-- Entry to a level by an exception (R178, R181): the save set, the level, the stack pointer, the window and the
handler. -/
def enterAt (s : State) (c : Nat) (e : Exc) (d : Delivery) : State :=
  let s1 := loadSp s c
  updCore s1 c (fun k0 =>
    let k := finishChk { k0 with ctx := drainFlights k0.ctx }
    let old := saveSet k d.level
    let synd := syndromeOf e d.passed d.escFrom
    let same : Bool := e.sameLevel && d.level = k.level.toNat
    let set : SaveSet := if same then { old with cls := BitVec.ofNat 64 e.cls, synd := synd, addr := e.addr }
      else { pc := e.pc, status := curStatus c k &&& 0xFFF000F, cls := BitVec.ofNat 64 e.cls, synd := synd, addr := e.addr, sp := spOf c k.ctx, valid := true, mprog := match k.ctx.mprog with | some m => (m.setWidth 17) ||| 0x10000 | none => 0 }
    let k1 := setSaveSet k d.level set
    let k2 := refetch (flushItt { k1 with
      ctx := { (setSp c k.ctx d.desc.sp) with rep := false, mprog := none, after := [], faults := [] }
      pre := none, exc := none, resv := none, level := BitVec.ofNat 2 d.level, pc := d.desc.handler
      window := windowOf' s1 c d.level d.desc.niw.toNat
      mode := if k.stepOne then .stopped else .run, stepOne := false }) d.desc.handler
    k2)

/-- A core locks up (R176). -/
def lockUp (s : State) (c : Nat) : State :=
  let k := getCore s c
  let s1 := updCore s c (fun k => { k with mode := .locked, resv := none, exc := none, pre := none, stopReq := false, stepOne := false })
  raise s1 { code := 0x0301, cls := if isS c then 3 else 2, source := coreSrc c 0, cell := coreCell k }

/-- A synchronous exception delivered: entered, or the core locks up. -/
def takeSync (s : State) (c : Nat) (e : Exc) : State :=
  let k := getCore s c
  let t := max (baseOn c e.base) k.level.toNat
  match deliverSync s c e.cls (if e.sameLevel then some k.level.toNat else none) (levelsFrom t) false 0 with
  | some d => enterAt s c e d
  | none => lockUp s c

/-- The level at which an asynchronous class is taken: its base, or the first level above whose table is sealed with a
valid descriptor (R177). -/
def asyncLevel (s : State) (c : Nat) (i : Irq) : Option (Nat × Desc) :=
  (levelsFrom (baseOn c i.base)).findSome? (fun l => (descOf s c l i.cls).map (fun d => (l, d)))

/-! ### Return (R180, R181) -/

/-- Why a return at a level fails. -/
def returnFails (x : SaveSet) (lvl : Nat) : Option Nat :=
  if !x.valid then some 1
  else if lvl < fld x.status 1 0 then some 2
  else if fld x.pc 2 0 ≠ 0 then some 3
  else none
/-- ILLEGAL_RETURN. -/
def returnExc (k : Core) (slotB long : Bool) (reason : Nat) : Exc :=
  let x := saveSet k k.level.toNat
  { cls := 0x0E, base := k.level.toNat, fields := BitVec.ofNat 24 (fld x.status 1 0 + 16 * reason), addr := k.pc, slotB := slotB, long := long, pc := k.pc, sameLevel := true }
/-- A return that passes its checks. A repeat flag with nothing left to perform resumes after the word (R132). -/
def doReturn (s : State) (c : Nat) : State :=
  let s1 := loadSp s c
  updCore s1 c (fun k =>
    let l := k.level.toNat
    let x := saveSet k l
    let rep := bit x.status 3
    let done : Bool := rep && k.ctx.rc = 0
    let pc := if done then x.pc + 8 else x.pc
    let k1 := setSaveSet k l { x with valid := false }
    refetch (flushItt { k1 with
      ctx := { (setSp c k.ctx x.sp) with rep := rep && !done, mprog := if x.mprog.getLsbD 16 then some (x.mprog.setWidth 16) else none }
      level := BitVec.ofNat 2 (fld x.status 1 0), pc := pc, window := 0 }) pc)

/-! ### Seal (R170 to R173, R488) -/

/-- A byte as a fabric read returns it: the boot ROM's code is the implementation's. -/
def busByte (s : State) (a : Nat) : Byte := if regionOf a = .rom then Config.romByte (a - 0xF0040000000) else rdByte s a
def busBytes (s : State) (a : Nat) : Nat → List Byte
  | 0 => []
  | n + 1 => busByte s a :: busBytes s (a + 1) n
/-- Does a plain read of an address by a core reach a memory that answers? The boot ROM and a pair's SRAM answer that pair
alone (R399, R478). Device registers and PCIe windows are no memory a table can lie in: that they count as not answering,
with no access made, is the model's choice (DESIGN CHOICE, assumption 69). -/
def answers (s : State) (c a : Nat) : Bool :=
  match regionOf a with
  | .hbm | .scratch _ => reaches s c a
  | .rom => isS c
  | .sram p => isS c && p == c - 128
  | _ => false

def dtbOf (k : Core) (l : Nat) : Word := match l with | 1 => k.dtb1 | 2 => k.dtb2 | _ => k.dtb3
/-- Is HANDLER executable at the level (R488)? -/
def handlerOk (s : State) (c l va : Nat) : Bool :=
  match probe s c l va .fetch with
  | .error _ => false
  | .ok (pa, _) => isS c || (match regionOf pa with | .hbm => true | .scratch _ => 2 ≤ l | _ => false)
/-- Are the 64 bytes below SP writable normal memory at the level? -/
def stackOk (s : State) (c l : Nat) (sp : Word) : Bool :=
  match probe s c l (sp - 64).toNat .store with
  | .error _ => false
  | .ok (_, mt) => mt ≠ 0

/-- The check that a descriptor fails, by CODE: its bytes at a physical address. -/
def descFails (s : State) (c l i pa : Nat) : Option Nat :=
  if !answers s c pa ∨ poisonedAt s pa 32 then some 2
  else
    let n := leNat (busBytes s pa 32)
    let hi := n / 2 ^ 128
    if !hi.testBit 2 then none
    else
      let h := BitVec.ofNat 64 n
      let sp := BitVec.ofNat 64 (n / 2 ^ 64)
      if hi / 8 % 32 ≠ 0 ∨ 2 ^ 16 ≤ hi ∨ hi % 4 ≠ l ∨ i = 0 ∨ (0x19 ≤ i ∧ i ≤ 0x3F) then some 3
      else if fld h 2 0 ≠ 0 ∨ !handlerOk s c l h.toNat then some 4
      else if fld sp 5 0 ≠ 0 then some 5
      else if !stackOk s c l sp then some 6
      else none
def descAt (s : State) (pa : Nat) : Option Desc :=
  let n := leNat (busBytes s pa 32)
  if n.testBit 130 then some { handler := BitVec.ofNat 64 n, sp := BitVec.ofNat 64 (n / 2 ^ 64), niw := BitVec.ofNat 8 (n / 2 ^ 136) } else none

/-- The descriptors from index `i` checked in order: the table, or the lowest failing CODE and INDEX. `room` is how many
entries the store still has. -/
def sealFrom (s : State) (c l : Nat) (page : Nat → Option Nat) : Nat → Nat → Nat → DescTable → Except (Nat × Nat) DescTable
  | 0, _, _, t => .ok t
  | n + 1, i, room, t =>
    match page (i / 128) with
    | none => .error (2, i)
    | some p =>
      let pa := p + 32 * (i % 128)
      match descFails s c l i pa with
      | some code => .error (code, i)
      | none =>
        match descAt s pa with
        | none => sealFrom s c l page n (i + 1) room t
        | some d => match room with
          | 0 => .error (7, i)
          | r + 1 => sealFrom s c l page n (i + 1) r (t ++ [(i, d)])

/-- T_SEAL of the table of level `l`: what SYS.Q takes, and the state with the new table where no check failed. An L1 table
belongs to the running cell and its cluster (R171): sealed on a core with no running cell it is checked and stored nowhere,
and SYS.Q reads 0 (DESIGN CHOICE, assumption 69). -/
def sealTable (s : State) (c l : Nat) : State × Word :=
  let k := getCore s c
  let b := dtbOf k l
  let page (i : Nat) : Option Nat := match probe s c l (b.toNat + 4096 * i) .load with | .ok (pa, _) => some pa | .error _ => none
  let old := ((tableOf s c l).map List.length).getD 0
  if fld b 12 0 ≠ 0 then (s, 1)
  else
    match sealFrom s c l page 256 0 (8192 - storeUsed s c + old) [] with
    | .error (code, i) => (s, BitVec.ofNat 64 (code + 256 * i))
    | .ok t =>
      (match l with
       | 1 => match k.cell with | some x => updCell s x (fun y => { y with tabs := put (cluOf c) t y.tabs }) | none => s
       | 2 => updCore s c (fun k => { k with tab2 := some t })
       | _ => updCore s c (fun k => { k with tab3 := some t }), 0)

end Sys2Proof.Machine
end

