-- ==== Sys2Proof/Machine/Lsu.lean ====
section
/-! DEFINITION. How the load and store unit checks, waits for and performs an access: alignment, translation, memory
type, the store buffer, the reservation and the device-read hold (R119 to R123, R130, R152 to R160, R239 to R257). -/
namespace Sys2Proof.Machine

/-- An LSU operation as its trigger left it: base, value moved, store data, EXT, slot and word form. -/
structure Lsu where
  op : LsuOp
  o : Word
  v : VWord
  p : VWord
  ext : BitVec 5
  slotB : Bool
  long : Bool

/-- What the unit answers: an exception, a wait, or completion with the value for Q and the address of poison. -/
inductive LsuRes where
  | exc (s : State) (e : Exc)
  | wait (s : State)
  | done (s : State) (q : Option (VWord × Option Word))

def Lsu.gathers (a : Lsu) : Bool := a.op = .gather
/-- Access size in bytes: SIZE, 32 for VARIANT 0b01, the lane size of a gather. -/
def Lsu.size (a : Lsu) : Nat :=
  if a.gathers then elemBits (a.ext.toNat % 8) / 8
  else if fld (a.ext.setWidth 64) 4 3 = 1 then 32 else 2 ^ (a.ext.toNat % 4)
def Lsu.vector (a : Lsu) : Bool := !a.gathers && fld (a.ext.setWidth 64) 4 3 == 1
def Lsu.noAlloc (a : Lsu) : Bool := !a.gathers && fld (a.ext.setWidth 64) 4 3 == 2
def Lsu.atomic (a : Lsu) : Bool := match a.op with | .lr | .sc | .swap | .fadd | .cas => true | _ => false
/-- Address of the access; of lane `i` of a gather. -/
def Lsu.addr (a : Lsu) (i : Nat) : Word :=
  match a.op with
  | .ldpi | .stpi | .swap | .fadd | .cas => a.o
  | .gather => a.o + BitVec.ofInt 64 (sgn (8 * a.size) ((lanes (8 * a.size) a.v).getD i 0) * a.size)
  | _ => a.o + lo64 a.v
def Lsu.kind (a : Lsu) : AKind := match a.op with | .st | .stpi | .sc => .store | .swap | .fadd | .cas => .rmw | _ => .load

/-- The aligned pieces of an access: one, or the two halves of a scalar that crosses an 8-byte boundary (R153). -/
def pieces (a : Word) (n : Nat) (vec : Bool) : List (Word × Nat) :=
  let k := 8 - a.toNat % 8
  if vec ∨ n ≤ k then [(a, n)] else [(a, k), (a + BitVec.ofNat 64 k, n - k)]

/-- A checked access: a failed check, a walk to make, or its pieces with physical address and memory type. -/
inductive Checked where
  | exc (e : Exc) (guard : Option Nat)
  | walk (va : Word)
  | ok (ps : List (Word × Nat × Nat × Nat))

/-- Translation of the pieces in order (R121 step 2, R153). -/
def checkPieces (s : State) (c : Nat) (a : Lsu) (dirty : Bool) (lane : Nat) : List (Word × Nat) → Bool → List (Word × Nat × Nat × Nat) → Checked
  | [], _, acc => .ok acc
  | (va, n) :: t, high, acc =>
    let k := getCore s c
    match lookup s c k.level.toNat va.toNat a.kind dirty with
    | .fault f =>
      let e := xExc f a.kind high a.slotB a.long k.pc va
      .exc { e with fields := e.fields ||| BitVec.ofNat 24 (lane * 4096) } f.guardPa
    | .miss => .walk va
    | .ok pa mt => checkPieces s c a dirty lane t true (acc ++ [(va, n, pa, mt)])

/-- The checks of R121 in order, for an access or a lane of a gather. -/
def checkAcc (s : State) (c : Nat) (a : Lsu) (dirty : Bool) (lane : Nat) : Checked :=
  let k := getCore s c
  let va := a.addr lane
  let n := a.size
  let exc (cls : Nat) (fields : Nat) : Checked :=
    .exc { cls := cls, base := 1, fields := BitVec.ofNat 24 (fields + 256 * b2n a.kind.writes + lane * 4096), addr := va, slotB := a.slotB, long := a.long, pc := k.pc } none
  if (a.vector ∨ a.atomic) ∧ va.toNat % n ≠ 0 then exc 0x08 4
  else
    match checkPieces s c a dirty lane (pieces va n a.vector) false [] with
    | .ok ps =>
      if ps.any (fun p => p.2.2.2 = 0) then
        if a.vector ∨ a.atomic ∨ a.gathers then exc 0x09 (2 * 16)
        else if va.toNat % n ≠ 0 then exc 0x08 8
        else .ok ps
      else .ok ps
    | r => r

/-! ### The store buffer (R247 to R249, R256) -/

def sbSize (c : Nat) : Nat := if isS c then 8 else 16
def sbOverlap (e : SbEntry) (pa n : Nat) : Bool := decide (e.pa < pa + n) && decide (pa < e.pa + e.data.length)
/-- What the buffer does for a normal load of some bytes. -/
inductive Fwd where
  | none | wait | bytes (d : List Byte)
/-- R248 and R249 for the bytes of a load; `never` for an access that is not forwarded. -/
def forward (k : Core) (pa n : Nat) (never : Bool) : Fwd :=
  let e := k.sbuf.filter (fun e => sbOverlap e pa n)
  match e.getLast? with
  | none => .none
  | some y =>
    if e.any (fun x => x.mt = 0 || x.cell != coreCell k) then .wait
    else if !never && y.pa ≤ pa && pa + n ≤ y.pa + y.data.length then .bytes ((y.data.drop (pa - y.pa)).take n)
    else .wait

/-- A blocked stream of the running cell on the core, as the exception of R255 reports it. -/
def blockedExc (k : Core) (stream : Option Nat) (slotB long : Bool) : Option Exc :=
  (k.blocked.find? (fun b => b.cell == coreCell k && (match stream with | some st => b.stream == st | none => true))).map (fun b =>
    { cls := if b.stream = 2 then 0x0B else 0x0C, base := 2, fields := BitVec.ofNat 24 (b.status.toNat + 16 * b.stream), addr := b.va, slotB := slotB, long := long, pc := k.pc })
/-- Is a stream of the running cell blocked on the core? -/
def streamBlocked (k : Core) (cell : Option CellId) (stream : Nat) : Bool := k.blocked.any (fun b => b.cell == cell && b.stream == stream)
/-- Entries that a blocked stream holds (R254). -/
def heldEntry (k : Core) (e : SbEntry) : Bool := !e.sent && ((e.mt = 0 && streamBlocked k e.cell 2) || (e.mt = 1 && streamBlocked k e.cell 1))

/-- Is a device access of a cell outstanding at a core (R240)? -/
def deviceOut (s : State) (c : Nat) (cell : Option CellId) : Bool :=
  let mine (t : Txn) : Bool := t.init == coreInit c && t.stream == 2 && t.cell == cell && (match t.purpose with | .load _ | .store _ | .hold _ _ _ _ => true | _ => false)
  s.fab.waiting.any mine || s.fab.txns.any (fun t => mine t && !t.late)

/-! ### An access answered with a failure (R75, R254, R330, R331) -/

/-- Writes that an initiator holds for a blocked stream are dropped: those of a core's store buffer, those at its source
port, and inbound PCIe writes. -/
def dropHeld (s : State) (i : InitId) (cell : Option CellId) (stream : BitVec 4) : State :=
  let gone (t : Txn) : Bool := t.init == i && t.stream == stream && t.cell == cell && t.kind = .write
  let s1 := { s with fab := { s.fab with waiting := s.fab.waiting.filter (fun t => !gone t) } }
  let s2 := match coreOfInit i with
    | some c => updCore s1 c (fun k => { k with sbuf := k.sbuf.filter (fun e => !(e.cell == cell && e.mt == (if stream = 2 then 0 else 1) && (!e.sent || s.fab.waiting.any (fun t => gone t && t.addr = e.pa && t.data == e.data)))) })
    | none => s1
  if i = netWriter then dropNetHeld s2 cell
  else if initEp i = 0x61 then
    { s2 with peri := { s2.peri with posted := s2.peri.posted.filter (fun p => !(p.write && p.tc = stream.toNat && some (BitVec.ofNat 12 p.cell) == cell && (p.txn.isNone || s.fab.waiting.any (fun t => gone t && some t.id == p.txn)))) } }
  else s2

/-- The writes of a core's blocked stream that its source port has not issued yet go back into the store buffer, which holds
them (R254). -/
def recallHeld (s : State) (c : Nat) (cell : Option CellId) (stream : BitVec 4) : State :=
  let mine (t : Txn) : Bool := t.init == coreInit c && t.stream == stream && t.cell == cell && decide (t.purpose = .store c)
  let ts := s.fab.waiting.filter mine
  updCore { s with fab := { s.fab with waiting := s.fab.waiting.filter (fun t => !mine t) } } c (fun k => { k with
    sbuf := k.sbuf.map (fun e => if e.sent && e.cell == cell && ts.any (fun t => t.addr ≤ e.pa && e.pa < t.addr + t.size) then { e with sent := false } else e) })

/-- A write answered with a failure: recorded, and its stream blocked; a core knows of it from now on. With no room in the
block table the later held writes are dropped. -/
def writeFailed (s : State) (i : InitId) (cell : Option CellId) (stream : BitVec 4) (st : BitVec 3) (pa va : Nat) : State :=
  let (s1, blocked) := failWrite s i stream cell st pa va (statusCode st) (BitVec.ofNat 16 i.toNat)
  if !blocked then dropHeld s1 i cell stream
  else match coreOfInit i, blockOf s1 i stream cell with
    | some c, some (e, _) =>
      updCore (recallHeld s1 c cell stream) c (fun k => if streamBlocked k cell stream.toNat then k else { k with blocked := k.blocked ++ [{ entry := e, stream := stream.toNat, cell := cell, status := st, va := BitVec.ofNat 64 va }] })
    | _, _ => s1

/-! ### Reading one piece -/

/-- A transaction issued for the waiting word: the core waits for its answer. -/
def issueFor (s : State) (c : Nat) (kind : TxnKind) (stream : BitVec 4) (pa n : Nat) (data : List Byte) (cmp : Word) (va : Word) : State :=
  let k := getCore s c
  let t : Txn := { init := coreInit c, level := k.level, cell := coreCell k, stream := stream, kind := kind, addr := pa, size := n, data := data, cmp := cmp, purpose := .load c, va := va }
  updCore (submit s t) c (fun k => { k with rdTxn := some { t with id := s.fab.nextId }, rdAns := none })

/-- The answer that has come for the waiting word, taken from the core. -/
def takeAns (s : State) (c : Nat) : Option (State × (BitVec 3 × List Byte)) :=
  let k := getCore s c
  match k.rdTxn, k.rdAns with
  | some _, some a => some (updCore s c (fun k => { k with rdTxn := none, rdAns := none, rdInv := false }), a)
  | _, _ => none

/-- What a piece gives. -/
inductive PieceRes where
  | exc (e : Exc)
  | wait (s : State)
  | done (s : State) (a : BitVec 3 × List Byte)

/-- A fill asked for: one that the cluster's L2 cannot answer, or that asks for ownership, is a read of the line on stream 0
(R239); an S-core's line lies in its pair's own SRAM. -/
def askFill (s : State) (c : Nat) (f : Fill) : State :=
  if (getCore s c).fills.any (fun x => x.line = f.line && x.fetch = f.fetch) then s
  else if isS c ∨ (!f.excl ∧ !f.na ∧ hasL2 s (cluOf c) f.line) then updCore s c (fun k => { k with fills := k.fills ++ [f] })
  else
    let t : Txn := { init := coreInit c, level := (getCore s c).level, cell := f.cell, stream := 0, kind := if f.fetch then .fetch else .read, addr := 64 * f.line, size := 64, purpose := .fill c f.fetch false }
    updCore (submit s t) c (fun k => { k with fills := k.fills ++ [{ f with txn := some s.fab.nextId }] })
/-- A fill of an L1 data line started. -/
def startFill (s : State) (c : Nat) (cell : Option CellId) (line : Nat) (excl : Bool) : State :=
  askFill s c { line := line, excl := excl, cell := cell }
/-- The answer of a data line's fill that could not put the line into L1: what failed, or OK where no cache could hold it. -/
def failedFill (k : Core) (line : Nat) : Option (BitVec 3 × List Byte) :=
  (k.fills.find? (fun f => f.line = line && !f.fetch && f.failed.isSome)).bind (fun f => f.failed)
def hasLine (k : Core) (line : Nat) : Bool := k.l1d.any (fun l => l.line = line)
def hasExcl (k : Core) (line : Nat) : Bool := k.l1d.any (fun l => l.line = line && l.excl)

/-- An early fill's line installed by an ordinary coherent fill; the buffered copy is discarded (R163). -/
def installSpec (s : State) (c line : Nat) : State :=
  fillLine (updCore s c (fun k => { k with spec := k.spec.filter (fun l => l.line ≠ line || l.fetch) })) c (coreCell (getCore s c)) line false
/-- A line of a load present in L1, or brought in from the speculative fill buffer (R163). -/
def presentLine (s : State) (c line : Nat) : Option State :=
  let k := getCore s c
  if hasLine k line then some (l1Install s c line false)
  else if k.spec.any (fun l => l.line = line && l.arrived && !l.fetch) then
    (let s1 := installSpec s c line; if hasLine (getCore s1 c) line then some s1 else none)
  else none

/-- One piece of a load read: from the buffer, L1, the home slice, NORMAL_NC memory, a device or the hold (R152, R158,
R248, R255). -/
def readPiece (s : State) (c : Nat) (a : Lsu) (va : Word) (n pa mt0 : Nat) : PieceRes :=
  let k := getCore s c
  let mt := effType c pa mt0
  if mt = 0 then
    match takeAns s c with
    | some (s1, r) => .done s1 r
    | none =>
      if k.rdTxn.isSome then .wait s
      else
        let hit : Bool := match k.hold with
          | some h => h.cell == k.cell.getD 0 && h.tcb == k.task.getD 0 && h.pc == k.pc && h.va == va && h.size == sizeCode n
          | none => false
        if hit then
          match k.hold.bind (·.answer) with
          | some r => .done (updCore s c (fun k => { k with hold := none })) (r.1, natLe n r.2.toNat)
          | none => .wait s
        else
          match blockedExc k (some 2) a.slotB a.long with
          | some e => .exc e
          | none =>
            if deviceOut s c (coreCell k) ∨ k.sbuf.any (fun e => e.mt = 0 && e.cell == coreCell k) then .wait s
            else .wait (issueFor s c .read 2 pa n [] 0 va)
  else
    match takeAns s c with
    | some (s1, r) => .done s1 r
    | none =>
      if k.rdTxn.isSome then .wait s
      else
        match (if mt = 1 then blockedExc k (some 1) a.slotB a.long else none) with
        | some e => .exc e
        | none =>
          match forward k pa n (a.op = .lr) with
          | .bytes d => .done s (stOK, d)
          | .wait => .wait s
          | .none =>
            if mt = 1 then .wait (issueFor s c (if a.op = .lr then .lr else .read) 1 pa n [] 0 va)
            else
              match presentLine s c (pa / 64), failedFill k (pa / 64) with
              | some s1, _ => .done s1 (if poisonedAt s1 pa n then stPOISON else stOK, rdBytes s1 pa n)
              | none, some (st, d) =>
                if st = stOK then .done s (if poisonedAt s pa n then stPOISON else stOK, rdBytes s pa n) else .done s (st, (d.drop (pa % 64)).take n)
              | none, none =>
                if allocL1 s c (coreCell k) pa mt a.noAlloc then .wait (startFill s c (coreCell k) (pa / 64) false)
                else .wait (issueFor s c (if a.op = .lr then .lr else .read) 0 pa n [] 0 va)

/-- The pieces of a load not yet read are read in turn; what has been read stands in `rdParts`. A piece read from a line is
not kept while a later one still waits for its own: both lines are present when a split load is accepted (R152, R154). -/
def readPieces (s : State) (c : Nat) (a : Lsu) : List (Word × Nat × Nat × Nat) → PieceRes
  | [] => .done s (stOK, [])
  | (va, n, pa, mt) :: t =>
    match readPiece s c a va n pa mt with
    | .done s1 r =>
      match readPieces (updCore s1 c (fun k => { k with rdParts := k.rdParts ++ [r] })) c a t with
      | .wait s2 =>
        if 2 ≤ effType c pa mt ∧ (getCore s c).rdTxn.isNone ∧ (getCore s2 c).rdTxn.isNone then .wait (updCore s2 c (fun k => { k with rdParts := (getCore s c).rdParts }))
        else .wait s2
      | x => x
    | r => r

/-- The value of a load from its bytes: sign- or zero-extended (R119). -/
def loadVal (a : Lsu) (d : List Byte) : VWord :=
  let n := a.size
  let x := leNat d
  if a.ext.getLsbD 2 ∧ !a.gathers ∧ n < 8 ∧ x / 2 ^ (8 * n - 1) % 2 = 1 then BitVec.ofNat 256 (x + 2 ^ 64 - 2 ^ (8 * n)) else BitVec.ofNat 256 x

/-- Does any part carry poison or a failed status (R257)? -/
def partsPoison (ps : List (BitVec 3 × List Byte)) : Bool := ps.any (fun p => p.1 ≠ stOK)

/-- A walk asked for: the word waits for it. -/
def askWalk (s : State) (c : Nat) (va : Word) (write : Bool) : State :=
  updCore s c (fun k => if k.walk.isSome then k else { k with walk := some { va := va, fetch := false, write := write } })

/-- Lanes of a gather. -/
def Lsu.laneCount (a : Lsu) : Nat := if a.gathers then 32 / a.size else 1

/-- The loads of an access, lane by lane from lane `i`: each lane is checked whole before a piece of it is read. -/
def loadLanes (s : State) (c : Nat) (a : Lsu) : Nat → Nat → Nat → LsuRes
  | 0, _, _ => .done s none
  | n + 1, i, before =>
    match checkAcc s c a false (if a.gathers then i else 0) with
    | .exc e g => .exc (recordGuard s c g) e
    | .walk va => .wait (askWalk s c va false)
    | .ok ps =>
      match readPieces s c a (ps.drop ((getCore s c).rdParts.length - before)) with
      | .exc e => .exc s { e with slotB := a.slotB }
      | .wait s1 => .wait s1
      | .done s1 _ => loadLanes s1 c a n (i + 1) (before + ps.length)

/-- A load, T_LDPI, T_LR or gather: completes when every piece is read. -/
def doLoad (s : State) (c : Nat) (a : Lsu) : LsuRes :=
  match loadLanes s c a a.laneCount 0 0 with
  | .done s1 _ =>
    let k := getCore s1 c
    let d := k.rdParts.flatMap (·.2)
    let bad : Option Word := if partsPoison k.rdParts then some (a.addr 0) else none
    let pa : Nat := match checkAcc s1 c a false 0 with | .ok ((_, _, pa, _) :: _) => pa | _ => 0
    let s2 := updCore s1 c (fun k => { k with rdParts := [], resv := if a.op = .lr then some { line := pa / 64, size := a.size, scratch := !hasLine k (pa / 64) } else k.resv })
    .done s2 (some (loadVal a d, bad))
  | r => r

/-! ### Stores -/

/-- A store accepted into the buffer (R152, R155, R247, R256): one entry, or the linked pair of a split store. -/
def doStore (s : State) (c : Nat) (a : Lsu) : LsuRes :=
  -- every check is made before an entry's DIRTY is set (R153, R227)
  match checkAcc s c a false 0 with
  | .exc e g => .exc (recordGuard s c g) e
  | .walk va => .wait (askWalk s c va false)
  | .ok _ =>
  match checkAcc s c a true 0 with
  | .exc e g => .exc (recordGuard s c g) e
  | .walk va => .wait (askWalk s c va true)
  | .ok ps =>
    let k := getCore s c
    let cell := coreCell k
    let entry (va : Word) (n pa mt skip : Nat) (first : Bool) : SbEntry :=
      { cell := cell, level := k.level, mt := effType c pa mt, va := va, pa := pa, data := ((natLe a.size a.p.toNat).drop skip).take n, linked := first, fresh := true, barrier := k.sfence.contains cell, noAlloc := a.noAlloc }
    let es : List SbEntry := match ps with
      | [(va, n, pa, mt)] => [entry va n pa mt 0 false]
      | [(va, n, pa, mt), (vb, m, pb, mu)] => [entry va n pa mt 0 true, entry vb m pb mu n false]
      | _ => []
    let held := (k.sbuf.filter (fun e => e.cell == cell && heldEntry k e)).length
    if sbSize c < k.sbuf.length + es.length ∨ (es.any (fun e => e.mt ≤ 1) ∧ 4 ≤ held) then .wait s
    else .done (updCore s c (fun k => { k with sbuf := k.sbuf ++ es, sfence := k.sfence.filter (fun x => x ≠ cell) })) none

/-! ### Atomics and store-conditional (R122, R123, R246) -/

def Lsu.reqKind (a : Lsu) : ReqKind := match a.op with | .swap => .swap | .fadd => .fadd | .cas => .cas | .lr => .lr | _ => .sc
def Lsu.txnKind (a : Lsu) : TxnKind := match a.op with | .swap => .swap | .fadd => .fadd | .cas => .cas | .lr => .lr | _ => .sc
/-- The value an atomic writes, and the one T_CAS compares with. -/
def Lsu.operand (a : Lsu) : Word := match a.op with | .cas | .sc => lo64 a.p | _ => lo64 a.v
def Lsu.compare (a : Lsu) : Word := if a.op = .cas then lo64 a.v else 0

/-- Does the reservation let a T_SC go ahead? -/
def resvHolds (k : Core) (pa n : Nat) : Bool := match k.resv with | some r => r.line = pa / 64 && r.size = n | none => false

/-- A write in L1 with the line held exclusively: the line is dirty. -/
def writeL1 (s : State) (c pa : Nat) (bs : List Byte) : State :=
  updCore (performBy s c pa bs) c (fun k => { k with l1d := k.l1d.map (fun l => if l.line = pa / 64 then { l with dirty := true } else l) })

/-- Does a store of the running cell before its last FENCE.S still stand in the buffer (R250)? -/
def fencedStores (k : Core) : Bool :=
  let mine := k.sbuf.filter (fun e => e.cell == coreCell k)
  if k.sfence.contains (coreCell k) then !mine.isEmpty
  else (List.range mine.length).any (fun j => 0 < j && ((mine.drop j).head?.map (fun x => x.barrier)).getD false)

/-- T_SC, T_SWAP, T_FADD and T_CAS. -/
def doAtomic (s : State) (c : Nat) (a : Lsu) : LsuRes :=
  -- a T_SC that fails sets no DIRTY
  let n := a.size
  match checkAcc s c a false 0 with
  | .exc e g => .exc (recordGuard s c g) e
  | .walk va => .wait (askWalk s c va false)
  | .ok ps =>
    let k := getCore s c
    let pa : Nat := match ps with | (_, _, pa, _) :: _ => pa | [] => 0
    let mt : Nat := effType c pa (match ps with | (_, _, _, mt) :: _ => mt | [] => 1)
    let done (s : State) (q : Nat) (bad : Bool) : LsuRes :=
      .done (if a.op = .sc then updCore s c (fun k => { k with resv := none }) else s) (some (BitVec.ofNat 256 q, if bad then some (a.addr 0) else none))
    match takeAns s c with
    | some (s1, r) => done s1 (leNat r.2) (r.1 ≠ stOK)
    | none =>
      if k.rdTxn.isSome then .wait s
      else if a.op = .sc ∧ !resvHolds k pa n then done s 1 false
      else
        match lookup s c k.level.toNat (a.addr 0).toNat a.kind true with
        | .miss => .wait (askWalk s c (a.addr 0) true)
        | _ =>
          let home : Bool := (failedFill k (pa / 64)).any (fun f => f.1 == stOK)
          match (if mt = 1 then blockedExc k (some 1) a.slotB a.long else none) with
          | some e => .exc s e
          | none =>
          if k.sbuf.any (fun e => sbOverlap e pa n) ∨ fencedStores k then .wait s
          else if mt = 1 ∨ (!hasLine k (pa / 64) && (home || !allocL1 s c (coreCell k) pa mt false)) = true then
            .wait (issueFor s c a.txnKind (if mt = 1 then 1 else 0) pa n (natLe n a.operand.toNat) a.compare (a.addr 0))
          else if pageLocked s pa n then done (readFailed s (coreInit c) (coreCell k) 0 stDECODE pa) 0 true
          else if !hasExcl k (pa / 64) then
            (match failedFill k (pa / 64) with
             | some _ => done s 0 true
             | none => .wait (startFill s c (coreCell k) (pa / 64) true))
          else
            let old := rdBytes s pa n
            let s1 := l1Install s c (pa / 64) true
            if a.op = .sc then done (writeL1 s1 c pa (natLe n a.operand.toNat)) 0 false
            else
              let new := atomicNew a.reqKind n old (natLe n a.operand.toNat) a.compare
              done (if a.op = .cas ∧ leNat old ≠ a.compare.toNat % 2 ^ (8 * n) then s1 else writeL1 s1 c pa new) (leNat old) (poisonedAt s pa n)

/-- The access of an LSU trigger at the end of its word (R121, R152). -/
def runLsu (s : State) (c : Nat) (a : Lsu) : LsuRes :=
  match a.op with
  | .ld | .ldpi | .lr | .gather => doLoad s c a
  | .st | .stpi => doStore s c a
  | .sc | .swap | .fadd | .cas => doAtomic s c a

/-- The core after an accepted access: Q takes its result through the port's interlock, and a post-increment moves O. -/
def afterLsu (k : Core) (a : Lsu) (q : Option (VWord × Option Word)) : Core :=
  let x := k.ctx
  let x1 := match a.op with
    | .ldpi | .stpi => setPort x 224 (wide (a.o + lo64 a.v))
    | _ => x
  let x2 := match q with
    | some (v, bad) => { x1 with flights := x1.flights ++ [{ unit := if a.gathers then 304 else 224, q := v, poison := bad }] }
    | none => x1
  { k with ctx := x2 }

/-! ### The buffer drains (R240, R241, R247, R254) -/

/-- May entry `i` of a core's buffer drain: no older entry that it overlaps, no order that a barrier set before it, no older
device entry or linked half of its cell, no older entry released with it; and its stream is not blocked. -/
def mayDrain (s : State) (c i : Nat) : Bool :=
  let k := getCore s c
  match k.sbuf.drop i with
  | [] => false
  | e :: _ =>
    let older := k.sbuf.take i
    let same (x : SbEntry) : Bool := x.cell == e.cell
    !e.sent && !e.fresh && !heldEntry k e &&
    !(older.any (fun x => sbOverlap x e.pa e.data.length)) &&
    -- a FENCE.S between two entries of the cell: the earlier is performed first
    !((List.range (i + 1)).any (fun j => ((k.sbuf.drop j).head?.map (fun x => x.barrier && same x)).getD false && (k.sbuf.take j).any same)) &&
    !(e.released && older.any (fun x => x.released && !x.sent && same x && x.mt = e.mt)) &&
    !((older.getLast?.map (fun x => x.linked && (x.pa / 64 != e.pa / 64 || !x.sent))).getD false) &&
    (e.mt ≠ 0 || (!(older.any (fun x => x.mt = 0 && same x)) && !deviceOut s c e.cell))

/-- An entry leaves the buffer. -/
def removeEntry (k : Core) (i : Nat) : Core := { k with sbuf := k.sbuf.take i ++ k.sbuf.drop (i + 1) }

/-- `n` entries of the buffer from `i` leave it, or are marked as sent. -/
def removeEntries (k : Core) (i n : Nat) : Core := { k with sbuf := k.sbuf.take i ++ k.sbuf.drop (i + n) }
def markSent (k : Core) (i n : Nat) : Core :=
  { k with sbuf := k.sbuf.take i ++ ((k.sbuf.drop i).take n).map (fun e => { e with sent := true }) ++ k.sbuf.drop (i + n) }

/-- The write of `n` entries from `i`, whose first is `e` and whose bytes are `d`, sent on a stream: 2 for a device, 1 for
NORMAL_NC, and 0 for a write-back line that L1 does not take, which is written at its home slice (DESIGN CHOICE, assumption
65: R262 against R241). -/
def sendEntries (s : State) (c i n : Nat) (e : SbEntry) (d : List Byte) : State :=
  let t : Txn := { init := coreInit c, level := e.level, cell := e.cell, stream := if e.mt = 0 then 2 else if e.mt = 1 then 1 else 0, kind := .write, addr := e.pa, size := d.length, data := d, purpose := .store c, va := e.va }
  updCore (submit s t) c (fun k => markSent k i n)

/-- Normal cached entries drain into their line, or ask for it; one that allocates nowhere goes to its home slice. A store
whose line's fill fails has failed. -/
def drainCached (s : State) (c i n : Nat) (e : SbEntry) (d : List Byte) : State :=
  let line := e.pa / 64
  let k := getCore s c
  let fails (st : BitVec 3) : State :=
    writeFailed (updCore s c (fun k => let x := removeEntries k i n; { x with fills := x.fills.filter (fun f => f.fetch || f.failed.isNone || f.line ≠ line) })) (coreInit c) e.cell 1 st e.pa e.va.toNat
  if pageLocked s e.pa d.length then fails stDECODE
  else if hasExcl k line then updCore (writeL1 (l1Install s c line true) c e.pa d) c (fun k => removeEntries k i n)
  else
    match failedFill k line with
    | some (st, _) => if st = stOK then sendEntries s c i n e d else fails st
    | none => if hasLine k line ∨ allocL1 s c e.cell e.pa e.mt e.noAlloc then startFill s c e.cell line true else sendEntries s c i n e d

/-- An entry of a core's store buffer drains (R247): a device or NORMAL_NC store is sent on its stream. Both halves of a
split store in one line drain as one write, once neither overlaps an older entry (R155, R243). -/
def drainEntry (s : State) (c i : Nat) : State :=
  let k := getCore s c
  if !mayDrain s c i then s
  else match k.sbuf.drop i with
    | [] => s
    | e :: rest =>
      let pair : Option SbEntry := match e.linked, rest with
        | true, f :: _ => if f.pa / 64 = e.pa / 64 ∧ f.mt = e.mt ∧ 1 ≤ e.mt then some f else none
        | _, _ => none
      match pair with
      | some f =>
        if (k.sbuf.take i).any (fun x => sbOverlap x f.pa f.data.length) then s
        else if e.mt = 1 then sendEntries s c i 2 e (e.data ++ f.data)
        else drainCached s c i 2 e (e.data ++ f.data)
      | none => if e.mt ≤ 1 then sendEntries s c i 1 e e.data else drainCached s c i 1 e e.data

/-- STORE_BUFFER_DRAIN. -/
def execStoreBufferDrain (c : CoreId) (i : Nat) (s : State) : Host.Outcome State Fault Refusal := .next (drainEntry s c.val i)

end Sys2Proof.Machine
end

