-- ==== Sys2Proof/Machine/Fetch.lean ====
section
/-! DEFINITION. Fetch and decode of words: the decode checks, branch prediction, the early lookup, and the arrival of
instruction lines (R93 to R104, R113, R133, R142 to R151, R161 to R166). -/
namespace Sys2Proof.Machine

/-! ### The checks of one slot (R93, R96, R98, R113, R120, R128) -/

/-- Compare triggers of the two ALUs and of the FPU. -/
def aluCompare (a : Nat) : Bool :=
  (132 ≤ a && a ≤ 137) || a == 140 || (164 ≤ a && a ≤ 169) || a == 172
def fpuCompare (a : Nat) : Bool := 292 ≤ a && a ≤ 295
/-- Branch triggers of the BRU. -/
def branchTrig (a : Nat) : Bool := 264 ≤ a && a ≤ 268
/-- The ELEM values of a VEC trigger. -/
def elemOk (a e : Nat) : Bool :=
  if a = 316 then e ≤ 1 else if a = 317 then e = 0 else if a = 325 then e = 2 || e = 3 else e ≤ 5

/-- REASON of an EXT value that its trigger does not permit: 0x8 before 0x7 (R120). -/
def extReason (small : Bool) (dst ext : Nat) : Option Nat :=
  let size := ext % 4
  let sx : Bool := ext / 4 % 2 = 1
  let var := ext / 8
  if 232 ≤ dst ∧ dst ≤ 240 then
    let atomic : Bool := 236 ≤ dst
    if var = 3 ∨ (var = 1 ∧ (atomic ∨ size ≠ 3 ∨ sx ∨ small)) ∨ (atomic ∧ (size < 2 ∨ var ≠ 0)) then some 8
    else if sx ∧ (dst = 233 ∨ dst = 235 ∨ atomic ∨ size = 3) then some 7
    else none
  else if 312 ≤ dst ∧ dst ≤ 325 then
    (if !elemOk dst (ext % 8) then some 8 else if var ≠ 0 then some 7 else none)
  else if branchTrig dst then (if 2 ≤ ext then some 7 else none)
  else if aluCompare dst then (if var ≠ 0 then some 7 else none)
  else if fpuCompare dst then (if 16 ≤ ext then some 7 else none)
  else if 280 ≤ dst ∧ dst ≤ 290 then (if 2 ≤ ext then some 7 else none)
  else if ext = 0 then none else some 7

/-- REASON and ADDR of an illegal address or EXT value of a move. -/
def portReason (small imm : Bool) (src dst ext : Nat) : Option (Nat × Nat) :=
  if !legalDst small dst then some (6, dst)
  else if !imm && !legalSrc small src then some (6, src)
  else (extReason small dst ext).map (fun r => (r, 0))

/-- Required level and ADDR of a move that names a port above a level (R113). -/
def portPriv (lvl : Nat) (imm : Bool) (src dst : Nat) : Option (Nat × Nat) :=
  if lvl < portLevel dst then some (portLevel dst, dst)
  else if !imm && lvl < portLevel src then some (portLevel src, src)
  else none

/-- An exception that decode decides. -/
def decExc (cls fields : Nat) (slotB long : Bool) (pc : Word) : Exc :=
  { cls := cls, base := 1, fields := BitVec.ofNat 24 fields, addr := pc, slotB := slotB, long := long, pc := pc }

/-- REASON and ADDR of an illegal slot of a word (R94, R95, R98). -/
def slotReason (small : Bool) (w : Word) (sl : SlotBits) : Option (Nat × Nat) :=
  let long := !bit w 63
  if long ∧ bit w 37 then some (2, 0)
  else if !long ∧ !sl.imm ∧ 512 ≤ sl.src then some (3, 0)
  else if long ∧ (if sl.imm then sl.src ≠ 0 else (fld w 39 38 ≠ 0 ∨ fld w 31 0 ≠ 0)) then some (4, 0)
  else if long ∧ fld w 39 38 = 3 then some (5, 0)
  else portReason small sl.imm sl.src sl.dst sl.ext

/-! ### The checks of a word (R103, R133) -/

/-- The units that a trigger port starts: T_LOOP counts as a trigger of the BRU too, T_VGATHER as one of the LSU (R130,
R135). -/
def trigUnits (a : Nat) : List Nat :=
  if !isTrigger a then [] else if a = 325 then [304, 224] else if a = 341 then [336, 256] else [unitOf a]
/-- The predicate that a compare trigger's PTARGET names, 0 for none. -/
def ptarget (dst ext : Nat) : Nat := if aluCompare dst then ext % 8 else if fpuCompare dst then ext / 2 % 8 else 0
/-- The predicates a slot writes. -/
def predsOf (sl : SlotBits) : List Nat :=
  if sl.dst = 96 then [1, 2, 3, 4, 5, 6, 7] else if 97 ≤ sl.dst ∧ sl.dst ≤ 103 then [sl.dst - 96]
  else if ptarget sl.dst sl.ext = 0 then [] else [ptarget sl.dst sl.ext]
def isPred (a : Nat) : Bool := 97 ≤ a && a ≤ 103

/-- REASON of a pair hazard. -/
def pairReason (a b : SlotBits) : Option Nat :=
  if a.guard = 8 ∨ b.guard = 8 then none
  else if a.dst = b.dst then some 1
  else if (a.dst = 96 ∧ isPred b.dst) ∨ (b.dst = 96 ∧ isPred a.dst) then some 2
  else if (trigUnits a.dst).any (fun u => (trigUnits b.dst).contains u) then some 3
  else if (predsOf a).any (fun p => (predsOf b).contains p) then some 4
  else none

/-- Changes of flow, and what a repeated word must not hold (R133). -/
def flowTrig (a : Nat) : Bool := branchTrig a || a == 341 || (390 ≤ a && a ≤ 393) || a == 397
def repForbidden (a : Nat) : Bool := flowTrig a || a == 336 || a == 340 || a == 344

/-- The exception that the decode of a word decides (R104): ILLEGAL_WORD, PAIR_HAZARD, REPEAT_HAZARD, PRIV_MOVE, and
within a check slot A before slot B. -/
def decodeExc (small : Bool) (lvl : Nat) (inRep : Bool) (w pc : Word) : Option Exc :=
  let long := !bit w 63
  let sls := slotsOf w
  let ill : Option Exc :=
    if !long ∧ bit w 0 then some (decExc 0x01 1 false false pc)
    else sls.findSome? (fun sl => (slotReason small w sl).map (fun r => decExc 0x01 (r.1 + 256 * r.2) sl.slotB long pc))
  let pair : Option Exc :=
    match sls with
    | [a, b] => (pairReason a b).map (fun r => decExc 0x02 r true false pc)
    | _ => none
  let rep : Option Exc :=
    match (if inRep then sls.find? (fun sl => repForbidden sl.dst) else none) with
    | some sl => some (decExc 0x03 0 sl.slotB long pc)
    | none =>
      if sls.any (fun sl => sl.dst = 340) then (sls.find? (fun sl => flowTrig sl.dst)).map (fun sl => decExc 0x03 1 sl.slotB long pc)
      else none
  let priv : Option Exc :=
    sls.findSome? (fun sl => (portPriv lvl sl.imm sl.src sl.dst).map (fun r => decExc 0x04 (r.1 + 256 * r.2) sl.slotB long pc))
  ill.orElse (fun _ => pair.orElse (fun _ => rep.orElse (fun _ => priv)))

/-! ### Prediction (R146 to R150) -/

/-- INDEX of the indirect-target table from the history. -/
def ittIndexOf (hist : List Word) : Nat :=
  ((List.range 8).map (fun i =>
    let x := fld (hist.getD i 0) 12 3
    (x <<< i ||| x >>> (10 - i)) % 1024)).foldl (fun a b => a ^^^ b) 0
/-- TAG of a branch word. -/
def ittTag (pc : Word) : Nat := fld pc 22 13
/-- Entries of the return stack. -/
def rsSize (c : Nat) : Nat := if isS c then 8 else 16

/-- What decode predicts of a word: the next word (`none` for a taken branch without a target), whether a branch is taken,
the INDEX of its lookup, and the return stack after it. -/
structure Predicted where
  next : Option Word
  taken : Bool := false
  index : Option Nat := none
  rs : List Word

/-- The value of a slot's source as decode can know it. -/
def slotVal (c : Nat) (k : Core) (w : Word) (sl : SlotBits) : Word := if sl.imm then immOf w sl else lo64 (readAddr c k k.ctx sl.src)
/-- The slot that holds a word's branch trigger or T_LOOP; one with GUARD 8 is predicted not taken (R146). -/
def branchSlot (w : Word) : Option SlotBits := (slotsOf w).find? (fun sl => sl.guard ≠ 8 && (branchTrig sl.dst || sl.dst = 341))

def predict (c : Nat) (k : Core) (w pc : Word) : Predicted :=
  let seq : Predicted := { next := some (pc + 8), rs := k.retStack }
  match branchSlot w with
  | none => seq
  | some sl =>
    if sl.dst = 341 then
      (if guardTrue k.ctx (BitVec.ofNat 4 sl.guard) ∧ 2 ≤ k.ctx.rc.toNat then { next := some (pc + slotVal c k w sl), taken := true, rs := k.retStack } else seq)
    else if sl.dst = 268 then
      (if sl.ext % 2 = 0 then seq else { next := k.retStack.head?, taken := true, rs := k.retStack.drop 1 })
    else
      let push : List Word := if sl.dst = 266 ∨ sl.dst = 267 then ((pc + 8) :: k.retStack).take (rsSize c) else k.retStack
      -- the lookup of an indirect branch gives its INDEX, whatever its HINT
      let i := ittIndexOf k.hist
      let index : Option Nat := if sl.imm ∨ isS c then none else some i
      if sl.ext % 2 = 0 then { seq with index := index }
      else if sl.imm then
        { next := some (if sl.dst = 264 ∨ sl.dst = 266 then pc + immOf w sl else immOf w sl), taken := true, rs := push }
      else
        let hit : Option Word := if isS c then none else
          match k.itt.find? (fun e => e.1 = i) with
          | some (_, t, x) => if t = ittTag pc then some x else none
          | none => none
        { next := hit, taken := true, index := index, rs := push }
/-- Does decode know what a T_LOOP needs? Every earlier word has been transported, and no result that its guard or its source
waits for is in flight, so that it is never mispredicted (R147). -/
def loopReady (k : Core) (w : Word) : Bool :=
  match branchSlot w with
  | some sl =>
    sl.dst ≠ 341 || (k.dq.isEmpty && k.pre.isNone &&
      (unitsGuard k.ctx sl.guard ++ (if sl.imm then [] else unitsRead k.ctx sl.src)).all (fun u => inFlight k.ctx u = 0))
  | none => true

/-! ### Fetch (R142, R144, R145, R161 to R164) -/

/-- May the core fetch and decode ahead? -/
def fetches (k : Core) : Bool := match k.mode with | .run | .waitLsu | .waitLong | .waitFence => k.exc.isNone | _ => false
/-- The address of the next word to decode; `none` while a taken branch without a target is unresolved, or an exception ends
the path. -/
def nextDecode (k : Core) : Option Word :=
  match k.dq.getLast? with
  | none => some k.pc
  | some d => if d.exc.isSome then none else d.pred
/-- The prefetch queue, emptied where it does not hold the path that decode follows. -/
def trimQueue (k : Core) : Core :=
  match k.fq with
  | [] => k
  | f :: _ => if nextDecode k = some f.addr then k else { k with fq := [] }
/-- The address of the next word to fetch. -/
def nextFetch (k : Core) : Option Word :=
  match k.fq.getLast? with
  | none => nextDecode k
  | some f => if f.exc.isSome then none else some (f.addr + 8)
/-- Is the next word fetched certain to be the next one performed? -/
def onPath (k : Core) : Bool := k.dq.isEmpty && k.fq.isEmpty

/-- Lines of the speculative fill buffer (R162). -/
def specSize (c : Nat) : Nat := if isS c then 4 else 16
/-- An early fill started for a word, if the buffer has room: a read on stream 13, unless the cluster's L2 answers it. -/
def startSpec (s : State) (c : Nat) (cell : Option CellId) (line : Nat) (fetch : Bool) (pc : Word) : State :=
  let k := getCore s c
  if specSize c ≤ k.spec.length ∨ k.spec.any (fun l => l.line = line && l.fetch = fetch) then s
  else if isS c ∨ hasL2 s (cluOf c) line then setCore s c { k with spec := k.spec ++ [{ line := line, fetch := fetch, pc := pc }] }
  else
    let t : Txn := { init := coreInit c, level := k.level, cell := cell, stream := 13, kind := if fetch then .fetch else .read, addr := 64 * line, size := 64, purpose := .fill c fetch true }
    updCore (submit s t) c (fun k => { k with spec := k.spec ++ [{ line := line, fetch := fetch, pc := pc, txn := some s.fab.nextId }] })

/-- The early lookup of a load whose base and offset decode knows (R162). -/
def earlyLookup (s : State) (c : Nat) (w pc : Word) : State :=
  let k := getCore s c
  match (slotsOf w).find? (fun sl => sl.dst = 232 && sl.imm && sl.guard ≠ 8) with
  | none => s
  | some sl =>
    if !k.dq.isEmpty ∨ k.pre.isSome ∨ (slotsOf w).any (fun x => x.dst = 224) then s
    else
      let va := lo64 (portVal k.ctx 224) + immOf w sl
      match lookup s c k.level.toNat va.toNat .load false with
      | .ok pa mt => if 2 ≤ effType c pa mt ∧ !hasLine k (pa / 64) ∧ allocL1 s c (coreCell k) pa mt (sl.ext / 8 = 2) then startSpec s c (coreCell k) (pa / 64) false pc else s
      | _ => s

/-- What a fetch group's read gives: its bytes, a failure on the path performed, or a wait. -/
inductive GroupRes where
  | words (s : State) (bs : List Byte)
  | bad (s : State)
  | wait (s : State)

/-- `n` bytes of a fetch group read: straight from a memory that is not cached; from their line in L1, which becomes the most
recently used; from a line that came early, or past the caches; or a fill is asked for (R144, R145, R161, R164). A fetch
that fails records nothing before its word is the next one performed. -/
def readGroup (s : State) (c pa mt n : Nat) : GroupRes :=
  let k := getCore s c
  let line := pa / 64
  let cut (bs : List Byte) : List Byte := (bs.drop (pa % 64)).take n
  if effType c pa mt ≤ 1 then
    match regionOf pa with
    | .rom | .sram _ => if answers s c pa then .words s (busBytes s pa n) else if onPath k then .bad (readFailed s (coreInit c) (coreCell k) 0 stDECODE pa) else .wait s
    | _ =>
      match carryReadPa s (coreInit c) 0 (coreCell k) pa n with
      | (s1, none) => .wait s1
      | (s1, some st) =>
        if st = stOK ∧ (pa < hbmLimit ∨ (scratchBase ≤ pa ∧ pa < scratchLimit)) then .words s1 (rdBytes s1 pa n)
        else if onPath k then .bad (readFailed s1 (coreInit c) (coreCell k) 0 (if st = stOK then stDECODE else st) pa)
        else .wait s
  else
    match k.l1i.find? (fun e => e.1 = line) with
    | some e => .words (setCore s c { k with l1i := e :: k.l1i.filter (fun x => x.1 ≠ line) }) (cut e.2)
    | none =>
      if k.spec.any (fun l => l.line = line && l.fetch && l.arrived && l.txn.isNone) then .words s (rdBytes s pa n)
      else
        match k.group.bind (fun g => if g.1 = line then some g.2 else none) with
        | some bs => .words (setCore s c { k with group := none }) (cut bs)
        | none =>
          if !(onPath k) then .wait (startSpec s c (coreCell k) line true ((nextFetch k).getD 0))
          else if k.fills.any (fun f => f.line = line && f.fetch && f.failed.isSome) then
            .bad (setCore s c { k with fills := k.fills.filter (fun f => !(f.line = line && f.fetch)) })
          else
            .wait (askFill s c { line := line, fetch := true, cell := coreCell k, na := !(allocL1 s c (coreCell k) pa mt false) })

/-- Words join the prefetch queue. -/
def queueWords (k : Core) (ws : List FetchWord) : Core := { k with fq := k.fq ++ ws }
/-- The words of a group read from `pc`, poisoned ones with the exception that they raise. -/
def groupWords (s : State) (pa : Nat) (pc : Word) (bs : List Byte) : List FetchWord :=
  (List.range (bs.length / 8)).map (fun i =>
    let a := pc + BitVec.ofNat 64 (8 * i)
    { addr := a, word := BitVec.ofNat 64 (leNat ((bs.drop (8 * i)).take 8)), exc := if poisonedAt s (pa + 8 * i) 8 then some (decExc 0x0A 0 false false a) else none })

/-- Fetch takes its step: the words that are left of the aligned 16-byte group at the next address, if the queue of four has
room for a group. A fetch that fails joins the queue as the exception its word raises if it is transported. -/
def fetchGroup (s : State) (c : Nat) : State :=
  let k := getCore s c
  if 2 < k.fq.length then s
  else match nextFetch k with
    | none => s
    | some pc =>
      match lookup s c k.level.toNat pc.toNat .fetch false with
      | .fault f => setCore s c (queueWords k [{ addr := pc, exc := some (xExc f .fetch false false false pc pc) }])
      | .miss => if k.walk.isSome then s else setCore s c { k with walk := some { va := pc, fetch := true, write := false } }
      | .ok pa mt =>
        match readGroup s c pa mt (16 - pa % 16) with
        | .words s1 bs => updCore s1 c (fun k => queueWords k (groupWords s1 pa pc bs))
        | .bad s1 => updCore s1 c (fun k => queueWords k [{ addr := pc, exc := some (decExc 0x0A 0 false false pc) }])
        | .wait s1 => s1

/-! ### Decode -/

/-- A decoded word joins the decoded words; a predicted change of flow empties the prefetch queue (R144, R145). -/
def pushWord (k : Core) (d : DecWord) (rs : List Word) (rep : Bool) : Core :=
  { k with dq := k.dq ++ [d], fq := if d.taken then [] else k.fq, fetchPc := d.pred.getD d.addr, retStack := rs, decRep := rep }
/-- A fetch that failed is decoded as the exception it raises if it is transported. -/
def pushExc (k : Core) (e : Exc) : Core := pushWord k { addr := e.pc, word := 0, exc := some e } k.retStack false

/-- A word of the queue decoded. -/
def decodeWord (s : State) (c : Nat) (f : FetchWord) : State :=
  let k0 := getCore s c
  let k : Core := { k0 with fq := k0.fq.drop 1 }
  let w := f.word
  let inRep : Bool := if k.dq.isEmpty then k.decRep || k.ctx.rep else k.decRep
  match f.exc with
  | some e => setCore s c (pushExc k e)
  | none =>
    match decodeExc (isS c) k.level.toNat inRep w f.addr with
    | some e => setCore s c (pushWord k { addr := f.addr, word := w, exc := some e } k.retStack false)
    | none =>
      if !loopReady k w then s
      else
        let p := predict c k w f.addr
        let s1 := earlyLookup (setCore s c k) c w f.addr
        setCore s1 c (pushWord (getCore s1 c) { addr := f.addr, word := w, pred := p.next, ittIndex := p.index, taken := p.taken } p.rs ((slotsOf w).any (fun sl => sl.dst = 340)))

/-- WORD_DECODE: fetch takes its step, starting the walk or the fill that it needs, and decode takes the oldest word of the
prefetch queue, unless a decoded word still waits for its transport (R142). -/
def execWordDecode (c : CoreId) (s : State) : Host.Outcome State Fault Refusal :=
  let n := c.val
  .next (
    if !fetches (getCore s n) then s
    else
      let s1 := fetchGroup (updCore s n trimQueue) n
      match (getCore s1 n).fq with
      | [] => s1
      | f :: _ => if 2 ≤ (getCore s1 n).dq.length then s1 else decodeWord s1 n f)

/-! ### Lines arrive -/

/-- An instruction line installed with the bytes that memory holds; of four ways of a set the least recently used gives way
(R259). -/
def l1iInstall (s : State) (c line : Nat) : State :=
  updCore s c (fun k =>
    let others := k.l1i.filter (fun e => e.1 ≠ line)
    let set := others.filter (fun e => e.1 % l1Sets c = line % l1Sets c)
    let rest := if set.length < 4 then others else match set.getLast? with | some v => others.filter (fun e => e.1 ≠ v.1) | none => others
    { k with l1i := (line, rdBytes s (64 * line) 64) :: rest })

/-- An instruction fill is coherent as a read: writable copies are recalled, and the line enters its slice, the L2 and L1
(R262, R265). -/
def fillInstr (s : State) (c : Nat) (cell : Option CellId) (line : Nat) : State :=
  if isS c then l1iInstall s c line
  else if hasL2 s (cluOf c) line then l1iInstall (l2Touch (shareL2 s (cluOf c) line) c line 0 false) c line
  else
    let s1 := cleanCopies s line
    match allocClass s1 (cell.map (·.toNat)) (64 * line) with
    | none => slcTouch s1 line none none
    | some k =>
      let s2 := l2Touch (slcTouch s1 line (some k) (cell.map (·.toNat))) c line k false
      if inSlc s2 line && hasL2 s2 (cluOf c) line then l1iInstall s2 c line else s2

/-- Has a fill's answer come? -/
def fillReady (f : Fill) : Bool := (f.txn.isNone || f.answered) && f.failed.isNone

/-- The line of the resume word of the task that a core was chosen for, at the switch to come (R207): its level and PC are
those of its node, or of its entry. -/
def resumeLine (s : State) (c t : Nat) : Option (Nat × Option CellId) :=
  let x := getTcb s t
  let lo := if x.nodeLo = 0 then x.srcLo else x.nodeLo
  let pc := if x.fresh then x.entryVa.toNat else rdNat s (lo + 0x20) 8
  let lvl := if x.fresh then 0 else rdNat s (lo + 0x10) 8 % 4
  let cell : Option CellId := some (BitVec.ofNat 12 x.cell)
  let s1 := updCore s c (fun k => { k with cell := some x.cell, s1Root := (getCell s x.cell).s1 })
  if x.saving then none
  else match probe s1 c lvl pc .fetch with
    | .ok (pa, mt) => if 2 ≤ effType c pa mt ∧ allocL1 s c cell pa mt false ∧ !((getCore s c).l1i.any (fun e => e.1 = pa / 64)) then some (pa / 64, cell) else none
    | .error _ => none

/-- ICACHE_FILL_ARRIVAL: the oldest instruction line that has come is installed, or handed to fetch where no cache may hold
it (R145, R262). Where none has come, the resume line that the core still has to ask for is asked for (R207; the moment is
the model's, DESIGN CHOICE, assumption 59). -/
def execIcacheFillArrival (c : CoreId) (s : State) : Host.Outcome State Fault Refusal :=
  let n := c.val
  let k := getCore s n
  .next (match k.fills.find? (fun f => f.fetch && fillReady f) with
    | some f =>
      let s0 := updCore s n (fun k => { k with fills := k.fills.erase f })
      let s1 := if f.na then s0 else fillInstr s0 n f.cell f.line
      if (getCore s1 n).l1i.any (fun e => e.1 = f.line) then s1
      else updCore s1 n (fun k => { k with group := some (f.line, rdBytes s1 (64 * f.line) 64) })
    | none =>
      match k.resumeFor with
      | none => s
      | some t =>
        let s1 := updCore s n (fun k => { k with resumeFor := none })
        match resumeLine s n t with
        | some (line, cell) => askFill s1 n { line := line, fetch := true, cell := cell }
        | none => s1)

/-- SPEC_FILL_ARRIVAL: the data of an early fill reach its entry; of one whose word has been transported already, the line is
installed (R163). Data for an entry that has been dropped are discarded. -/
def execSpecFillArrival (c : CoreId) (line : BitVec 38) (s : State) : Host.Outcome State Fault Refusal :=
  let n := c.val
  let hit (l : SpecLine) : Bool := l.line = line.toNat && l.txn.isNone
  let s1 := updCore s n (fun k => { k with spec := k.spec.map (fun l => if hit l then { l with arrived := true } else l) })
  .next (if (getCore s1 n).spec.any (fun l => hit l && l.keep && !l.fetch) then installSpec s1 n line.toNat else s1)

end Sys2Proof.Machine
end

