-- ==== Sys2Proof/Machine/CtxMove.lean ====
section
/-! DEFINITION. The context triggers: explicit saves and loads of half-contexts on an A-core, store and load multiple on
an S-core (R199 to R204). -/
namespace Sys2Proof.Machine

/-- An exception of the word under way. -/
def wordExc (k : Core) (cls base fields : Nat) (addr : Word) (slotB long : Bool) : Exc :=
  { cls := cls, base := base, fields := BitVec.ofNat 24 fields, addr := addr, slotB := slotB, long := long, pc := k.pc }

/-- The node number operand: CTX.O[15:0]. -/
def ctxNum (o : Word) : Nat := fld o 15 0
/-- Address of the node that a nonzero number names in the running cell's pool. -/
def ctxNode (s : State) (k : Core) (hi : Bool) (n : Nat) : Option Nat :=
  if n = 0 ∨ poolCount s.comp.live (k.cell.getD 0) hi < n then none else some (nodeAddr s.comp.live (k.cell.getD 0) hi (n - 1))

/-- SAVE_EXHAUSTED for a half of the running task (R201, R202). -/
def exhausted (k : Core) (hi slotB long : Bool) : Exc :=
  { wordExc k 0x0D 2 (b2n hi) k.pc slotB long with detail := BitVec.ofNat 32 (k.task.getD 0) }
/-- PERM with CAUSE 0x1 for an operand. -/
def badNode (k : Core) (o : Word) (slotB long : Bool) : Exc := wordExc k 0x09 1 16 o slotB long

/-- The fault of an explicit save (R201). -/
def ctxSaveExc (s : State) (c : Nat) (hi : Bool) (o : Word) (slotB long : Bool) : Option Exc :=
  let k := getCore s c
  if ctxNum o = 0 then (if (poolHead s (k.cell.getD 0) hi).isNone then some (exhausted k hi slotB long) else none)
  else if (ctxNode s k hi (ctxNum o)).isNone then some (badNode k o slotB long) else none

/-- Is the explicit load eager: FREE, or the cell's restore mode? -/
def loadEager (s : State) (k : Core) (free : Bool) : Bool := free || (k.task.map (fun t => (getTcb s t).eager)).getD false
/-- Do the lines that an explicit load reads carry poison? -/
def loadPoisoned (s : State) (hi eager : Bool) (node : Nat) : Bool :=
  poisonedAt s node (if hi then 64 else 256) || (eager && halfPoisoned s node hi) ||
  (hi && (rdNat s (node + 8) 8 / 2 ^ 32 % 64).testBit 3 && groupPoisoned s node 3)

/-- The task whose SAVING flag an explicit save of a core sets; a core without a task has a number that no task has. -/
def savingTcb (k : Core) : Nat := k.task.getD 65536
/-- The fault of an explicit load (R200, R201); what the node holds counts once no save write is outstanding (R194). Where
INFO fails and a line is poisoned too, the poison is raised (DESIGN CHOICE, assumption 60: R201 gives no order). A node whose
lines the fabric does not answer reads as poison (R75). -/
def ctxLoadExc (s : State) (c : Nat) (hi free : Bool) (o : Word) (slotB long : Bool) : Option Exc :=
  let k := getCore s c
  match ctxNode s k hi (ctxNum o) with
  | none => some (badNode k o slotB long)
  | some a =>
    if (getTcb s (savingTcb k)).saving then none
    else if loadPoisoned s hi (loadEager s k free) a ∨ !reaches s c a then some (wordExc k 0x0A 1 0 (BitVec.ofNat 64 a) slotB long)
    else if infoBad s a (k.cell.getD 0) none hi then some (badNode k o slotB long) else none
/-- Must an explicit load wait: for the writes of a save (R194), or for the answer of the hold in its node (R159, R200)? -/
def ctxLoadWaits (s : State) (c : Nat) (hi : Bool) (o : Word) : Bool :=
  let k := getCore s c
  (getTcb s (savingTcb k)).saving || s.fab.changing ||
  (match ctxNode s k hi (ctxNum o) with
   | some a => !hi && (rdNat s (a + 0x30) 8) % 4 = 1
   | none => false)

/-- An explicit save: PC, LEVEL and REP come from the save set of the level, g63 from its SP_INT, and the node becomes
the half's source (R199). Its writes go as those of R194, on stream 15 and under SAVING. NEXT of a lower node is the
core's upper source node (DESIGN CHOICE, assumption 60: R189 speaks of the task's upper node). -/
def ctxSave (s : State) (c : Nat) (hi : Bool) (o : Word) : State :=
  let k0 := getCore s c
  let cell := k0.cell.getD 0
  let n := if ctxNum o = 0 then (poolHead s cell hi).map (fun n => n + 1) else some (ctxNum o)
  match n.bind (fun n => (ctxNode s k0 hi n).map (fun a => (n, a))) with
  | none => s
  | some (n, a) =>
    let s1 := if ctxNum o = 0 then poolTake s cell hi else s
    let x0 := drainFlights k0.ctx
    let src := if hi then k0.nodeHi else k0.nodeLo
    let x := if src = a then x0 else completeHalf s1 k0 hi x0
    let k := { k0 with ctx := x }
    let set := saveSet k k.level.toNat
    let t := k.task.getD 0
    let next := if hi ∨ k.nodeHi ≤ 1 then 0 else k.nodeHi
    let ls := saveLines k x hi a cell t true next (fld set.status 1 0) set.pc.toNat (bit set.status 3) k.hold (if hi then some set.sp else none)
    let s2 := ls.foldl (fun s l => submitSave s c (savingTcb k) l) (setCore s1 c k)
    let re (q : Txn) : Txn := match k.hold with
      | some h => if !hi ∧ h.answer.isNone ∧ q.id = h.txn then { q with purpose := .hold (savingTcb k) c a h.pc } else q
      | none => q
    let out : Bool := !hi && (match k.hold with | some h => h.answer.isNone | none => false)
    let s3 := { s2 with fab := { s2.fab with txns := s2.fab.txns.map re, waiting := s2.fab.waiting.map re } }
    let s3 := if out then updTcb s3 (savingTcb k) (fun x => { x with holdOut := true, saving := true }) else s3
    updCore s3 c (fun j =>
      let j1 := afterSave j hi a (saveGroups k x hi a)
      { j1 with ctx := setPort j1.ctx 338 (wide (BitVec.ofNat 64 n)), hold := if hi then j1.hold else none })

/-- An explicit load: the half, and into the save set of the level PC, LEVEL and REP, or the saved g63 as SP_INT (R200).
The lower half brings the hold; GD is loaded at once, and g63 itself stays. -/
def ctxLoad (s0 : State) (c : Nat) (hi free : Bool) (o : Word) : State :=
  let k0 := getCore s0 c
  let cell := k0.cell.getD 0
  match ctxNode s0 k0 hi (ctxNum o) with
  | none => s0
  | some a =>
    let eager := loadEager s0 k0 free
    let s := (ctxRead c (coreCell k0) ((List.range (if hi then 1 else 4)).map (fun i => a + 64 * i) ++ groupLines s0 a (if eager then halfGroups hi else if hi then [3] else [])) s0).1
    let k0 := getCore s c
    let l := k0.level.toNat
    let set := saveSet k0 l
    let k := { k0 with ctx := drainFlights k0.ctx }
    let k1 :=
      if hi then
        let sp := spOf c k.ctx
        let k1 := restoreHalf s k true eager a
        let x := if k1.ctx.pendGroups.getLsbD 3 then loadGroup s k1.ctx a 3 else k1.ctx
        setSaveSet { k1 with ctx := { x with g := put 63 sp x.g } } l { set with sp := look 0 63 x.g, valid := true }
      else
        let k1 := restoreHalf s k false eager a
        let st := BitVec.ofNat 64 (rdNat s (a + 0x10) 8)
        setSaveSet { k1 with ctx := { loadHead s k1.ctx a with rep := k.ctx.rep, after := k.ctx.after }, hold := loadHold s a cell (k.task.getD 0) } l
          { set with pc := BitVec.ofNat 64 (rdNat s (a + 0x20) 8), status := putFld (putFld set.status 3 3 (b2n (bit st 3))) 1 0 (fld st 1 0), valid := true }
    let k2 : Core := if free then (if hi then { k1 with nodeHi := 1 } else { k1 with nodeLo := 1 }) else k1
    let s1 := setCore s c k2
    if free then poolReturn s1 cell hi (ctxNum o - 1) else s1

/-! ### Store and load multiple (R203, R204) -/

/-- The registers still to transfer, lowest first. -/
def multiLeft (mask done : BitVec 16) : List Nat := (List.range 16).filter (fun i => mask.getLsbD i && !done.getLsbD i)
/-- The LSU access of register `i`. -/
def multiAcc (k : Core) (load : Bool) (o : Word) (mask : BitVec 16) (i : Nat) (slotB long : Bool) : Lsu :=
  let below := popFrom 16 (mask.toNat % 2 ^ i)
  { op := if load then .ld else .st, o := o + BitVec.ofNat 64 (8 * below), v := 0, p := wide (look 0 i k.ctx.g), ext := 3, slotB := slotB, long := long }

/-- What one transfer of a store or load multiple does. -/
inductive MultiRes where
  | exc (s : State) (e : Exc)
  | wait (s : State)
  /-- transferred: whether registers are left -/
  | step (s : State) (more : Bool)

/-- One transfer, which stays transferred whatever becomes of the word. -/
def multiStep (s : State) (c : Nat) (load : Bool) (o : Word) (mask : BitVec 16) (slotB long : Bool) : MultiRes :=
  let k := getCore s c
  let done := k.ctx.mprog.getD 0
  match multiLeft mask done with
  | [] => .step s false
  | i :: rest =>
    match runLsu s c (multiAcc k load o mask i slotB long) with
    | .exc s1 e => .exc s1 e
    | .wait s1 => .wait s1
    | .done s1 q =>
      match (if load then q.bind (·.2) else none) with
      | some a => .exc s1 (wordExc k 0x0A 1 0 a slotB long)
      | none =>
        let set (x : Ctx) : Ctx :=
          let y := match load, q with | true, some (v, _) => writeAddr x i v | _, _ => x
          { y with mprog := some (done ||| BitVec.ofNat 16 (1 <<< i)) }
        .step (updCore s1 c (fun k => { k with ctx := set k.ctx, pre := k.pre.map set, sbuf := k.sbuf.map (fun e => { e with fresh := false }) })) !rest.isEmpty

end Sys2Proof.Machine
end

