-- ==== Sys2Proof/Machine/WordFlow.lean ====
section
/-! DEFINITION. How a word is performed: the transport of its slots, its faults, what it waits for, and what its end does
(R83 to R105, R109 to R113, R132 to R135, R142 to R160, R177 to R182, R250 to R256). -/
namespace Sys2Proof.Machine

/-! ### The transport of a slot (R83, R84, R99, R100, R102, R127, R329) -/

/-- Results of earlier words that the slot waits for reach their ports, in the word's state and in the state before
it. -/
def settleBoth (us : List Nat) (k : Core) : Core :=
  let us := dedup us
  match k.pre with
  | none => { k with ctx := settleAll us k.ctx }
  | some p => { k with pre := some (settleAll us p), ctx := settleOld us p k.ctx }

/-- May the core transport a word now: it runs, no exception waits, and decode found nothing wrong with the word? -/
def takesWords (k : Core) : Bool :=
  k.mode = .run && k.exc.isNone && !(match k.dq.head? with | some d => d.addr == k.pc && d.exc.isSome | none => false)

/-- A word begins with its first slot; one begun and never ended is begun again. -/
def beginWord (k : Core) (p : Pos) : Core :=
  if p = .last ∧ k.pre.isSome then k
  else
    let x := { (k.pre.getD k.ctx) with after := [], faults := [], doneUnits := [] }
    { k with pre := some x, ctx := x }

/-- The trapped result that a read of an address finds: its address and flags. -/
def trapOn (k : Ctx) (a : Nat) : Option (Nat × BitVec 5) :=
  if a = 96 then k.traps.find? (fun e => 97 ≤ e.1 && e.1 ≤ 103) else k.traps.find? (fun e => e.1 = a)
/-- A trap that has been raised is gone. -/
def untrap (k : Core) (a : Nat) : Core :=
  { k with ctx := { k.ctx with traps := drop' a k.ctx.traps }, pre := k.pre.map (fun x => { x with traps := drop' a x.traps }) }
def addFault (k : Core) (e : Exc) : Core := { k with ctx := { k.ctx with faults := k.ctx.faults ++ [e] } }
/-- The FP exception of a read of an address, if its result trapped. -/
def fpFault (k : Core) (a : Nat) (slotB long : Bool) : Option Core :=
  (trapOn (k.pre.getD k.ctx) a).map (fun t => addFault k (wordExc k 0x16 1 (t.2.toNat + 256 * a) k.pc slotB long))
/-- Where the trapped result that an FP exception reports lies: its SYNDROME names the address that was read. -/
def trapOfExc (k : Core) (e : Exc) : Option Nat :=
  if e.cls = 0x16 then (trapOn (k.pre.getD k.ctx) (e.fields.toNat / 256)).map (·.1) else none

/-- The exception that a slot's encoding alone decides (R98, R113). -/
def slotExc (c : Nat) (k : Core) (m : Slot) (dst : Nat) : Option Exc :=
  let imm : Bool := match m.src with | .imm _ => true | .port _ => false
  let a := match m.src with | .imm _ => 0 | .port a => a.toNat
  match portReason (isS c) imm a dst m.ext.toNat with
  | some r => some (decExc 0x01 (r.1 + 256 * r.2) m.slotB m.long k.pc)
  | none => (portPriv k.level.toNat imm a dst).map (fun r => decExc 0x04 (r.1 + 256 * r.2) m.slotB m.long k.pc)

/-- Is a register group that the move names pending (R195)? -/
def groupWaits (k : Core) (m : Slot) (dst : Nat) : Bool :=
  let p (g : Option Nat) : Bool := match g with | some g => k.ctx.pendGroups.getLsbD g | none => false
  p (waitsFor dst false) || (match m.src with | .port a => p (waitsFor a.toNat true) | .imm _ => false)

/-- What the transport of a slot leads to: a wait, or the core with the slot done. -/
inductive SlotRes where
  | wait
  | done (s : State)

/-- The value that a slot moves, and the core that has read it. -/
def readSlot (s : State) (c : Nat) (k : Core) (m : Slot) : Core × VWord :=
  match m.src with
  | .imm v => (k, wide v)
  | .port a =>
    let a := a.toNat
    let k1 := settleBoth (unitsRead (k.pre.getD k.ctx) a) k
    let k2 := if 353 ≤ a ∧ a ≤ 356 then finishChk k1 else k1
    let k3 := if a = 371 then { k2 with lastTime := s.now } else k2
    let x := k3.pre.getD k3.ctx
    (k3, if 353 ≤ a ∧ a ≤ 356 then wide (chkRead c k3 x a) else readAddr c k3 x a)

/-- The fault of a consumed source: a trapped floating-point result, or poison (R127, R329). -/
def srcFault (k : Core) (m : Slot) : Option Core :=
  match m.src with
  | .imm _ => none
  | .port a =>
    match fpFault k a.toNat m.slotB m.long with
    | some k1 => some k1
    | none => ((k.pre.getD k.ctx).poison.find? (fun e => e.1 = a.toNat)).map (fun e =>
        addFault k (wordExc k 0x0A 1 (256 * a.toNat) e.2 m.slotB m.long))

/-- The units whose earlier results a write waits for: of a predicate, those that will write it; of FPU.CSR, FPU and
VEC. -/
def unitsWrite (k : Ctx) (dst ext : Nat) : List Nat :=
  if 96 ≤ dst ∧ dst ≤ 103 then unitsRead k dst
  else if dst = 275 then [272, 304]
  else if ptarget dst ext = 0 then [] else unitsGuard k (ptarget dst ext)

/-- A slot performed: guard and source are read from the state before the word, then `act` writes or triggers. -/
def slotAct (s : State) (c : Nat) (m : Slot) (dst : Nat) (act : Core → VWord → Ctx → Ctx) : SlotRes :=
  let k0 := beginWord (getCore s c) m.pos
  match slotExc c k0 m dst with
  | some e => .done (setCore s c (addFault k0 e))
  | none =>
    let g := m.guard.toNat
    let k1 := settleBoth (unitsGuard (k0.pre.getD k0.ctx) g) k0
    match (if g % 8 = 0 then none else fpFault k1 (96 + g % 8) m.slotB m.long) with
    | some k2 => .done (setCore s c k2)
    | none =>
      if !guardTrue (k1.pre.getD k1.ctx) m.guard then .done (setCore s c k1)
      else if groupWaits k1 m dst then .wait
      else
        let r := readSlot s c k1 m
        match srcFault r.1 m with
        | some k2 => .done (setCore s c k2)
        | none =>
          let k2 := settleBoth (unitsWrite (r.1.pre.getD r.1.ctx) dst m.ext.toNat) r.1
          let k3 := if 352 ≤ dst ∧ dst ≤ 354 then finishChk k2 else k2
          let s1 := setCore s c { k3 with ctx := act k3 r.2 k3.ctx }
          .done (match m.src with | .port a => if a = 354 then expCheck s1 c k3.ctx else s1 | .imm _ => s1)

/-! ### The faults of a word (R104) -/

/-- Rank of a fault's check: the checks of decode come first, in their order. -/
def excRank (e : Exc) : Nat := if e.cls ≤ 4 then e.cls else 5
/-- The fault that is raised: the first check, and within it slot A before slot B. -/
def firstExc : List Exc → Option Exc
  | [] => none
  | e :: es =>
    match firstExc es with
    | none => some e
    | some f => if excRank f < excRank e ∨ (excRank f = excRank e ∧ e.slotB ∧ !f.slotB) then some f else some e

/-- The word is unperformed and its exception waits for entry; a trapped result is gone once its exception is raised, not
before (R127). -/
def raiseWord (s : State) (c : Nat) (e : Exc) : State :=
  let s1 := match trapOfExc (getCore s c) e with | some a => updCore s c (fun k => untrap k a) | none => s
  updCore (abandonWord s1 c) c (fun k => { k with exc := some e })

/-- The exception of a system-register access that is not permitted (R139). -/
def srExc (k : Core) (write : Bool) (num : Word) (slotB long : Bool) : Exc :=
  { wordExc k 0x09 1 (48 + 256 * b2n write) k.pc slotB long with detail := num.setWidth 32 }

/-- Where the line of an IC_INV by address lies: translated as a load (R267). -/
def icLine (s : State) (c : Nat) (v : Word) (slotB long : Bool) : Except Exc Nat :=
  let k := getCore s c
  let va := BitVec.ofNat 64 (fld v 47 6 * 64)
  match probe s c k.level.toNat va.toNat .load with
  | .ok (pa, _) => .ok pa
  | .error f => .error (xExc f .load false slotB long k.pc va)
def icByLine (num v : Word) : Bool := num = 0x029 && fld v 1 0 == 1

/-- The fault that a pending effect of the word raises. -/
def afterExc (s : State) (c : Nat) (a : Bool × Bool × After) : Option Exc :=
  let k := getCore s c
  let b := a.1
  let l := a.2.1
  let lvl := k.level.toNat
  let target (t : Word) : Option Exc := if t.toNat % 8 = 0 then none else some (wordExc k 0x08 1 1 t b l)
  match a.2.2 with
  | .branch t _ _ => target t
  | .call t _ => target t
  | .loop t => if 2 ≤ k.ctx.rc.toNat then target t else none
  | .ret => (returnFails (saveSet k lvl) lvl).map (returnExc k b l)
  | .srrd num => if srOk c lvl num then none else some (srExc k false num b l)
  | .srwr num v =>
    if !srWriteOk c lvl num v then some (srExc k true num b l)
    else if icByLine num v then (match icLine s c v b l with | .error e => some e | .ok _ => none)
    else none
  | .seal v => if v.toNat < 4 ∧ v ≠ 0 ∧ v.toNat ≤ lvl ∧ (!isS c ∨ v = 3) then none else some (wordExc k 0x09 1 64 k.pc b l)
  | .ctxSave hi o => ctxSaveExc s c hi o b l
  | .ctxLoad hi free o => ctxLoadExc s c hi free o b l
  | .multi load o _ => if o.toNat % 8 = 0 then none else some (wordExc k 0x08 1 (256 * b2n (!load)) o b l)
  | .wait =>
    match k.task with
    | some t => if (getTcb s t).pending = 0 ∧ (getTcb s t).state = .running ∧ !k.discard then (match saveTask s c t with | .error hi => some (exhausted k hi b l) | .ok _ => none) else none
    | none => none
  | _ => none

/-- The LSU access that the word's triggers left, and the one of a load word's early check. -/
def lsuOf (k : Core) : Option Lsu :=
  k.ctx.after.findSome? (fun a => match a with
    | (b, l, .lsu op o v p ext) => some { op := op, o := o, v := v, p := p, ext := ext, slotB := b, long := l }
    | _ => none)

/-- Every lane of an access checked in lane order. -/
def checkLanes (s : State) (c : Nat) (a : Lsu) : Nat → Nat → Checked
  | 0, _ => .ok []
  | n + 1, i =>
    match checkAcc s c a false (if a.gathers then i else 0) with
    | .ok _ => checkLanes s c a n (i + 1)
    | r => r

/-! ### What the end of a word does -/

/-- Is a fence's wait over (R250)? -/
def fenceDone (s : State) (c : Nat) (fen : Fence) : Bool :=
  let k := getCore s c
  let cell := coreCell k
  let mine := k.sbuf.filter (fun e => e.cell == cell && !heldEntry k e)
  let normal := mine.any (fun e => e.mt ≠ 0)
  match fen with
  | .s | .l => true
  | .f => !normal && (mine.filter (fun e => e.mt = 0 && !e.sent)).length ≤ 1
  | .d => mine.isEmpty && !deviceOut s c cell && (match k.hold with | some h => h.cell ≠ k.cell.getD 0 || h.answer.isSome | none => true)

/-- An operation of the trace path: a stimulus value joins the core's queue, or is dropped or discarded (R436). -/
def stimulus (s : State) (c port : Nat) (v : Word) : State :=
  let k := getCore s c
  let on : Bool := bit (stored s .dbgTrcCtrl 0xF8000070088) 0 && s.dbg.auth = .opened &&
    (if isS c then 3 ≤ s.dbg.level.toNat else match k.cell with
      | some x => (if isSafety s.comp.live x then 3 else if isProtected s.comp.live x then 2 else 1) ≤ s.dbg.level.toNat
      | none => false) && bit (look 0 c s.dbg.stmMask) port
  if !on then s
  else if k.stim.length < 16 then setCore s c { k with stim := k.stim ++ [(port, v, s.now)] }
  else { s with dbg := { s.dbg with lostPackets := satAdd s.dbg.lostPackets 1, merr := addSorted c s.dbg.merr } }

/-- A pending effect takes place. The flow of the word and the wait of a task are the business of `commit`. -/
def applyAfter (s : State) (c : Nat) (a : Bool × Bool × After) : State :=
  let k := getCore s c
  match a.2.2 with
  | .srrd num =>
    let q := srRead s c num.toNat
    updCore s c (fun k => { k with ctx := setPort k.ctx 370 (wide q) })
  | .srwr num v =>
    srWrite s c num.toNat v (if icByLine num v then (match icLine s c v a.1 a.2.1 with | .ok pa => some pa | .error _ => none) else none)
  | .seal v =>
    let r := sealTable s c v.toNat
    updCore r.1 c (fun k => { k with ctx := setPort k.ctx 370 (wide r.2) })
  | .rsflush => setCore s c { k with retStack := [] }
  | .ctxSave hi o => ctxSave s c hi o
  | .ctxLoad hi free o => ctxLoad s c hi free o
  | .chk op n v =>
    let r := chkOp s c op n v
    if r.2 then updCore r.1 c (fun k => { k with exc := some { wordExc k 0x17 1 k.ctx.sel.toNat k.pc a.1 a.2.1 with addr := k.pc } }) else r.1
  | .trc port v => stimulus s c port v
  | .jobend =>
    match k.task.bind (fun t => (getTcb s t).job) with
    | some j => { s with time := { s.time with closes := s.time.closes ++ [(j, s.now)] } }
    | none => s
  | .note code => raise s { code := code, cls := 0, source := coreSrc c 0, cell := coreCell k }
  | .fence .s => setCore s c { k with sfence := coreCell k :: k.sfence.filter (fun x => x ≠ coreCell k) }
  | _ => s

/-- The flow of a word: its next word, the return target or branch taken as the history sees it, and the entry of the
target table it writes. -/
def flowOf (k : Core) : Word × Option Word × Bool :=
  match k.ctx.after.findSome? (fun a => match a.2.2 with
      | .branch t ind ret => some (t, if ind || ret then some t else none, ind && !ret)
      | .call t ind => some (t, if ind then some t else none, ind)
      | .loop t => if 2 ≤ k.ctx.rc.toNat then some (t, none, false) else none
      | .rep 0 => some (k.pc + 16, none, false)
      | _ => none) with
  | some f => f
  | none => (k.pc + 8, none, false)

/-- LINK, RC and the repeat flag after a word (R124, R132, R135): whether the word is performed once more. -/
def wordCtx (k : Core) : Ctx × Bool :=
  let x0 := { k.ctx with after := [], faults := [], doneUnits := [], mprog := none }
  let x := k.ctx.after.foldl (fun x a => match a.2.2 with
    | .call _ _ => { x with link := k.pc + 8 }
    | .loop _ => { x with rc := if 2 ≤ x.rc.toNat then x.rc - 1 else 0 }
    | .rep n => { x with rc := BitVec.ofNat 13 (min n 4096), rep := 0 < n }
    | _ => x) x0
  if k.ctx.rep then
    let rc : BitVec 13 := x.rc - 1
    ({ x with rc := rc, rep := rc ≠ 0 }, rc ≠ 0)
  else (x, false)

/-- Does a word take a branch? -/
def branches (k : Core) : Bool :=
  k.ctx.after.any (fun a => match a.2.2 with | .branch _ _ _ | .call _ _ => true | .loop _ => decide (2 ≤ k.ctx.rc.toNat) | _ => false)
/-- The core moves to the next word: a word whose direction and target were predicted right keeps the queue, any other
squashes it (R144 to R148). The target table keeps TARGET[47:3]. -/
def advance (c : Nat) (k : Core) (taken : Bool) (f : Word × Option Word × Bool) : Core :=
  let idx := (match k.dq.head? with | some d => d.ittIndex | none => none).getD (ittIndexOf k.hist)
  let k1 : Core := if f.2.2 ∧ !isS c then { k with itt := put idx (ittTag k.pc, f.1 &&& 0xFFFFFFFFFFF8) k.itt } else k
  let k2 : Core := match f.2.1 with | some t => { k1 with hist := (t :: k1.hist).take 8 } | none => k1
  match k2.dq with
  | [] => trimQueue { k2 with pc := f.1, fetchPc := f.1, decRep := false }
  | d :: t => if d.addr = k2.pc ∧ d.pred = some f.1 ∧ d.taken = taken then { k2 with pc := f.1, dq := t } else refetch { k2 with pc := f.1 } f.1

/-- The lines that a transported word's early fills brought leave the speculative fill buffer for L1: its own instruction
line, and the data line it asked for, or once that comes (R163). -/
def installFetched (s : State) (c : Nat) : State :=
  let k := getCore s c
  let s1 := (k.spec.filter (fun l => !l.fetch && l.arrived && l.pc = k.pc)).foldl (fun s l => installSpec s c l.line) s
  let s2 := if k.spec.any (fun l => !l.fetch && l.pc = k.pc) then updCore s1 c (fun x => { x with spec := x.spec.map (fun l => if !l.fetch ∧ l.pc = k.pc then { l with keep := true } else l) }) else s1
  if !(k.spec.any (fun l => l.fetch && l.arrived)) then s2
  else match lookup s2 c k.level.toNat k.pc.toNat .fetch false with
    | .ok pa mt =>
      if k.spec.any (fun l => l.line = pa / 64 && l.fetch && l.arrived) then
        (let s3 := updCore s2 c (fun k => { k with spec := k.spec.filter (fun l => !(l.line = pa / 64 && l.fetch)) })
         if allocL1 s3 c (coreCell k) pa mt false then fillInstr s3 c (coreCell k) (pa / 64) else s3)
      else s2
    | _ => s2

/-- Does a core's task hold it as a RUNNING one, or is it to leave the core by a preemption already decided? -/
def taskRuns (s : State) (c : Nat) : Bool :=
  match (getCore s c).task with
  | none => true
  | some t => (getTcb s t).state == .running && !(getCore s c).discard
/-- T_WAIT: a pending event is consumed, or the task saved and made WAITING and the core is free (R205, R312). -/
def waitTask (s : State) (c : Nat) : State :=
  match (getCore s c).task with
  | none => s
  | some t =>
    if !taskRuns s c then s
    else if 0 < (getTcb s t).pending then updTcb s t (fun x => { x with pending := x.pending - 1 })
    else match saveTask (updCore s c (fun k => finishChk { k with ctx := drainFlights k.ctx })) c t with
      | .error _ => s
      | .ok s1 => feedCore (freeCore (undispatch (updTcb (stopUse s1 t) t (fun x => { x with state := .waiting })) c) c) c

/-- What follows a completed word: a return, a gate call or breakpoint that is to be entered, a wait, a debug step or
safe state that stops the core. -/
def afterWord (s : State) (c : Nat) (acts : List (Bool × Bool × After)) (addr : Word) : State :=
  let s1 := acts.foldl (fun s a =>
    let k := getCore s c
    match a.2.2 with
    | .ret => leaveHandler (doReturn s c) c
    | .gate i v =>
      let n := v.toNat % 256
      setCore s c { k with exc := some { cls := if 0x40 ≤ n then n else 0x13 + i, base := i + 1, addr := v, pc := k.pc, slotB := a.1, long := a.2.1 } }
    | .brk =>
      match k.cell with
      | some x => if breakHalt s x && !isS c then haltCell s x 3
          else setCore s c { k with exc := some { cls := 0x12, base := 1, addr := addr, pc := k.pc, slotB := a.1, long := a.2.1 } }
      | none => setCore s c { k with exc := some { cls := 0x12, base := 1, addr := addr, pc := k.pc, slotB := a.1, long := a.2.1 } }
    | .wait => waitTask s c
    | _ => s) s
  let k := getCore s1 c
  if k.stepOne ∧ k.exc.isNone then setCore s1 c { k with mode := .stopped, stepOne := false }
  else if s1.flt.safe ∧ !isS c ∧ k.mode = .run ∧ k.exc.isNone then stopAt s1 c .safe
  else s1

/-- A core whose word has ended: nothing of the word is left, a failed fill that it waited for is forgotten, one step of
the no-interrupt window is gone, and the entries of its store buffer may drain (R142, R179, R247). -/
def wordClosed (k : Core) : Core :=
  { dropFailed k with
    pre := none
    mode := .run
    rdParts := []
    window := if k.window = 0 then 0 else k.window - 1
    sbuf := k.sbuf.map (fun e => { e with fresh := false })
    exc := k.exc.map (fun e => { e with pc := k.pc }) }

/-- The word completes. -/
def commit (s : State) (c : Nat) : State :=
  let acts := (getCore s c).ctx.after
  let s1 := installFetched (acts.foldl (fun s a => applyAfter s c a) s) c
  let k := getCore s1 c
  let f := flowOf { k with ctx := { k.ctx with after := acts } }
  let x := wordCtx { k with ctx := { k.ctx with after := acts } }
  let k1 : Core := if x.2 then { k with ctx := x.1 } else advance c { k with ctx := x.1 } (branches { k with ctx := { k.ctx with after := acts } }) f
  afterWord (setCore s1 c (wordClosed k1)) c acts k.pc

/-- Pending effects that are timers of long operations: the unit whose completion the word waits for. -/
def longUnit (a : After) : Option Nat :=
  match a with | .ctxSave _ _ | .ctxLoad _ _ _ | .multi _ _ _ => some 336 | .seal _ => some 368 | _ => none
/-- Is a long operation of the word still under way? -/
def longLeft (x : Ctx) : Bool :=
  x.flights.any (fun f => f.long) || x.after.any (fun a => match longUnit a.2.2 with | some u => !x.doneUnits.contains u | none => false)
/-- A write of TLB_INV that starts an invalidation (R232). -/
def isTlbInv (a : After) : Bool := match a with | .srwr num v => num = 0x028 && 1 ≤ fld v 3 0 && fld v 3 0 ≤ 6 | _ => false
/-- A pending effect that has been done. -/
def dropAfter (k : Core) (p : After → Bool) : Core := { k with ctx := { k.ctx with after := k.ctx.after.filter (fun a => !p a.2.2) } }

/-- The accesses of other cores that an invalidation finds granted before it: they use their old translation and complete
before it does (R234). -/
def markOld (s : State) (c : Nat) : State :=
  (listedCores s).foldl (fun s j =>
    let k := getCore s j
    if j = c ∨ (k.sbuf.isEmpty ∧ k.rdTxn.isNone) then s
    else setCore s j { k with sbuf := k.sbuf.map (fun e => { e with inv := true }), rdInv := k.rdTxn.isSome }) s
/-- Has every access that an invalidation waits for completed? -/
def oldDone (s : State) : Bool := (listedCores s).all (fun j => let k := getCore s j; !(k.sbuf.any (fun e => e.inv)) && !(k.rdInv && k.rdTxn.isSome))

/-- The end of a word, tried when its last slot has been transported and whenever what it waits for has come: its faults,
then its long operations, an invalidation, a barrier, its memory access, and its completion. -/
def endWord (s : State) (c : Nat) : State :=
  let k := getCore s c
  let others := k.ctx.faults ++ k.ctx.after.filterMap (afterExc s c)
  let lsu := lsuOf k
  let check : Checked := match lsu with | some a => if others.all (fun e => decide (4 < e.cls) && a.slotB = false && e.slotB) then checkLanes s c a a.laneCount 0 else .ok [] | none => .ok []
  match check, firstExc others with
  | .exc e g, _ => raiseWord (recordGuard s c g) c e
  | .walk va, _ => updCore (askWalk s c va false) c (fun k => { k with mode := .waitLsu })
  | .ok _, some e => raiseWord s c e
  | .ok _, none =>
    if longLeft k.ctx then setCore s c { k with mode := .waitLong }
    -- a preemption decided first: T_WAIT is not transported (R211)
    else if k.ctx.after.any (fun a => match a.2.2 with | .wait => true | _ => false) ∧ !taskRuns s c ∧ k.level.toNat ≤ 1 then setCore s c { k with mode := .waitFence }
    else match k.ctx.after.find? (fun a => isTlbInv a.2.2) with
      | some (_, _, .srwr num v) =>
        if !k.invWait ∧ k.sbuf.isEmpty then updCore (markOld (srWrite s c num.toNat v none) c) c (fun k => { k with mode := .waitLong, invWait := true })
        else setCore s c { k with mode := .waitLong }
      | _ =>
        match k.ctx.after.findSome? (fun a => match a.2.2 with | .fence fen => some (fen, a.1, a.2.1) | _ => none) with
        | some (fen, b, l) =>
          if !fenceDone s c fen then setCore s c { k with mode := .waitFence }
          else match blockedExc k none b l with
            | some e => raiseWord s c e
            | none => commitLsu s c
        | none => commitLsu s c
where
  /-- The memory access of the word accepted, and the word completed. -/
  commitLsu (s : State) (c : Nat) : State :=
    match lsuOf (getCore s c) with
    | none => commit s c
    | some a =>
      match runLsu s c a with
      | .exc s1 e => raiseWord s1 c e
      | .wait s1 => updCore s1 c (fun k => { k with mode := .waitLsu })
      | .done s1 q => commit (updCore s1 c (fun k => afterLsu k a q)) c

/-- A slot command: its slot is transported, and the last slot of a word ends the word. -/
def slotStep (s : State) (c : Nat) (m : Slot) (dst : Nat) (act : Core → VWord → Ctx → Ctx) : State :=
  if !takesWords (getCore s c) then s
  else match slotAct s c m dst act with
    | .wait => s
    | .done s1 => if m.pos = .first then s1 else endWord s1 c

/-! ### Forms of `act` -/

/-- A result set in flight. -/
def addFlight (x : Ctx) (f : Flight) : Ctx := { x with flights := x.flights ++ [f] }
/-- An effect left for the end of the word. -/
def leave (m : Slot) (x : Ctx) (a : After) : Ctx := { x with after := x.after ++ [(m.slotB, m.long, a)] }
/-- The 64-bit value of a port. -/
def port64 (x : Ctx) (a : Nat) : Word := lo64 (portVal x a)
/-- A trigger that leaves one effect of the value moved. -/
def trigAfter (m : Slot) (f : Core → Ctx → VWord → After) : Core → VWord → Ctx → Ctx := fun k v x => leave m x (f k x v)
/-- Is the slot's source anything but an immediate? -/
def indirect (m : Slot) : Bool := match m.src with | .imm _ => false | .port _ => true

end Sys2Proof.Machine
end

