-- ==== Sys2Proof/Machine/Flow.lean ====
section
/-! DEFINITION. What comes to a core from outside its words: results of units, fills, answers and walks that a word
waits for, invalidations completed, exceptions entered, interrupts and preemptions taken (R85, R109 to R112, R145, R152 to
R160, R174 to R179, R202, R225, R232, R250). -/
namespace Sys2Proof.Machine

/-! ### Results of units (R85, R109, R111, R376) -/

/-- The oldest result that a unit has in flight since before the word under way reaches its port. -/
def deliverUnit (k : Core) (u : Nat) : Core :=
  match k.pre with
  | none => if inFlight k.ctx u = 0 then k else { k with ctx := settleN u 1 k.ctx.flights k.ctx }
  | some p => if inFlight p u = 0 then k else { k with pre := some (settleN u 1 p.flights p), ctx := settleN u 1 k.ctx.flights k.ctx }

/-- The long operation of a unit has completed. -/
def unitDone (k : Core) (u : Nat) : Core := { k with ctx := { (settle k.ctx u) with doneUnits := u :: k.ctx.doneUnits } }

/-- The store or load multiple of a word under way. -/
def multiOf (k : Core) : Option (Bool × Bool × Bool × Word × BitVec 16) :=
  k.ctx.after.findSome? (fun a => match a.2.2 with | .multi load o mask => some (a.1, a.2.1, load, o, mask) | _ => none)
/-- The explicit load of a word under way: its half and its node operand. -/
def ctxLoadOf (k : Core) : Option (Bool × Word) :=
  k.ctx.after.findSome? (fun a => match a.2.2 with | .ctxLoad hi _ o => some (hi, o) | _ => none)

/-- A long operation of the waiting word ends: one transfer of a store or load multiple, or the whole of any other. -/
def longResult (s : State) (c u : Nat) : State :=
  let k := getCore s c
  match (if u = 336 then multiOf k else none) with
  | some (b, l, load, o, mask) =>
    (match multiStep s c load o mask b l with
     | .exc s1 e => raiseWord s1 c e
     | .wait s1 => s1
     | .step s1 true => s1
     | .step s1 false => endWord (updCore s1 c (fun k => unitDone k u)) c)
  | none =>
    match (if u = 336 then ctxLoadOf k else none) with
    | some (hi, o) => if ctxLoadWaits s c hi o then s else endWord (updCore s c (fun k => unitDone k u)) c
    | none => endWord (updCore s c (fun k => unitDone k u)) c

/-- Has the waiting word a long operation of a unit? -/
def waitsUnit (k : Core) (u : Nat) : Bool :=
  k.mode = .waitLong && (k.ctx.flights.any (fun f => f.long && f.unit = u) || k.ctx.after.any (fun a => longUnit a.2.2 == some u)) &&
  !k.ctx.doneUnits.contains u

/-- UNIT_RESULT. -/
def execUnitResult (c : CoreId) (unit : BitVec 9) (s : State) : Host.Outcome State Fault Refusal :=
  let n := c.val
  let u := unit.toNat
  let k := getCore s n
  .next (
    if u = 352 then setCore s n { k with chk := k.chk.map (fun e => (e.1, feedStep e.2)) }
    else if waitsUnit k u then longResult s n u
    else setCore s n (deliverUnit k u))

/-! ### Fills and answers (R152, R158, R160) -/

/-- A data line that has come is installed; where no cache could hold it after all, the fill stands answered OK for what
waits for it. -/
def installFill (s : State) (c : Nat) (f : Fill) : State :=
  let s1 := fillLine s c f.cell f.line f.excl
  if hasLine (getCore s1 c) f.line then updCore s1 c (fun k => { k with fills := k.fills.erase f })
  else updCore s1 c (fun k => { k with fills := k.fills.map (fun x => if x = f then { x with failed := some (stOK, []) } else x) })

/-- DCACHE_FILL_ARRIVAL: the oldest data line that has come is installed, and a word that waits for memory is tried
again. -/
def execDcacheFillArrival (c : CoreId) (s : State) : Host.Outcome State Fault Refusal :=
  let n := c.val
  let k := getCore s n
  .next (
    if k.fills.all (fun f => f.fetch) then s
    else
      let s1 := match k.fills.find? (fun f => !f.fetch && fillReady f) with | some f => installFill s n f | none => s
      if k.mode = .waitLsu then endWord s1 n else s1)

/-- DEVICE_LOAD_ANSWER: the answer that a waiting word's access brought is used. -/
def execDeviceLoadAnswer (c : CoreId) (s : State) : Host.Outcome State Fault Refusal :=
  .next (if (getCore s c.val).mode = .waitLsu then endWord s c.val else s)

/-- BARRIER_WAIT_END: a barrier whose accesses are performed completes. -/
def execBarrierWaitEnd (c : CoreId) (s : State) : Host.Outcome State Fault Refusal :=
  .next (if (getCore s c.val).mode = .waitFence then endWord s c.val else s)

/-! ### Walks and invalidations (R164, R225 to R232) -/

/-- The walk of a fetch ends: an entry installed, or the exception that its word raises if it is transported. A walk for a
word that may be on the wrong path stops without an entry where it would set a bit in memory (R164, R226). -/
def fetchWalk (s : State) (c : Nat) (va : Word) : State :=
  let k := trimQueue (getCore s c)
  let spec : Bool := !(onPath k)
  let done (s : State) (tlb : List TlbEntry) : State := updCore s c (fun k => { k with walk := none, tlb := tlb })
  match walkFor s c k.level.toNat va.toNat .fetch false spec with
  | (w, .ok t) => done w.s (installTlb { t with spec := spec } w.tlb)
  | (w, .error f) =>
    if f.wait then w.s
    else
      let s1 := done w.s w.tlb
      if f.given ∨ nextFetch k ≠ some va then s1
      else updCore s1 c (fun x => queueWords (trimQueue x) [{ addr := va, exc := some (xExc f .fetch false false false va va) }])

/-- The walk of a waiting word's access ends: an entry installed and the word tried again, or its exception. -/
def dataWalk (s : State) (c : Nat) (w : Walk) : State :=
  let k := getCore s c
  let kd : AKind := match lsuOf k with | some a => a.kind | none => if w.write then .store else .load
  let slot : Bool × Bool := match lsuOf k with | some a => (a.slotB, a.long) | none => (false, false)
  let high : Bool := match lsuOf k with | some a => !a.gathers && a.addr 0 != w.va | none => false
  let lane : Nat := match lsuOf k with | some a => if a.gathers then ((List.range a.laneCount).find? (fun i => a.addr i = w.va || a.addr i + BitVec.ofNat 64 (8 - (a.addr i).toNat % 8) = w.va)).getD 0 else 0 | none => 0
  match walkFor s c k.level.toNat w.va.toNat kd w.write false with
  | (q, .ok t) => 
    let s1 := updCore q.s c (fun k => { k with walk := none, tlb := installTlb t q.tlb })
    if k.mode = .waitLsu ∨ k.mode = .waitLong then endWord s1 c else s1
  | (q, .error f) =>
    if f.wait then q.s
    else
    let e := xExc f kd high slot.1 slot.2 k.pc w.va
    let s1 := recordGuard (updCore q.s c (fun k => { k with walk := none, tlb := q.tlb })) c f.guardPa
    raiseWord s1 c { e with fields := e.fields ||| BitVec.ofNat 24 (lane * 4096) }

/-- WALK_COMPLETE. -/
def execWalkComplete (c : CoreId) (s : State) : Host.Outcome State Fault Refusal :=
  .next (
    match (getCore s c.val).walk with
    | none => s
    | some w => if w.fetch then fetchWalk s c.val w.va else dataWalk s c.val w)

/-- TLB_INV_DONE: every TLB has dropped what it was told to, and neither a walk nor an access that began before is left, so
the word completes (R232, R234). -/
def execTlbInvDone (c : CoreId) (s : State) : Host.Outcome State Fault Refusal :=
  let n := c.val
  .next (
    if (getCore s n).mode ≠ .waitLong then s
    else
      let s1 := if (getCore s n).invWait then s else endWord s n
      if (getCore s1 n).invWait ∧ (listedCores s1).all (fun j => (getCore s1 j).walk.isNone) ∧ oldDone s1 then
        endWord (updCore s1 n (fun k => { (dropAfter k isTlbInv) with invWait := false })) n
      else s1)

/-! ### Exceptions and interrupts (R174 to R179) -/

/-- The exception that waits for entry: of the word performed, or the one decode found at the next word. -/
def pendingExc (k : Core) : Option Exc :=
  match k.exc with
  | some e => some e
  | none => match k.dq.head? with | some d => if d.addr = k.pc ∧ k.mode = .run ∧ k.pre.isNone then d.exc else none | none => none

/-- XLATE_GUARD of a fetch is recorded when the word would have run (R230). -/
def fetchGuard (s : State) (c : Nat) (e : Exc) : State :=
  if e.cls = 5 ∨ e.cls = 6 then
    (match probe s c (getCore s c).level.toNat e.addr.toNat .fetch with
     | .error f => recordGuard s c f.guardPa
     | .ok _ => s)
  else s

/-- EXCEPTION_ENTRY. -/
def execExceptionEntry (c : CoreId) (s : State) : Host.Outcome State Fault Refusal :=
  let n := c.val
  let k := getCore s n
  .next (
    match pendingExc k with
    | some e => if k.mode = .run then takeSync (if k.exc.isNone then fetchGuard s n e else s) n e else s
    | none => s)

/-- The asynchronous classes held at a core: its own, and those of its cluster for the core that takes them; on an
S-core the device events (R177, R210, R339). -/
def heldIrqs (s : State) (c : Nat) : List Irq :=
  let k := getCore s c
  k.irqs ++
  (if isS c then (match s.sched.mld with | e :: _ => [{ cls := 0x18, base := 3, detail := BitVec.ofNat 32 e.num }] | [] => [])
   else
     let q := getClu s (cluOf c)
     if q.hvEnable ∧ q.hvCore.toNat = c % 8 then (match q.hvQueue with | m :: _ => [{ cls := m.cls, base := 2, detail := BitVec.ofNat 32 m.detail }] | [] => []) else [])

/-- Where a held class can be taken now: a level at least the current one, with its save set free. -/
def takeable (s : State) (c : Nat) (i : Irq) : Option (Nat × Desc) :=
  match asyncLevel s c i with
  | some (t, d) => let k := getCore s c; if k.level.toNat ≤ t ∧ !(saveSet k t).valid then some (t, d) else none
  | none => none
/-- The held class with the highest target level, the first of them. -/
def bestIrq (s : State) (c : Nat) : List Irq → Option (Irq × Nat × Desc)
  | [] => none
  | i :: is =>
    match takeable s c i, bestIrq s c is with
    | none, r => r
    | some (t, d), none => some (i, t, d)
    | some (t, d), some r => if t < r.2.1 then some r else some (i, t, d)

/-- The class leaves where it was held. -/
def dropIrq (s : State) (c : Nat) (i : Irq) : State :=
  if (getCore s c).irqs.contains i then updCore s c (fun k => { k with irqs := k.irqs.erase i })
  else if isS c then { s with sched := { s.sched with mld := s.sched.mld.drop 1 } }
  else updClu s (cluOf c) (fun q => { q with hvQueue := q.hvQueue.drop 1 })

/-- Does a core take steps: does it run, or does its word wait? -/
def takesSteps (k : Core) : Bool := match k.mode with | .run | .waitLsu | .waitLong | .waitFence => true | _ => false
/-- May a core be interrupted at this step: it runs, its word waits or it is free, no exception is due? -/
def interruptible (k : Core) : Bool :=
  (takesSteps k || k.mode = .free) &&
  (pendingExc k).isNone && !waitsForAnswer k && !k.stepOne && !k.invWait

/-- INTERRUPT_TAKEN. A class that a debugger has asked for is entered as a synchronous one before the next word (R422).
-/
def execInterruptTaken (c : CoreId) (s : State) : Host.Outcome State Fault Refusal :=
  let n := c.val
  let k := getCore s n
  .next (
    if !interruptible k ∨ (!isS n ∧ !domainSteps s (cluOf n)) then s
    else match k.irqs.find? (fun i => i.cls = 0x12) with
      | some i =>
        let s1 := abandonWord (dropIrq s n i) n
        takeSync s1 n { cls := 0x12, base := 1, fields := 1, pc := (getCore s1 n).pc }
      | none =>
        if k.window ≠ 0 then s
        else match bestIrq s n (heldIrqs s n) with
          | none => s
          | some (i, t, d) =>
            let s1 := abandonWord (dropIrq s n i) n
            enterAt s1 n { cls := i.cls, base := i.base, detail := i.detail, pc := (getCore s1 n).pc } { level := t, desc := d, passed := decide (baseOn n i.base < t), escFrom := 0 })

/-- NIW_WINDOW_END: the count of the window runs out (R179). -/
def execNiwWindowEnd (c : CoreId) (s : State) : Host.Outcome State Fault Refusal :=
  .next (updCore s c.val (fun k => if takesSteps k then { k with window := 0 } else k))

/-! ### Preemption (R156, R159, R202, R205, R326) -/

/-- Is a preemption held off: the core runs above L1, or in a window, or with SR1 in use, or a held interrupt of a higher
target level goes first (R177). A cell that is FAULTED is preempted whatever its window and SR1 (R326). -/
def preemptHeld (s : State) (c : Nat) : Bool :=
  let k := getCore s c
  let forced : Bool := match k.cell with | some x => cellState s x = .faulted | none => false
  decide (1 < k.level.toNat) || waitsForAnswer k || k.stopReq || (pendingExc k).isSome || k.invWait ||
  (!forced && (k.window ≠ 0 || k.sr1.valid)) ||
  (k.window = 0 && (match bestIrq s c (heldIrqs s c) with | some r => decide (1 < r.2.1) | none => false))

/-- The preempted task after its save: READY at the head of its level if it was RUNNING. -/
def putBack (s : State) (c t : Nat) : State :=
  if (getTcb s t).state = .running ∧ coreOfTask s t = c then enqHead (updTcb (stopUse s t) t (fun x => { x with state := .ready })) t else s

/-- The core of a preempted task goes to the task it was chosen for, or to the next one (R207). -/
def switchAway (s : State) (c : Nat) (next : Option Nat) : State :=
  match next with
  | some u => dispatchTo (dequeue (freeCore s c) u) u c
  | none => feedCore (freeCore s c) c

/-- A task put back is decided again, as every task that becomes READY (R207). -/
def decideBack (s : State) (t : Nat) : State :=
  if (look [] (readyKey s t) s.sched.ready).contains t then replace s t else s

/-- PREEMPTION_TAKEN: the task is saved and the core switches; a task that was RESET leaves without a save (R205). -/
def execPreemptionTaken (c : CoreId) (s : State) : Host.Outcome State Fault Refusal :=
  let n := c.val
  let k := getCore s n
  .next (
    match k.preempt, k.task with
    | some next, some t =>
      if preemptHeld s n ∨ !takesSteps k ∨ !domainSteps s (cluOf n) then s
      else if k.discard then switchAway (abandonWord s n) n next
      else
        let s1 := updCore (abandonWord s n) n (fun k => finishChk { k with ctx := drainFlights k.ctx })
        match saveTask s1 n t with
        | .ok s2 => decideBack (switchAway (putBack s2 n t) n next) t
        | .error hi => takeSync s1 n { exhausted (getCore s1 n) hi false false with pc := (getCore s1 n).pc }
    | _, _ => s)

end Sys2Proof.Machine
end

