-- ==== Sys2Proof/Machine/Int.lean ====
section
/-! DEFINITION. The integer units: ALU_0 and ALU_1, BFU, MUL and DIV (R115 to R118). -/
namespace Sys2Proof.Machine

/-- A trigger of an ALU: O and the value moved give Q; a compare also gives the predicate that PTARGET names (R115). -/
def aluStep (s : State) (c : CoreId) (u : AluId) (off : Nat) (m : Slot) (cmp : Bool) (op : Word → Word → Word) : State :=
  let b := 112 + 32 * u.val
  slotStep s c.val m (b + off) (fun _ v x => addFlight x { unit := b, q := wide (op (port64 x b) (lo64 v)), pred := if cmp then m.ext.toNat % 8 else 0 })

/-- A compare as an ALU result. -/
def cmpWord (k : Cmp) (o v : Word) : Word := if cmpVal k o v then 1 else 0

/-- T_ADD (R115). -/
def execTAdd (c : CoreId) (u : AluId) (m : Slot) (s : State) : Host.Outcome State Fault Refusal :=
  .next (aluStep s c u 8 m false (fun o v => o + v))
/-- T_SUB (R115). -/
def execTSub (c : CoreId) (u : AluId) (m : Slot) (s : State) : Host.Outcome State Fault Refusal :=
  .next (aluStep s c u 9 m false (fun o v => o - v))
/-- T_AND (R115). -/
def execTAnd (c : CoreId) (u : AluId) (m : Slot) (s : State) : Host.Outcome State Fault Refusal :=
  .next (aluStep s c u 10 m false (fun o v => o &&& v))
/-- T_OR (R115). -/
def execTOr (c : CoreId) (u : AluId) (m : Slot) (s : State) : Host.Outcome State Fault Refusal :=
  .next (aluStep s c u 11 m false (fun o v => o ||| v))
/-- T_XOR (R115). -/
def execTXor (c : CoreId) (u : AluId) (m : Slot) (s : State) : Host.Outcome State Fault Refusal :=
  .next (aluStep s c u 12 m false (fun o v => o ^^^ v))
/-- T_ANDN (R115). -/
def execTAndn (c : CoreId) (u : AluId) (m : Slot) (s : State) : Host.Outcome State Fault Refusal :=
  .next (aluStep s c u 13 m false (fun o v => o &&& ~~~v))
/-- T_SHL (R115). -/
def execTShl (c : CoreId) (u : AluId) (m : Slot) (s : State) : Host.Outcome State Fault Refusal :=
  .next (aluStep s c u 14 m false (fun o v => o <<< shAmt v))
/-- T_SHR (R115). -/
def execTShr (c : CoreId) (u : AluId) (m : Slot) (s : State) : Host.Outcome State Fault Refusal :=
  .next (aluStep s c u 15 m false (fun o v => o >>> shAmt v))
/-- T_SAR (R115). -/
def execTSar (c : CoreId) (u : AluId) (m : Slot) (s : State) : Host.Outcome State Fault Refusal :=
  .next (aluStep s c u 16 m false (fun o v => o.sshiftRight (shAmt v)))
/-- T_ROR (R115). -/
def execTRor (c : CoreId) (u : AluId) (m : Slot) (s : State) : Host.Outcome State Fault Refusal :=
  .next (aluStep s c u 17 m false (fun o v => ror64 o (shAmt v)))
/-- T_MIN (R115). -/
def execTMin (c : CoreId) (u : AluId) (m : Slot) (s : State) : Host.Outcome State Fault Refusal :=
  .next (aluStep s c u 18 m false minS)
/-- T_MAX (R115). -/
def execTMax (c : CoreId) (u : AluId) (m : Slot) (s : State) : Host.Outcome State Fault Refusal :=
  .next (aluStep s c u 19 m false maxS)
/-- T_CMPEQ (R115). -/
def execTCmpeq (c : CoreId) (u : AluId) (m : Slot) (s : State) : Host.Outcome State Fault Refusal :=
  .next (aluStep s c u 20 m true (cmpWord .eq))
/-- T_CMPNE (R115). -/
def execTCmpne (c : CoreId) (u : AluId) (m : Slot) (s : State) : Host.Outcome State Fault Refusal :=
  .next (aluStep s c u 21 m true (cmpWord .ne))
/-- T_CMPLT (R115). -/
def execTCmplt (c : CoreId) (u : AluId) (m : Slot) (s : State) : Host.Outcome State Fault Refusal :=
  .next (aluStep s c u 22 m true (cmpWord .lt))
/-- T_CMPGE (R115). -/
def execTCmpge (c : CoreId) (u : AluId) (m : Slot) (s : State) : Host.Outcome State Fault Refusal :=
  .next (aluStep s c u 23 m true (cmpWord .ge))
/-- T_CMPLTU (R115). -/
def execTCmpltu (c : CoreId) (u : AluId) (m : Slot) (s : State) : Host.Outcome State Fault Refusal :=
  .next (aluStep s c u 24 m true (cmpWord .ltu))
/-- T_CMPGEU (R115). -/
def execTCmpgeu (c : CoreId) (u : AluId) (m : Slot) (s : State) : Host.Outcome State Fault Refusal :=
  .next (aluStep s c u 25 m true (cmpWord .geu))
/-- T_MINU (R115). -/
def execTMinu (c : CoreId) (u : AluId) (m : Slot) (s : State) : Host.Outcome State Fault Refusal :=
  .next (aluStep s c u 26 m false minU)
/-- T_MAXU (R115). -/
def execTMaxu (c : CoreId) (u : AluId) (m : Slot) (s : State) : Host.Outcome State Fault Refusal :=
  .next (aluStep s c u 27 m false maxU)
/-- T_TST (R115). -/
def execTTst (c : CoreId) (u : AluId) (m : Slot) (s : State) : Host.Outcome State Fault Refusal :=
  .next (aluStep s c u 28 m true (cmpWord .tst))

/-- A trigger of the BFU: O, P and the value moved give Q (R116). -/
def bfuStep (s : State) (c : CoreId) (a : Nat) (m : Slot) (op : Word → Word → Word → Word) : State :=
  slotStep s c.val m a (fun _ v x => addFlight x { unit := 176, q := wide (op (port64 x 176) (port64 x 177) (lo64 v)) })

/-- T_EXTRACT (R116). -/
def execTExtract (c : CoreId) (m : Slot) (s : State) : Host.Outcome State Fault Refusal :=
  .next (bfuStep s c 180 m (fun o _ v => bfExtract o v))
/-- T_EXTRACTS (R116). -/
def execTExtracts (c : CoreId) (m : Slot) (s : State) : Host.Outcome State Fault Refusal :=
  .next (bfuStep s c 181 m (fun o _ v => bfExtractS o v))
/-- T_INSERT (R116). -/
def execTInsert (c : CoreId) (m : Slot) (s : State) : Host.Outcome State Fault Refusal :=
  .next (bfuStep s c 182 m bfInsert)
/-- T_CLZ (R116). -/
def execTClz (c : CoreId) (m : Slot) (s : State) : Host.Outcome State Fault Refusal :=
  .next (bfuStep s c 183 m (fun _ _ v => clz64 v))
/-- T_CTZ (R116). -/
def execTCtz (c : CoreId) (m : Slot) (s : State) : Host.Outcome State Fault Refusal :=
  .next (bfuStep s c 184 m (fun _ _ v => ctz64 v))
/-- T_POPC (R116). -/
def execTPopc (c : CoreId) (m : Slot) (s : State) : Host.Outcome State Fault Refusal :=
  .next (bfuStep s c 185 m (fun _ _ v => popc64 v))
/-- T_PERM (R116). -/
def execTPerm (c : CoreId) (m : Slot) (s : State) : Host.Outcome State Fault Refusal :=
  .next (bfuStep s c 186 m (fun o _ v => bfPerm o v))

/-- A trigger of MUL: the halves of the product (R117). -/
def mulStep (s : State) (c : CoreId) (a : Nat) (m : Slot) (so sv : Bool) : State :=
  slotStep s c.val m a (fun _ v x =>
    let p := prod128 so sv (port64 x 192) (lo64 v)
    addFlight x { unit := 192, q := wide (p.setWidth 64), qh := (p >>> 64).setWidth 64 })

/-- T_MUL (R117). -/
def execTMul (c : CoreId) (m : Slot) (s : State) : Host.Outcome State Fault Refusal :=
  .next (mulStep s c 200 m true true)
/-- T_MULU (R117). -/
def execTMulu (c : CoreId) (m : Slot) (s : State) : Host.Outcome State Fault Refusal :=
  .next (mulStep s c 201 m false false)
/-- T_MULSU (R117). -/
def execTMulsu (c : CoreId) (m : Slot) (s : State) : Host.Outcome State Fault Refusal :=
  .next (mulStep s c 202 m true false)

/-- A trigger of DIV: quotient and remainder, a long operation (R118). -/
def divStep (s : State) (c : CoreId) (a : Nat) (m : Slot) (op : Word → Word → Word × Word) : State :=
  slotStep s c.val m a (fun _ v x =>
    let r := op (port64 x 208) (lo64 v)
    addFlight x { unit := 208, q := wide r.1, qh := r.2, long := true })

/-- T_DIV (R118). -/
def execTDiv (c : CoreId) (m : Slot) (s : State) : Host.Outcome State Fault Refusal :=
  .next (divStep s c 216 m divS)
/-- T_DIVU (R118). -/
def execTDivu (c : CoreId) (m : Slot) (s : State) : Host.Outcome State Fault Refusal :=
  .next (divStep s c 217 m divU)

end Sys2Proof.Machine
end

