-- ==== Sys2Proof/Machine/MemFlow.lean ====
section
/-! DEFINITION. The triggers of the LSU, the BRU and of repeat and loop (R119 to R124, R131 to R135). -/
namespace Sys2Proof.Machine

/-- A trigger of the LSU: base, store data and EXT are latched, and the access is made when the word ends (R110, R119). -/
def lsuStep (s : State) (c : CoreId) (a : Nat) (op : LsuOp) (m : Slot) : State :=
  slotStep s c.val m a (trigAfter m (fun _ x v => .lsu op (port64 x 224) v (portVal x 225) m.ext))

/-- T_LD (R119). -/
def execTLd (c : CoreId) (m : Slot) (s : State) : Host.Outcome State Fault Refusal :=
  .next (lsuStep s c 232 .ld m)
/-- T_ST (R119). -/
def execTSt (c : CoreId) (m : Slot) (s : State) : Host.Outcome State Fault Refusal :=
  .next (lsuStep s c 233 .st m)
/-- T_LDPI (R119). -/
def execTLdpi (c : CoreId) (m : Slot) (s : State) : Host.Outcome State Fault Refusal :=
  .next (lsuStep s c 234 .ldpi m)
/-- T_STPI (R119). -/
def execTStpi (c : CoreId) (m : Slot) (s : State) : Host.Outcome State Fault Refusal :=
  .next (lsuStep s c 235 .stpi m)
/-- T_LR (R123). -/
def execTLr (c : CoreId) (m : Slot) (s : State) : Host.Outcome State Fault Refusal :=
  .next (lsuStep s c 236 .lr m)
/-- T_SC (R123). -/
def execTSc (c : CoreId) (m : Slot) (s : State) : Host.Outcome State Fault Refusal :=
  .next (lsuStep s c 237 .sc m)
/-- T_SWAP (R122). -/
def execTSwap (c : CoreId) (m : Slot) (s : State) : Host.Outcome State Fault Refusal :=
  .next (lsuStep s c 238 .swap m)
/-- LSU_T_FADD (R122). -/
def execLsuTFadd (c : CoreId) (m : Slot) (s : State) : Host.Outcome State Fault Refusal :=
  .next (lsuStep s c 239 .fadd m)
/-- T_CAS (R122). -/
def execTCas (c : CoreId) (m : Slot) (s : State) : Host.Outcome State Fault Refusal :=
  .next (lsuStep s c 240 .cas m)

/-- A trigger that leaves one effect for the end of the word. -/
def trigStep (s : State) (c : CoreId) (a : Nat) (m : Slot) (f : Core → Ctx → Word → After) : State :=
  slotStep s c.val m a (trigAfter m (fun k x v => f k x (lo64 v)))

/-- T_BR (R124). -/
def execTBr (c : CoreId) (m : Slot) (s : State) : Host.Outcome State Fault Refusal :=
  .next (trigStep s c 264 m (fun k _ v => .branch (k.pc + v) (indirect m) false))
/-- T_BRI (R124). -/
def execTBri (c : CoreId) (m : Slot) (s : State) : Host.Outcome State Fault Refusal :=
  .next (trigStep s c 265 m (fun _ _ v => .branch v (indirect m) false))
/-- T_CALL (R124). -/
def execTCall (c : CoreId) (m : Slot) (s : State) : Host.Outcome State Fault Refusal :=
  .next (trigStep s c 266 m (fun k _ v => .call (k.pc + v) (indirect m)))
/-- T_CALLI (R124). -/
def execTCalli (c : CoreId) (m : Slot) (s : State) : Host.Outcome State Fault Refusal :=
  .next (trigStep s c 267 m (fun _ _ v => .call v (indirect m)))
/-- T_RET (R124). -/
def execTRet (c : CoreId) (m : Slot) (s : State) : Host.Outcome State Fault Refusal :=
  .next (trigStep s c 268 m (fun _ _ v => .branch v (indirect m) true))
/-- T_RSFLUSH (R151). -/
def execTRsflush (c : CoreId) (m : Slot) (s : State) : Host.Outcome State Fault Refusal :=
  .next (trigStep s c 269 m (fun _ _ _ => .rsflush))
/-- T_REP (R132). -/
def execTRep (c : CoreId) (m : Slot) (s : State) : Host.Outcome State Fault Refusal :=
  .next (trigStep s c 340 m (fun _ _ v => .rep v.toNat))
/-- T_LOOP (R135). -/
def execTLoop (c : CoreId) (m : Slot) (s : State) : Host.Outcome State Fault Refusal :=
  .next (trigStep s c 341 m (fun k _ v => .loop (k.pc + v)))

/-- RC_WRITE (R131). A value above 4,096 writes 4,096. -/
def execRcWrite (c : CoreId) (m : Slot) (s : State) : Host.Outcome State Fault Refusal :=
  .next (slotStep s c.val m 336 (fun _ v x => writeAddr x 336 v))

/-! ### Context movement (R199 to R204) -/

/-- T_SAVE_LO (R199). -/
def execTSaveLo (c : CoreId) (m : Slot) (s : State) : Host.Outcome State Fault Refusal :=
  .next (trigStep s c 342 m (fun _ x _ => .ctxSave false (port64 x 337)))
/-- T_SAVE_HI (R199). -/
def execTSaveHi (c : CoreId) (m : Slot) (s : State) : Host.Outcome State Fault Refusal :=
  .next (trigStep s c 343 m (fun _ x _ => .ctxSave true (port64 x 337)))
/-- T_LOAD_LO (R200). -/
def execTLoadLo (c : CoreId) (m : Slot) (s : State) : Host.Outcome State Fault Refusal :=
  .next (trigStep s c 344 m (fun _ x v => .ctxLoad false (bit v 0) (port64 x 337)))
/-- T_LOAD_HI (R200). -/
def execTLoadHi (c : CoreId) (m : Slot) (s : State) : Host.Outcome State Fault Refusal :=
  .next (trigStep s c 345 m (fun _ x v => .ctxLoad true (bit v 0) (port64 x 337)))
/-- T_STM (R203). -/
def execTStm (c : CoreId) (m : Slot) (s : State) : Host.Outcome State Fault Refusal :=
  .next (trigStep s c 346 m (fun _ x v => .multi false (port64 x 337) (v.setWidth 16)))
/-- T_LDM (R203). -/
def execTLdm (c : CoreId) (m : Slot) (s : State) : Host.Outcome State Fault Refusal :=
  .next (trigStep s c 347 m (fun _ x v => .multi true (port64 x 337) (v.setWidth 16)))

end Sys2Proof.Machine
end

