-- ==== Sys2Proof/Machine/FpVec.lean ====
section
/-! DEFINITION. The FPU and the vector unit (R125 to R130). -/
namespace Sys2Proof.Machine

/-- The format that PREC names (R96). -/
def precOf (m : Slot) : FpFmt := fmtOf (m.ext.getLsbD 0)

/-- An arithmetic trigger of the FPU: O, P and the value moved, the format and the rounding mode give a result and its
flags (R125, R126). -/
def fpuStep (s : State) (c : CoreId) (a : Nat) (m : Slot) (long : Bool) (op : FpFmt → Nat → Nat → Nat → Word → Nat × BitVec 5) : State :=
  slotStep s c.val m a (fun _ v x =>
    let r := op (precOf m) (rmOf x) (port64 x 272).toNat (port64 x 273).toNat (lo64 v)
    addFlight x { unit := 272, q := BitVec.ofNat 256 r.1, flags := r.2, trap := trapOf x, long := long })

/-- FPU_T_FADD (R125). -/
def execFpuTFadd (c : CoreId) (m : Slot) (s : State) : Host.Outcome State Fault Refusal :=
  .next (fpuStep s c 280 m false (fun f rm o _ v => fpAdd f rm o v.toNat))
/-- T_FSUB (R125). -/
def execTFsub (c : CoreId) (m : Slot) (s : State) : Host.Outcome State Fault Refusal :=
  .next (fpuStep s c 281 m false (fun f rm o _ v => fpSub f rm o v.toNat))
/-- T_FMUL (R125). -/
def execTFmul (c : CoreId) (m : Slot) (s : State) : Host.Outcome State Fault Refusal :=
  .next (fpuStep s c 282 m false (fun f rm o _ v => fpMul f rm o v.toNat))
/-- T_FMA (R125). -/
def execTFma (c : CoreId) (m : Slot) (s : State) : Host.Outcome State Fault Refusal :=
  .next (fpuStep s c 283 m false (fun f rm o p v => fpFma f rm o v.toNat p))
/-- T_FDIV (R125). -/
def execTFdiv (c : CoreId) (m : Slot) (s : State) : Host.Outcome State Fault Refusal :=
  .next (fpuStep s c 284 m true (fun f rm o _ v => fpDiv f rm o v.toNat))
/-- T_FSQRT (R125). -/
def execTFsqrt (c : CoreId) (m : Slot) (s : State) : Host.Outcome State Fault Refusal :=
  .next (fpuStep s c 285 m true (fun f rm _ _ v => fpSqrt f rm v.toNat))
/-- T_FMIN (R125). -/
def execTFmin (c : CoreId) (m : Slot) (s : State) : Host.Outcome State Fault Refusal :=
  .next (fpuStep s c 286 m false (fun f _ o _ v => fpMinMax f false o v.toNat))
/-- T_FMAX (R125). -/
def execTFmax (c : CoreId) (m : Slot) (s : State) : Host.Outcome State Fault Refusal :=
  .next (fpuStep s c 287 m false (fun f _ o _ v => fpMinMax f true o v.toNat))
/-- T_FCVTI (R125). -/
def execTFcvti (c : CoreId) (m : Slot) (s : State) : Host.Outcome State Fault Refusal :=
  .next (fpuStep s c 288 m false (fun f rm _ _ v => fpToInt f rm v.toNat))
/-- T_FCVTF (R125). -/
def execTFcvtf (c : CoreId) (m : Slot) (s : State) : Host.Outcome State Fault Refusal :=
  .next (fpuStep s c 289 m false (fun f rm _ _ v => fpFromInt f rm v))
/-- T_FCVTP (R125). -/
def execTFcvtp (c : CoreId) (m : Slot) (s : State) : Host.Outcome State Fault Refusal :=
  .next (fpuStep s c 290 m false (fun f rm _ _ v => fpConvert f (fmtOf (!m.ext.getLsbD 0)) rm v.toNat))

/-- A compare trigger of the FPU: 0 or 1 in Q and in the predicate that EXT[3:1] names. -/
def fcmpStep (s : State) (c : CoreId) (a : Nat) (m : Slot) (op : FpFmt → Nat → Nat → Bool × BitVec 5) : State :=
  slotStep s c.val m a (fun _ v x =>
    let r := op (precOf m) (port64 x 272).toNat (lo64 v).toNat
    addFlight x { unit := 272, q := if r.1 then 1 else 0, pred := m.ext.toNat / 2 % 8, flags := r.2, trap := trapOf x })

/-- T_FCMPEQ (R125). -/
def execTFcmpeq (c : CoreId) (m : Slot) (s : State) : Host.Outcome State Fault Refusal :=
  .next (fcmpStep s c 292 m fpCmpEq)
/-- T_FCMPLT (R125). -/
def execTFcmplt (c : CoreId) (m : Slot) (s : State) : Host.Outcome State Fault Refusal :=
  .next (fcmpStep s c 293 m fpCmpLt)
/-- T_FCMPLE (R125). -/
def execTFcmple (c : CoreId) (m : Slot) (s : State) : Host.Outcome State Fault Refusal :=
  .next (fcmpStep s c 294 m fpCmpLe)
/-- T_FCMPUN (R125). -/
def execTFcmpun (c : CoreId) (m : Slot) (s : State) : Host.Outcome State Fault Refusal :=
  .next (fcmpStep s c 295 m fpCmpUn)

/-- FPU_CSR_WRITE (R126). A reserved RM leaves RM and is recorded when the word completes. -/
def execFpuCsrWrite (c : CoreId) (m : Slot) (s : State) : Host.Outcome State Fault Refusal :=
  .next (slotStep s c.val m 275 (fun _ v x =>
    let y := writeAddr x 275 v
    if 4 < fld (lo64 v) 2 0 then leave m y (.note 0x0003) else y))

/-! ### VEC (R128 to R130) -/

/-- ELEM of a vector trigger. -/
def elemOf (m : Slot) : Nat := m.ext.toNat % 8

/-- A trigger of VEC: O, P and the value moved give Q and flags. -/
def vecStep (s : State) (c : CoreId) (a : Nat) (m : Slot) (op : Nat → VWord → VWord → VWord → VWord × BitVec 5) : State :=
  slotStep s c.val m a (fun _ v x =>
    let r := op (rmOf x) (portVal x 304) v (portVal x 305)
    addFlight x { unit := 304, q := r.1, flags := r.2, trap := trapOf x })

/-- Signed lane minimum and maximum. -/
def laneMin (w a b : Nat) : Nat := if sgn w a < sgn w b then a else b
def laneMax (w a b : Nat) : Nat := if sgn w a < sgn w b then b else a

/-- T_VADD (R128). -/
def execTVadd (c : CoreId) (m : Slot) (s : State) : Host.Outcome State Fault Refusal :=
  .next (vecStep s c 312 m (fun rm o v p => vecMap (elemOf m) rm (fun a b _ => a + b) (fun f rm a b _ => fpAdd f rm a b) o v p))
/-- T_VSUB (R128). -/
def execTVsub (c : CoreId) (m : Slot) (s : State) : Host.Outcome State Fault Refusal :=
  .next (vecStep s c 313 m (fun rm o v p => vecMap (elemOf m) rm (fun a b _ => a + 2 ^ 64 - b) (fun f rm a b _ => fpSub f rm a b) o v p))
/-- T_VMUL (R128). -/
def execTVmul (c : CoreId) (m : Slot) (s : State) : Host.Outcome State Fault Refusal :=
  .next (vecStep s c 314 m (fun rm o v p => vecMap (elemOf m) rm (fun a b _ => a * b) (fun f rm a b _ => fpMul f rm a b) o v p))
/-- T_VFMA (R128). -/
def execTVfma (c : CoreId) (m : Slot) (s : State) : Host.Outcome State Fault Refusal :=
  .next (vecStep s c 315 m (fun rm o v p => vecMap (elemOf m) rm (fun a b q => a * b + q) (fun f rm a b q => fpFma f rm a b q) o v p))
/-- T_VDOT (R128). -/
def execTVdot (c : CoreId) (m : Slot) (s : State) : Host.Outcome State Fault Refusal :=
  .next (vecStep s c 316 m (fun _ o v p => (vecDot (elemOf m) o v p, 0)))
/-- T_VPERM (R128). -/
def execTVperm (c : CoreId) (m : Slot) (s : State) : Host.Outcome State Fault Refusal :=
  .next (vecStep s c 317 m (fun _ o v _ => (vecPerm o v, 0)))
/-- T_VMIN (R128). -/
def execTVmin (c : CoreId) (m : Slot) (s : State) : Host.Outcome State Fault Refusal :=
  .next (vecStep s c 318 m (fun rm o v p => vecMap (elemOf m) rm (fun a b _ => laneMin (elemBits (elemOf m)) a b) (fun f _ a b _ => fpMinMax f false a b) o v p))
/-- T_VMAX (R128). -/
def execTVmax (c : CoreId) (m : Slot) (s : State) : Host.Outcome State Fault Refusal :=
  .next (vecStep s c 319 m (fun rm o v p => vecMap (elemOf m) rm (fun a b _ => laneMax (elemBits (elemOf m)) a b) (fun f _ a b _ => fpMinMax f true a b) o v p))
/-- T_VAND (R128). -/
def execTVand (c : CoreId) (m : Slot) (s : State) : Host.Outcome State Fault Refusal :=
  .next (vecStep s c 320 m (fun _ o v _ => (o &&& v, 0)))
/-- T_VOR (R128). -/
def execTVor (c : CoreId) (m : Slot) (s : State) : Host.Outcome State Fault Refusal :=
  .next (vecStep s c 321 m (fun _ o v _ => (o ||| v, 0)))
/-- T_VXOR (R128). -/
def execTVxor (c : CoreId) (m : Slot) (s : State) : Host.Outcome State Fault Refusal :=
  .next (vecStep s c 322 m (fun _ o v _ => (o ^^^ v, 0)))
/-- T_VSPLAT (R128). -/
def execTVsplat (c : CoreId) (m : Slot) (s : State) : Host.Outcome State Fault Refusal :=
  .next (vecStep s c 323 m (fun _ _ v _ => (vecSplat (elemOf m) v, 0)))
/-- T_VRED (R129). -/
def execTVred (c : CoreId) (m : Slot) (s : State) : Host.Outcome State Fault Refusal :=
  .next (vecStep s c 324 m (fun rm _ v _ => vecRed (elemOf m) rm v))
/-- T_VGATHER (R130). Its lanes are loaded through the LSU when the word ends. -/
def execTVgather (c : CoreId) (m : Slot) (s : State) : Host.Outcome State Fault Refusal :=
  .next (slotStep s c.val m 325 (trigAfter m (fun _ x v => .lsu .gather (port64 x 304) v 0 m.ext)))

end Sys2Proof.Machine
end

