-- ==== Sys2Proof/Machine/Triggers.lean ====
section
/-! DEFINITION. Plain moves, the check-value unit, stimulus ports, barriers, system registers and the other triggers of SYS
(R83, R136 to R140, R172, R180, R182, R205, R215, R216, R232, R233, R250, R267, R310, R427). -/
namespace Sys2Proof.Machine

/-- What a plain move writes: a move into VAL or EXP leaves its operation for the end of the word, and a reserved RM is
recorded. -/
def moveAct (m : Slot) (dst : Nat) (v : VWord) (x : Ctx) : Ctx :=
  if dst = 353 then leave m x (.chk 2 0 (lo64 v))
  else if dst = 354 then leave m x (.chk 3 0 (lo64 v))
  else if dst = 275 ∧ 4 < fld (lo64 v) 2 0 then leave m (writeAddr x 275 v) (.note 0x0003)
  else writeAddr x dst v

/-- MOVE (R83): a plain move to a register, a predicate or an operand port. The moves into FPU.CSR, RC, VAL and EXP act as
their own rows say, and a move into a trigger port is no plain move. -/
def execMove (c : CoreId) (m : Slot) (dst : BitVec 9) (s : State) : Host.Outcome State Fault Refusal :=
  .next (
    if isTrigger dst.toNat then s
    else slotStep s c.val m dst.toNat (fun _ v x => moveAct m dst.toNat v x))

/-! ### CHK (R136, R370 to R378) -/

/-- T_FEED8 (R373). -/
def execTFeed8 (c : CoreId) (m : Slot) (s : State) : Host.Outcome State Fault Refusal :=
  .next (trigStep s c 360 m (fun _ _ v => .chk 0 1 v))
/-- T_FEED16 (R373). -/
def execTFeed16 (c : CoreId) (m : Slot) (s : State) : Host.Outcome State Fault Refusal :=
  .next (trigStep s c 361 m (fun _ _ v => .chk 0 2 v))
/-- T_FEED32 (R373). -/
def execTFeed32 (c : CoreId) (m : Slot) (s : State) : Host.Outcome State Fault Refusal :=
  .next (trigStep s c 362 m (fun _ _ v => .chk 0 4 v))
/-- T_INIT (R370). -/
def execTInit (c : CoreId) (m : Slot) (s : State) : Host.Outcome State Fault Refusal :=
  .next (trigStep s c 363 m (fun _ _ v => .chk 1 0 v))
/-- CHK_VAL_WRITE (R370). -/
def execChkValWrite (c : CoreId) (m : Slot) (s : State) : Host.Outcome State Fault Refusal :=
  .next (trigStep s c 353 m (fun _ _ v => .chk 2 0 v))
/-- CHK_EXP_WRITE (R378). -/
def execChkExpWrite (c : CoreId) (m : Slot) (s : State) : Host.Outcome State Fault Refusal :=
  .next (trigStep s c 354 m (fun _ _ v => .chk 3 0 v))
/-- T_CMP (R377). -/
def execTCmp (c : CoreId) (m : Slot) (s : State) : Host.Outcome State Fault Refusal :=
  .next (trigStep s c 364 m (fun _ _ v => .chk 4 0 v))
/-- T_ABORT (R376). -/
def execTAbort (c : CoreId) (m : Slot) (s : State) : Host.Outcome State Fault Refusal :=
  .next (trigStep s c 365 m (fun _ _ v => .chk 5 0 v))

/-! ### Stimulus ports and barriers (R137, R250) -/

/-- TRC_STIMULUS (R436). -/
def execTrcStimulus (c : CoreId) (port : BitVec 6) (m : Slot) (s : State) : Host.Outcome State Fault Refusal :=
  .next (trigStep s c (448 + port.toNat) m (fun _ _ v => .trc port.toNat v))
/-- T_FENCE_F (R250). -/
def execTFenceF (c : CoreId) (m : Slot) (s : State) : Host.Outcome State Fault Refusal :=
  .next (trigStep s c 384 m (fun _ _ _ => .fence .f))
/-- T_FENCE_S (R250). -/
def execTFenceS (c : CoreId) (m : Slot) (s : State) : Host.Outcome State Fault Refusal :=
  .next (trigStep s c 385 m (fun _ _ _ => .fence .s))
/-- T_FENCE_L (R250). -/
def execTFenceL (c : CoreId) (m : Slot) (s : State) : Host.Outcome State Fault Refusal :=
  .next (trigStep s c 386 m (fun _ _ _ => .fence .l))
/-- T_FENCE_D (R250). -/
def execTFenceD (c : CoreId) (m : Slot) (s : State) : Host.Outcome State Fault Refusal :=
  .next (trigStep s c 387 m (fun _ _ _ => .fence .d))

/-! ### System registers (R139, R140, R215, R216, R232, R233, R267) -/

/-- T_SRRD (R139). -/
def execTSrrd (c : CoreId) (m : Slot) (s : State) : Host.Outcome State Fault Refusal :=
  .next (trigStep s c 388 m (fun _ _ v => .srrd v))
/-- T_SRWR (R139). -/
def execTSrwr (c : CoreId) (m : Slot) (s : State) : Host.Outcome State Fault Refusal :=
  .next (trigStep s c 389 m (fun _ x v => .srwr (port64 x 368) v))
/-- SYS_TIME_READ (R140). A move whose source is SYS.TIME. -/
def execSysTimeRead (c : CoreId) (m : Slot) (dst : BitVec 9) (s : State) : Host.Outcome State Fault Refusal :=
  .next (if isTrigger dst.toNat then s
    else slotStep s c.val { m with src := .port 371 } dst.toNat (fun _ v x => moveAct m dst.toNat v x))

/-- A T_SRWR of a register that has a command of its own: the register number is the row's, whatever SYS.O holds, and the
bits that name the command are the row's. -/
def srStep (s : State) (c : CoreId) (m : Slot) (num : Word) (f : Word → Word) : State :=
  trigStep s c 389 m (fun _ _ v => .srwr num (f v))

/-- TLB_INV_VA (R232). -/
def execTlbInvVa (c : CoreId) (m : Slot) (s : State) : Host.Outcome State Fault Refusal :=
  .next (srStep s c m 0x028 (fun v => putFld v 3 0 1))
/-- TLB_INV_ASID (R232). -/
def execTlbInvAsid (c : CoreId) (m : Slot) (s : State) : Host.Outcome State Fault Refusal :=
  .next (srStep s c m 0x028 (fun v => putFld v 3 0 2))
/-- TLB_INV_CELL_L1 (R232). -/
def execTlbInvCellL1 (c : CoreId) (m : Slot) (s : State) : Host.Outcome State Fault Refusal :=
  .next (srStep s c m 0x028 (fun v => putFld v 3 0 3))
/-- TLB_INV_IPA (R232). -/
def execTlbInvIpa (c : CoreId) (m : Slot) (s : State) : Host.Outcome State Fault Refusal :=
  .next (srStep s c m 0x028 (fun v => putFld v 3 0 4))
/-- TLB_INV_CELL_L2 (R232). -/
def execTlbInvCellL2 (c : CoreId) (m : Slot) (s : State) : Host.Outcome State Fault Refusal :=
  .next (srStep s c m 0x028 (fun v => putFld v 3 0 5))
/-- TLB_INV_HOST (R232). -/
def execTlbInvHost (c : CoreId) (m : Slot) (s : State) : Host.Outcome State Fault Refusal :=
  .next (srStep s c m 0x028 (fun v => putFld v 3 0 6))
/-- CELL_S2_WRITE (R233). -/
def execCellS2Write (c : CoreId) (m : Slot) (s : State) : Host.Outcome State Fault Refusal :=
  .next (srStep s c m 0x031 (fun v => v))
/-- HT_ROOT_WRITE (R233). SYS.O says which of the two roots. -/
def execHtRootWrite (c : CoreId) (m : Slot) (s : State) : Host.Outcome State Fault Refusal :=
  .next (trigStep s c 389 m (fun _ x v => .srwr (if port64 x 368 = 0x025 then 0x025 else 0x024) v))
/-- RESTART (R216). -/
def execRestart (c : CoreId) (m : Slot) (s : State) : Host.Outcome State Fault Refusal :=
  .next (srStep s c m 0x034 (fun v => putFld v 1 0 1))
/-- CELL_STOPPED (R215). -/
def execCellStopped (c : CoreId) (m : Slot) (s : State) : Host.Outcome State Fault Refusal :=
  .next (srStep s c m 0x034 (fun v => putFld v 1 0 2))
/-- IC_INV_LINE (R267). -/
def execIcInvLine (c : CoreId) (m : Slot) (s : State) : Host.Outcome State Fault Refusal :=
  .next (srStep s c m 0x029 (fun v => putFld v 1 0 1))
/-- IC_INV_ALL (R267). -/
def execIcInvAll (c : CoreId) (m : Slot) (s : State) : Host.Outcome State Fault Refusal :=
  .next (srStep s c m 0x029 (fun v => putFld v 1 0 2))

/-! ### Returns, gates, seals, jobs, waits and breakpoints (R172, R180, R182, R205, R310, R427) -/

/-- T_RETURN (R180). -/
def execTReturn (c : CoreId) (m : Slot) (s : State) : Host.Outcome State Fault Refusal :=
  .next (trigStep s c 390 m (fun _ _ _ => .ret))
/-- T_GATE (R182). `k` counts from 0 for T_GATE1. -/
def execTGate (c : CoreId) (k : Fin 3) (m : Slot) (s : State) : Host.Outcome State Fault Refusal :=
  .next (trigStep s c (391 + k.val) m (fun _ _ v => .gate k.val v))
/-- T_SEAL (R172). -/
def execTSeal (c : CoreId) (m : Slot) (s : State) : Host.Outcome State Fault Refusal :=
  .next (trigStep s c 394 m (fun _ _ v => .seal v))
/-- T_JOBEND (R310). -/
def execTJobend (c : CoreId) (m : Slot) (s : State) : Host.Outcome State Fault Refusal :=
  .next (trigStep s c 395 m (fun _ _ _ => .jobend))
/-- T_WAIT (R205). -/
def execTWait (c : CoreId) (m : Slot) (s : State) : Host.Outcome State Fault Refusal :=
  .next (trigStep s c 396 m (fun _ _ _ => .wait))
/-- T_BREAK (R427). -/
def execTBreak (c : CoreId) (m : Slot) (s : State) : Host.Outcome State Fault Refusal :=
  .next (trigStep s c 397 m (fun _ _ _ => .brk))

end Sys2Proof.Machine
end

