-- ==== Sys2Proof/Machine/Sched.lean ====
section
/-! DEFINITION. The event schedulers: arriving events, frets, TCB commands and the CLU registers (R205 to R213). -/
namespace Sys2Proof.Machine

/-! ### Events arrive (R206, R210, R309, R49, R387) -/

/-- Are events routed to a cell held by the composition engine: is it a target being replaced or removed (R49)? -/
def heldCell (s : State) (cell : Nat) : Bool := quiescing s && s.comp.targets.any (fun t => t.1 = cell && t.2 ≠ 2)

/-- The jobs that an event releases for its task. -/
def jobsOn (s : State) (m : EvMsg) : List Nat :=
  ((recsOf s.comp.live tJOB).filter (fun r => ru16 r 4 = m.tcb && ru16 r 8 = m.num && !jobFlag r 2)).map (fun r => ru16 r 0)

/-- SCHED_EVENT_ARRIVAL: the oldest routed event reaches its task's scheduler, with the job releases it carries; it is
held instead for a target cell of a composition change, by the cell that its route names, and for a cluster that is not in
RUN. -/
def execSchedEventArrival (s : State) : Host.Outcome State Fault Refusal :=
  .next (match s.sched.evTasks with
    | [] => s
    | m :: ms =>
      let s0 := { s with sched := { s.sched with evTasks := ms } }
      let x := getTcb s0 m.tcb
      if heldCell s0 m.dest then { s0 with comp := { s0.comp with held := s0.comp.held ++ [{ num := m.num, cell := m.dest, stamp := m.stamp, origin := m.origin }] } }
      else if !clusterTakes s0 x.cluster then holdForCluster s0 x.cluster m
      else
        let s1 := if s0.flt.safe then s0 else (jobsOn s0 m).foldl (fun s j => releaseJob s j m.stamp) s0
        deliverTask s1 m.tcb)

/-- The cluster that takes an asynchronous class for the hypervisor: its own, else the lowest-numbered one enabled. -/
def hvCluster (s : State) (home : Nat) : Option Nat :=
  if (getClu s home).hvEnable then some home else (List.range 16).find? (fun n => (getClu s n).hvEnable)

/-- A class for the hypervisor joins a cluster's queue, or merges with the one queued there. -/
def hvJoin (s : State) (n : Nat) (m : HvMsg) : State :=
  updClu s n (fun c =>
    if c.hvQueue.any (fun x => x.cls = m.cls && x.detail = m.detail) then { c with merged := satAdd c.merged 1 }
    else { c with hvQueue := c.hvQueue ++ [m] })
/-- A class for the hypervisor goes to its cluster, which a wake precedes if it sleeps (R387); while no cluster is enabled
it waits at its home cluster (R210). -/
def hvDeliver (s : State) (m : HvMsg) : State :=
  match hvCluster s m.home with
  | none => hvJoin s m.home m
  | some n =>
    if clusterTakes s n then hvJoin s n m
    else wakeDom { s with pwr := { s.pwr with heldHv := put n (look [] n s.pwr.heldHv ++ [m]) s.pwr.heldHv } } n
/-- The classes that wait at clusters that do not take them go on when a cluster is enabled, where none was: cluster by
cluster, in the order of each queue (DESIGN CHOICE, assumption 59: R210 gives no order between clusters). -/
def hvMove (s : State) : State :=
  let ms := (List.range 16).flatMap (fun n => if (getClu s n).hvEnable then [] else (getClu s n).hvQueue)
  let s1 := (List.range 16).foldl (fun s n => if (getClu s n).hvEnable || (getClu s n).hvQueue.isEmpty then s else updClu s n (fun c => { c with hvQueue := [] })) s
  ms.foldl hvDeliver s1

/-- HV_EVENT_ARRIVAL: the oldest class for the hypervisor is queued at its cluster, or merges with the one queued there. -/
def execHvEventArrival (s : State) : Host.Outcome State Fault Refusal :=
  .next (match s.sched.evHv with
    | [] => s
    | m :: ms => hvDeliver { s with sched := { s.sched with evHv := ms } } m)

/-! ### Frets (R208) -/

/-- The frets of a cluster that are open now. -/
def openNow (s : State) (cl : Nat) : List Nat :=
  match majorOf s cl with
  | some m => ((fretsOf s cl).filter (fun r => fretAt m r s.now.toNat)).map (fun r => ru16 r 2)
  | none => []
/-- Openings and closings that fall together make a single evaluation. -/
def fretsChange (s : State) (cl : Nat) : State := evaluate (updClu s cl (fun c => { c with openFrets := openNow s cl })) cl

/-- FRET_OPEN, at the fret's instant; a cluster that takes no steps finds its frets at its wake (R17). -/
def execFretOpen (cl : CluId) (fret : BitVec 10) (s : State) : Host.Outcome State Fault Refusal :=
  .next (if domainSteps s cl.val ∧ (openNow s cl.val).contains fret.toNat ∧ !(getClu s cl.val).openFrets.contains fret.toNat then fretsChange s cl.val else s)
/-- FRET_CLOSE, at the fret's instant. -/
def execFretClose (cl : CluId) (fret : BitVec 10) (s : State) : Host.Outcome State Fault Refusal :=
  .next (if domainSteps s cl.val ∧ !(openNow s cl.val).contains fret.toNat ∧ (getClu s cl.val).openFrets.contains fret.toNat then fretsChange s cl.val else s)

/-! ### Wake (R388) -/

/-- DOMAIN_WAKE_DONE: the domain runs in its target state, its fences are cleared and its held events delivered; a
cluster's frets and dispatching go on from the instant reached (R17). -/
def execDomainWakeDone (d : Fin 39) (s : State) : Host.Outcome State Fault Refusal :=
  let k := d.val
  let x := getDom s k
  .next (
    if x.state = .waking then
      let ps := if manyStates k then wantedPs s k else 1
      let s1 := updDom s k (fun x => { x with
        state := .run, ps := ps, toPs := none, emulated := false
        bias := if k < 32 then runBias ps else .none, assist := if k < 32 then runAssist ps else .nominal })
      let s2 := if k < 32 then trackRail (setMv s1 k (recordedMv s1 k ps)) (if k < 16 then 0 else 1) k else s1
      let s3 := if 32 ≤ k ∧ k < 36 ∧ x.from' = 1 then (List.range 16).foldl (fun s j =>
          let m := 16 * (k - 32) + j
          if (getHmc s m).state = .selfRefresh then updHmc s m (fun h => { (toReady h) with due := true }) else s) s2 else s2
      let s4 := if k = 36 ∧ x.from' = 2 then createStreams s3 false else s3
      let s5 := deliverHeld (unfenceEps s4 (domEps k)) k
      if k < 16 then fretsChange s5 k else s5
    else s)

/-! ### TCB commands (R193, R205, R213) -/

/-- A task control block returned to DORMANT, its nodes freed; a running task is preempted without saving. -/
def resetTcb (s : State) (t : Nat) : State :=
  let x := getTcb s t
  if x.state = .dormant then s
  else
    let s1 := giveBack (giveBack (stopUse s t) x.cell false x.nodeLo) x.cell true x.nodeHi
    let s2 := forget (updTcb s1 t (fun x => { x with state := .dormant, heldFrom := .dormant, pending := 0, nodeLo := 0, nodeHi := 0, srcLo := 0, fresh := true })) t
    let c := coreOfTask s t
    if (getCore s2 c).task = some t ∧ !(getCore s2 c).discard then vacate (updCore s2 c (fun k => { k with discard := true })) c else s2

/-- A DORMANT task becomes READY with an empty context; where its cell is not ACTIVE it is HELD from there. -/
def startTcb (s : State) (t : Nat) : State :=
  let x := getTcb s t
  if x.state ≠ .dormant then s
  else
    let s1 := updTcb s t (fun x => { x with fresh := true, pending := 0 })
    if cellState s x.cell = .active then makeReady s1 t else updTcb s1 t (fun x => { x with state := .held, heldFrom := .ready })

/-- May a TCB command act on a cell's task: the cell is no safety cell, or it is FAULTED? -/
def mayCommand (s : State) (cell : Nat) : Bool :=
  !(s.comp.isSealed && isSafety s.comp.live cell) || cellState s cell = .faulted

/-- A command for the TCB selected in a cluster. -/
def tcbCommand (s : State) (a : Access) (cl cmd : Nat) (pa : Nat) : State :=
  let t := (getClu s cl).tcbSel.toNat
  let x := getTcb s t
  let res (s : State) (r : BitVec 2) : State := updClu s cl (fun c => { c with tcbResult := r })
  if x.cluster ≠ cl then res s 2
  else if !mayCommand s x.cell then refuse (res s 1) a 0x0305 (regSource pa) pa
  else res (if cmd = 1 then resetTcb s t else startTcb s t) 0

/-- Physical address of a register of a cluster. -/
def cluReg (cl o : Nat) : Nat := 0xF8000100000 + cl * 0x10000 + o

/-! ### CLU registers -/

def taskCode (x : TaskState) : Nat := match x with | .dormant => 0 | .waiting => 1 | .ready => 2 | .running => 3 | .held => 4 | .budgetHeld => 5

/-- A CLU register as it reads. -/
def cluRead (s : State) (r : Reg) (n pa : Nat) : Word :=
  let c := getClu s n
  let x := getTcb s c.tcbSel.toNat
  let sel := c.poolSel.toNat
  match r with
  | .cluSchedStatus =>
    let busy := (List.range 8).foldl (fun m k => m + at' (b2n (getCore s (8 * n + k)).task.isSome) k) 0
    let ready := (s.sched.tcbs.filter (fun e => e.2.cluster = n && e.2.state == .ready)).length
    BitVec.ofNat 64 (at' busy 32 + at' (min ready 0xFFFF) 16 + at' (b2n (!c.openFrets.isEmpty)) 10 + c.openFrets.headD 0)
  | .cluTcbSel => c.tcbSel.setWidth 64
  | .cluTcbW0 => BitVec.ofNat 64 (at' (x.core % 8) 48 + at' x.pending 40 + at' (b2n x.saving) 36 + at' (b2n x.eager) 35 + at' (taskCode x.state) 32 + at' x.prio 24 + at' x.coreMask.toNat 16 + at' x.cluster 12 + x.cell)
  | .cluTcbW1 => BitVec.ofNat 64 x.nodeLo
  | .cluTcbW2 => x.entryVa
  | .cluTcbW3 => BitVec.ofNat 64 (at' (b2n x.job.isSome) 15 + x.job.getD 0)
  | .cluTcbCmd => BitVec.ofNat 64 (at' c.tcbResult.toNat 8)
  | .cluHvEvent => BitVec.ofNat 64 (at' c.merged.toNat 32 + at' (b2n c.hvEnable) 8 + c.hvCore.toNat)
  | .cluPoolSel => c.poolSel.setWidth 64
  | .cluPoolInfo => BitVec.ofNat 64 (at' (poolCount s.comp.live sel true) 48 + at' (poolCount s.comp.live sel false) 32 + at' (poolFree s sel true) 16 + poolFree s sel false)
  | .cluEventDropped => c.dropped.setWidth 64
  | _ => stored s r pa

/-- What a read of a CLU register clears in the half that it reads. -/
def cluClear (s : State) (r : Reg) (n : Nat) (m : Word) : State :=
  match r with
  | .cluHvEvent => if bit m 32 then updClu s n (fun c => { c with merged := 0 }) else s
  | .cluEventDropped => if bit m 0 then updClu s n (fun c => { c with dropped := 0 }) else s
  | _ => s

/-- A write of a CLU register. -/
def cluWrite (s : State) (a : Access) (r : Reg) (n pa : Nat) (v m : Word) : State :=
  let j := judgeReg s a r pa false (cluRead s r n pa) v m
  let fin (s : State) : State := recordCodes s a pa j.codes
  match r with
  | .cluSchedCtrl => writeCtrl s a r pa v m
  | .cluTcbSel => fin (updClu s n (fun c => { c with tcbSel := j.word.setWidth 16 }))
  | .cluTcbCmd => if fld j.cmd 1 0 = 0 then fin s else fin (tcbCommand s a n (fld j.cmd 1 0) pa)
  | .cluHvEvent =>
    let s1 := updClu s n (fun c => { c with hvEnable := bit j.word 8, hvCore := BitVec.ofNat 3 (fld j.word 2 0) })
    fin (if (List.range 16).all (fun k => !(getClu s k).hvEnable) && bit j.word 8 then hvMove s1 else s1)
  | .cluPoolSel => fin (updClu s n (fun c => { c with poolSel := BitVec.ofNat 12 (fld j.word 11 0) }))
  | _ => s

/-- TCB_RESET: CLU_TCB_CMD written with RESET. -/
def execTcbReset (a : Access) (cl : CluId) (v : Word) (s : State) : Host.Outcome State Fault Refusal :=
  .next (cluWrite s a .cluTcbCmd cl.val (cluReg cl.val 0x38) (putFld v 1 0 1) (BitVec.allOnes 64))
/-- TCB_START: CLU_TCB_CMD written with START. -/
def execTcbStart (a : Access) (cl : CluId) (v : Word) (s : State) : Host.Outcome State Fault Refusal :=
  .next (cluWrite s a .cluTcbCmd cl.val (cluReg cl.val 0x38) (putFld v 1 0 2) (BitVec.allOnes 64))

end Sys2Proof.Machine
end

