-- ==== Sys2Proof/Machine/Image.lean ====
section
/-! DEFINITION. The composition image: header, directory, record catalogue, and validation rules 0x01 to 0x0B
(R36 to R44, R486). -/
namespace Sys2Proof.Machine

/-! ### Failures (R44, R486) -/

/-- A failure of a rule: image offset, RECORD_TYPE and SECTION as COMP_REJECT reports them; `none` where no rule states
the value. -/
structure Fail where
  off : Option Nat
  typ : Option Nat
  sec : Option Nat
deriving DecidableEq, Repr

/-- Offset that stands for a record of the composition in force, which lies at no offset of the image. -/
def noOffset : Nat := 2 ^ 32
/-- A failing record. -/
def recFail (r : Rec) : Fail := { off := if r.off < noOffset then some r.off else none, typ := some r.typ, sec := some (r.typ / 4096) }
/-- A failure at no record. -/
def hdrFail (off sec : Nat) : Fail := { off := some off, typ := some 0, sec := some sec }
/-- The failure at the lowest offset. -/
def lowest : List Fail → Option Fail
  | [] => none
  | f :: fs => match lowest fs with
    | none => some f
    | some g => if f.off.getD noOffset ≤ g.off.getD noOffset then some f else some g
/-- The lowest failing code of rules in ascending order, with its lowest failure (R44). -/
def firstFailing : List (Nat × List Fail) → Option (Nat × Fail)
  | [] => none
  | (c, fs) :: rest => match lowest fs with | some f => some (c, f) | none => firstFailing rest

/-! ### Header and directory (R36, R37) -/

/-- A field of the image's bytes; bytes beyond them read as zero. -/
def ifld (b : List Byte) (o n : Nat) : Nat := leNat ((b.drop o).take n)

def hFlags (b : List Byte) : Nat := ifld b 0x0C 4
def hSeq (b : List Byte) : Nat := ifld b 0x08 4
def hLen (b : List Byte) : Nat := ifld b 0x10 4
def hScope (b : List Byte) : Nat := ifld b 0x17 1
def hCount (b : List Byte) : Nat := min 16 (ifld b 0x18 1)
def hProgramme (b : List Byte) : List Byte := (b.drop 0x20).take 16

/-- A directory entry. -/
structure DirEnt where
  /-- its own image offset -/
  pos : Nat
  sec : Nat
  rsvd : Nat
  off : Nat
  len : Nat
  crc : Nat
deriving DecidableEq, Repr

def dirEnt (b : List Byte) (i : Nat) : DirEnt :=
  let p := 0x40 + 16 * i
  { pos := p, sec := ifld b p 1, rsvd := ifld b (p + 1) 3, off := ifld b (p + 4) 4, len := ifld b (p + 8) 4, crc := ifld b (p + 12) 4 }
/-- The entries in use. -/
def dirEnts (b : List Byte) : List DirEnt := (List.range (hCount b)).map (dirEnt b)
/-- The failure of an entry; an ID above 0xF is reported by its low bits. -/
def dirFail (e : DirEnt) : Fail := hdrFail e.pos (e.sec % 16)

/-- A byte of a span that is not zero: its image offset. -/
def nonzeroIn (b : List Byte) (o n : Nat) : Option Nat := ((List.range n).find? (fun i => (b.drop (o + i)).head?.getD 0 ≠ 0)).map (o + ·)

/-- Entries that stand wrong after the ones before them: end reached so far and IDs seen. -/
def misplaced (dend : Nat) : Nat → List Nat → List DirEnt → List Fail
  | _, _, [] => []
  | reach, seen, e :: es =>
    let bad : Bool := e.rsvd ≠ 0 || 0xE ≤ e.sec || seen.contains e.sec || e.off % 8 ≠ 0 || e.off < reach || dend < e.off + e.len
    (if bad then [dirFail e] else []) ++ misplaced dend (max reach (e.off + e.len)) (e.sec :: seen) es

/-- The spans between sections, and after the last one. -/
def gaps (dend : Nat) : List DirEnt → List (Nat × Nat)
  | [] => []
  | [e] => [(e.off + e.len, dend - (e.off + e.len))]
  | e :: f :: es => (e.off + e.len, f.off - (e.off + e.len)) :: gaps dend (f :: es)

/-- Rule 0x06: the directory and the bytes between sections (R37). -/
def rule06 (b : List Byte) : List Fail :=
  let dend := hLen b - 48
  let es := dirEnts b
  misplaced dend 0x140 [] es ++
  ((List.range 16).filter (fun i => hCount b ≤ i && (ifld b (0x40 + 16 * i) 16 != 0))).map (fun i => dirFail (dirEnt b i)) ++
  (gaps dend es).filterMap (fun g => (nonzeroIn b g.1 g.2).map (fun o => hdrFail o 0))

/-! ### The record catalogue (R39) -/

/-- The form of a record: its bytes before a repeated part; the repeated part (offset and size of its count, what is
added to it, bytes each); ranges of fields (offset, size, least, greatest; reserved fields have greatest 0); multiples
(offset, size, divisor); key fields (offset, size); where the CELL_ID lies. -/
structure Form where
  head : Nat
  tail : Option (Nat × Nat × Nat × Nat) := none
  ranges : List (Nat × Nat × Nat × Nat) := []
  mults : List (Nat × Nat × Nat) := []
  key : List (Nat × Nat) := []
  cid : Option Nat := none
deriving DecidableEq, Repr

/-- The catalogue. -/
def formOf (t : Nat) : Option Form :=
  if t = tCELL then some { head := 20, ranges := [(2, 1, 0, 2), (3, 1, 0, 2), (4, 1, 0, 1), (6, 2, 0, 0)], key := [(0, 2)], cid := some 0 }
  else if t = tTASK then some { head := 16, ranges := [(4, 1, 0, 63), (5, 1, 0, 15), (7, 1, 0, 0)], key := [(2, 2)], cid := some 0 }
  else if t = tRECOMP then some { head := 4, ranges := [(2, 1, 0, 2), (3, 1, 0, 0)], key := [(0, 2)], cid := some 0 }
  else if t = tPLACE then some { head := 24, ranges := [(4, 4, 0, 0)], key := [(0, 2)], cid := some 0 }
  else if t = tHBM then some { head := 24, ranges := [(2, 2, 0, 7), (4, 4, 0, 0)], mults := [(8, 8, 0x200000), (16, 8, 0x200000)], key := [(8, 8)], cid := some 0 }
  else if t = tPCRES then some { head := 4, ranges := [(2, 1, 0, 63), (3, 1, 0, 1)], key := [(2, 1), (3, 1)], cid := some 0 }
  else if t = tCLASS then some { head := 8, ranges := [(0, 1, 0, 31), (1, 1, 0, 0), (6, 2, 0, 0)], key := [(0, 1)] }
  else if t = tCCLASS then some { head := 4, ranges := [(3, 1, 0, 0)], key := [(0, 2)], cid := some 0 }
  else if t = tSCRATCH then some { head := 12, ranges := [(2, 1, 0, 15), (3, 1, 0, 0)], mults := [(4, 4, 4096), (8, 4, 4096)], key := [(2, 1), (4, 4)], cid := some 0 }
  else if t = tPOOL then some { head := 16, ranges := [(6, 2, 0, 0)], mults := [(8, 8, 4096)], key := [(0, 2)], cid := some 0 }
  else if t = tSWITCH then some { head := 64 }
  else if t = tPASS then some { head := 10, tail := some (9, 1, 1, 1), ranges := [(0, 2, 0, 1023), (4, 2, 0, 0x64), (6, 2, 0, 0x64), (8, 1, 1, 8), (9, 1, 0, 14)], key := [(0, 2)], cid := some 2 }
  else if t = tDEVTO then some { head := 4, ranges := [(0, 2, 1, 128), (2, 2, 0, 0)] }
  else if t = tROUTE then some { head := 8, ranges := [(0, 2, 0, 4095), (6, 1, 0, 2), (7, 1, 0, 0)], key := [(0, 2)], cid := some 2 }
  else if t = tMAJOR then some { head := 12, ranges := [(0, 1, 0, 15), (1, 3, 0, 0), (4, 4, 10, 10000000)], key := [(0, 1)] }
  else if t = tFRET then some { head := 12, tail := some (1, 1, 0, 2), ranges := [(0, 1, 0, 15), (1, 1, 1, 32), (2, 2, 0, 1023), (8, 4, 1, 2 ^ 32 - 1)], key := [(0, 1), (2, 2)] }
  else if t = tJOB then some { head := 32, ranges := [(0, 2, 0, 16383), (6, 2, 0, 7), (10, 2, 0, 0)], key := [(0, 2)], cid := some 2 }
  else if t = tFILTER then some { head := 20, ranges := [(0, 2, 0, 16383), (2, 2, 1024, 4095), (6, 2, 0, 0x3FF), (18, 1, 0, 1), (19, 1, 0, 0)], key := [(0, 2)], cid := some 4 }
  else if t = tEGRESS then some { head := 16, ranges := [(0, 2, 0, 4095), (4, 2, 0, 0xFFF), (14, 1, 0, 7), (15, 1, 0, 1)], key := [(0, 2)], cid := some 2 }
  else if t = tGATE then some { head := 16, tail := some (2, 2, 0, 8), ranges := [(0, 1, 0, 9), (1, 1, 0, 0), (2, 2, 1, 1024), (4, 4, 1000, 1000000000)], key := [(0, 1)] }
  else if t = tSAFE then some { head := 20, tail := some (4, 2, 0, 1), ranges := [(0, 2, 0, 4095), (3, 1, 0, 0), (4, 2, 1, 256), (14, 2, 0, 0)], key := [(0, 2)] }
  else if t = tVOTE then some { head := 4, ranges := [(2, 1, 0, 38), (3, 1, 0, 0)], key := [(0, 2), (2, 1)], cid := some 0 }
  else if t = tFLOOR then some { head := 4, ranges := [(0, 1, 0, 38), (1, 1, 0, 2), (2, 1, 0, 2), (3, 1, 0, 0)], key := [(0, 1)] }
  else if t = tCHK then some { head := 32, ranges := [(2, 1, 0, 15), (5, 1, 0, 7), (6, 2, 0, 0)], key := [(0, 2), (2, 1)], cid := some 0 }
  else if t = tREACT then some { head := 4, ranges := [(2, 1, 0, 3), (3, 1, 0, 0)], key := [(0, 2)] }
  else if t = tEXTSAFE then some { head := 4, ranges := [(0, 1, 0, 1), (2, 2, 0, 0)] }
  else if t = tDEBUG then some { head := 8, ranges := [(0, 1, 0, 3), (1, 1, 0, 1), (2, 2, 0, 0)] }
  else if t = tEXPERT then some { head := 12, ranges := [(0, 1, 0, 11), (1, 3, 0, 0)], key := [(0, 1)] }
  else if t = tOWNER then some { head := 4, ranges := [(0, 1, 0, 6)], key := [(0, 1), (1, 1)], cid := some 2 }
  else if t = tGPIO then some { head := 4, ranges := [(0, 1, 0, 31), (1, 1, 0, 2), (2, 2, 0, 0)], key := [(0, 1)] }
  else if t = tIOMMU then some { head := 8, key := [(0, 2), (4, 4)], cid := some 2 }
  else none

/-- Instances of a block code of EXPERT_PERMIT, and of a KIND of PERIPH_OWNER (R346, R440, R447). -/
def expertInstances (b : Nat) : Nat := if b = 4 then 16 else if b = 5 then 64 else 1
def periphInstances (k : Nat) : Nat := match k with | 0 | 1 | 2 | 5 => 2 | 3 => 1 | 4 => 32 | _ => 4

/-- LINK_EN of a switch point is in its range (R39, R60): no reserved bit, no bit toward an edge without neighbour, and
local endpoints on at switch point 40. -/
def linkEnOk (n x : Nat) : Bool :=
  x < 32 && !(n / 8 = 0 && x.testBit 0) && !(n % 8 = 7 && x.testBit 1) && !(n / 8 = 7 && x.testBit 2) && !(n % 8 = 0 && x.testBit 3) &&
  (n ≠ 40 || x.testBit 4)

/-- What the catalogue and R60, R347 and R375 state of fields that depend on one another. -/
def crossOk (r : Rec) : Bool :=
  if r.typ = tSWITCH then (List.range 64).all (fun n => linkEnOk n (ru8 r n))
  else if r.typ = tROUTE then ru8 r 6 = 0 || (ru16 r 2 = 0 && ru16 r 4 = 0)
  else if r.typ = tMAJOR then ru32 r 8 < ru32 r 4
  else if r.typ = tFRET then (fretCells r).all (fun c => c < 4096)
  else if r.typ = tFILTER then ru16 r 14 = 0xFFFF || !(ru16 r 14).testBit 12
  else if r.typ = tEGRESS then !(ru16 r 4 / 1024 ≠ 0 && ru16 r 4 % 1024 ≠ 0) && ru16 r 4 / 1024 ≠ 3
  else if r.typ = tGATE then (List.range (ru16 r 2)).all (fun i => rfld r (17 + 8 * i) 3 = 0 && 32 ≤ gateLen r i)
  else if r.typ = tFLOOR then ru8 r 0 < 32 || ru8 r 1 = 1
  else if r.typ = tCHK then
    let vs := [ru64 r 8, ru64 r 16, ru64 r 24]
    if ru8 r 3 = 0xFF then 8 ≤ ru8 r 4 && ru8 r 4 ≤ 64 && vs.all (fun v => v < 2 ^ ru8 r 4)
    else ru8 r 3 ≤ 6 && ru8 r 4 = 0 && ru8 r 5 % 4 = 0 && vs.all (fun v => v = 0)
  else if r.typ = tREACT then faultCodes.contains (ru16 r 0)
  else if r.typ = tEXPERT then ru64 r 4 < 2 ^ expertInstances (ru8 r 0)
  else if r.typ = tOWNER then ru8 r 1 < periphInstances (ru8 r 0)
  else if r.typ = tIOMMU then ru32 r 4 < 2 ^ 20 || ru32 r 4 = 2 ^ 32 - 1
  else true

/-- Is a record formed as the catalogue says? -/
def formOk (f : Form) (r : Rec) : Bool :=
  let n := r.data.length
  let want := f.head + (match f.tail with | some (o, k, add, each) => (rfld r o k + add) * each | none => 0)
  f.head ≤ n && n = want && f.ranges.all (fun q => q.2.2.1 ≤ rfld r q.1 q.2.1 && rfld r q.1 q.2.1 ≤ q.2.2.2) &&
  f.mults.all (fun q => rfld r q.1 q.2.1 % q.2.2 = 0) && (match f.cid with | some o => ru16 r o < 4096 | none => true) && crossOk r

/-- The records of a section: its records in order up to the first that is ill formed, and that one (R38). `bytes` are
the bytes of the section. -/
def readRecs (sec : Nat) : Nat → Nat → List Byte → List Rec × Option Fail
  | 0, _, _ => ([], none)
  | fuel + 1, pos, b =>
    if b.isEmpty then ([], none)
    else
      let t := ifld b 0 2
      let n := ifld b 2 2
      let tot := 4 + (n + 3) / 4 * 4
      let r : Rec := { typ := t, off := pos, data := (b.drop 4).take n }
      let bad : List Rec × Option Fail := ([], some { off := some pos, typ := some t, sec := some sec })
      if b.length < 4 ∨ b.length < tot ∨ t / 4096 ≠ sec then bad
      else match formOf t with
        | none => bad
        | some f =>
          if !(formOk f r) ∨ ((b.drop (4 + n)).take (tot - 4 - n)).any (fun x => x ≠ 0) then bad
          else
            let rest := readRecs sec fuel (pos + tot) (b.drop tot)
            (r :: rest.1, rest.2)

/-- All records of the image, in order, and the ill-formed ones found; a 4,097th IOMMU_MAP is one (R235). -/
def readImage (b : List Byte) : List Rec × List Fail :=
  let parts := (dirEnts b).map (fun e => readRecs e.sec (e.len + 1) e.off ((b.drop e.off).take e.len))
  let rs := parts.flatMap (·.1)
  (rs, parts.filterMap (·.2) ++ ((recsOf rs tIOMMU).drop 4096).map recFail)

/-- The key of a record (R39): its TYPE and its key fields. -/
def keyOf (r : Rec) : List Nat := r.typ :: (match formOf r.typ with | some f => f.key.map (fun k => rfld r k.1 k.2) | none => [])
/-- The cell that a record's CELL_ID names; an EVENT_ROUTE names one only with TARGET 0. -/
def cellOfRec (r : Rec) : Option Nat :=
  if r.typ = tROUTE ∧ ru8 r 6 ≠ 0 then none else (formOf r.typ).bind (fun f => f.cid.map (fun o => ru16 r o))

/-! ### Rules 0x01 to 0x0A (R44) -/

/-- The composition that a partial image would produce (R44, R49): what concerns a target by its CELL_ID goes, an image
record without CELL_ID replaces its keyed counterpart, and the image's records come. -/
def produced (base image : List Rec) : List Rec :=
  let ts := (recsOf image tRECOMP).map (fun r => ru16 r 0)
  let recs := image.filter (fun r => r.typ ≠ tRECOMP)
  let keep (b : Rec) : Bool := !((cellOfRec b).any (fun c => ts.contains c)) &&
    !(recs.any (fun r => (cellOfRec r).isNone && keyOf r = keyOf b))
  (base.filter keep).map (fun b => { b with off := noOffset + b.off % noOffset }) ++ recs

/-- The rules that judge the image's form, in ascending order. The device key and lifecycle are the key gate's. A partial
image is judged by what it would produce in the number of IOMMU_MAPs too (R235). -/
def formRules (s : State) (b : List Byte) (srcLen : Nat) : List (Nat × List Fail) :=
  let at' (o : Nat) (bad : Bool) : List Fail := if bad then [hdrFail o 0] else []
  let n := hLen b
  let scope := hScope b
  let part : Bool := hFlags b % 2 = 1
  [ (0x01, at' 0x00 (ifld b 0 4 ≠ 0x504D4F43) ++ at' 0x04 (ifld b 4 1 ≠ 1) ++ at' 0x06 (ifld b 6 2 ≠ 0x140) ++ at' 0x0C (hFlags b / 2 ≠ 0) ++
      at' 0x18 (ifld b 0x18 1 = 0 || 16 < ifld b 0x18 1) ++ at' 0x19 (ifld b 0x19 7 ≠ 0) ++ at' 0x38 (ifld b 0x38 4 ≠ 0)),
    (0x02, at' 0x14 (ifld b 0x14 2 ≠ 0x9140) ++ at' 0x16 (ifld b 0x16 1 ≠ 0x20)),
    (0x03, at' 0x17 (8 ≤ scope || !scope.testBit s.boot.lc.toNat)),
    (0x04, at' 0x10 (0x4000000 < n || n ≠ srcLen || n % 8 ≠ 0)),
    (0x05, at' 0x3C (crc32c (b.take 0x3C ++ (b.drop 0x40).take 0x100) ≠ ifld b 0x3C 4)),
    (0x06, rule06 b),
    (0x07, ((dirEnts b).filter (fun e => crc32c ((b.drop e.off).take e.len) ≠ e.crc)).map (fun e => hdrFail (e.pos + 12) e.sec)),
    (0x08, at' (n - 48) (!s.boot.unverified && macOf s (b.take (n - 48)) ≠ (b.drop (n - 48)).take 48)),
    (0x09, if s.comp.partialMode then at' 0x08 (hSeq b ≤ s.comp.sealedSeq.toNat) ++ at' 0x0C (!part) ++ at' 0x34 (ifld b 0x34 4 ≠ s.comp.sealedSeq.toNat)
      else at' 0x0C part),
    (0x0A, (readImage b).2 ++ (if s.comp.partialMode then ((recsOf (produced s.comp.live (readImage b).1) tIOMMU).drop 4096).map recFail else [])) ]

end Sys2Proof.Machine
end

