-- ==== Sys2Proof/Machine/Rules.lean ====
section
/-! DEFINITION. Validation rules 0x0B to 0xE1 of the composition engine, judged on the composition that the image would
produce (R44, R49). -/
namespace Sys2Proof.Machine

/-! ### Pairs of records -/

/-- The records of a list that stand in a symmetric relation with another record of it. -/
def clashing (rel : Rec → Rec → Bool) : List Rec → List Rec
  | [] => []
  | r :: rs => (match rs.filter (rel r) with | [] => [] | xs => r :: xs) ++ clashing rel rs
/-- Do two spans, given by start and length, meet? -/
def meets (a n b m : Nat) : Bool := n ≠ 0 && m ≠ 0 && a < b + m && b < a + n

/-- What the rules judge: the composition, its image's LC_SCOPE, whether R43 applies, and the directory of a full image. -/
structure Judge where
  rs : List Rec
  scope : Nat
  unverified : Bool
  dir : Option (List DirEnt)
  /-- the sealed composition, and the image's own records -/
  base : List Rec
  image : List Rec
deriving DecidableEq, Repr

namespace Rules

/-- TASK record of a TCB for a cell. -/
def taskOf (rs : List Rec) (c t : Nat) : Bool := rs.any (fun r => r.typ = tTASK && ru16 r 0 = c && ru16 r 2 = t)
def placed (rs : List Rec) (c cl : Nat) : Bool := (clusterMask rs c).testBit cl

/-- The records judged with the RECOMP_TARGETs of a partial image, which what it produces does not hold. -/
def withTargets (j : Judge) : List Rec := j.rs ++ (if j.dir.isNone then recsOf j.image tRECOMP else [])
/-- 0x0B: two records share a key. -/
def r0B (j : Judge) : List Rec := clashing (fun a b => keyOf a = keyOf b) (withTargets j)

/-- 0x10: a CELL_ID without CELL record; a required section or SWITCH_MAP missing (R40, R486). The target of an ACTION 1 is
a cell removed, for which the image carries nothing. -/
def r10 (j : Judge) : List Fail :=
  let names (r : Rec) : List Nat := (if r.typ = tCELL ∨ (r.typ = tRECOMP ∧ ru8 r 2 = 1) then [] else (cellOfRec r).toList) ++ (if r.typ = tFRET then fretCells r else [])
  ((withTargets j).filter (fun r => (names r).any (fun c => !cellIn j.rs c))).map recFail ++
  (match j.dir with
   | none => []
   | some es =>
     (([0x0, 0x1, 0x2, 0x3, 0x9].filter (fun k => !(es.any (fun e => e.sec = k)))).map (hdrFail 0x40)).take 1 ++
     (if (recsOf j.rs tSWITCH).isEmpty then (es.filter (fun e => e.sec = 3)).map (fun e => { off := some e.pos, typ := some tSWITCH, sec := some 3 }) else []))

/-- 0x11: while unverified, a cell that is not open (R43). -/
def r11 (j : Judge) : List Rec := if j.unverified then (recsOf j.rs tCELL).filter (fun r => ru8 r 2 ≠ 0) else []

/-- 0x12: TCB ranges. -/
def r12 (j : Judge) : List Rec :=
  let cs := recsOf j.rs tCELL
  (recsOf j.rs tTASK).filter (fun r => match cellRec j.rs (ru16 r 0) with
    | some c => !(ru16 c 8 ≤ ru16 r 2 && ru16 r 2 < ru16 c 8 + ru16 c 10)
    | none => false) ++
  clashing (fun a b => meets (ru16 a 8) (ru16 a 10) (ru16 b 8) (ru16 b 10)) cs ++
  cs.filter (fun c => 65536 < ru16 c 8 + ru16 c 10)

/-- 0x13: placement. -/
def r13 (j : Judge) : List Rec :=
  let ps := recsOf j.rs tPLACE
  (recsOf j.rs tCELL).filter (fun c => !(ps.any (fun r => ru16 r 0 = ru16 c 0))) ++
  ps.filter (fun r => (List.range 128).any (fun k => (rfld r 8 16).testBit k && !(ru16 r 2).testBit (k / 8))) ++
  (recsOf j.rs tTASK).filter (fun r => (List.range 8).any (fun k => (ru8 r 6).testBit k && !onCore j.rs (ru16 r 0) (8 * ru8 r 5 + k))) ++
  clashing (fun a b =>
    let ka := kindIn j.rs (ru16 a 0); let kb := kindIn j.rs (ru16 b 0)
    ((ka = 0 && kb = 2) || (ka = 2 && kb = 0)) && rfld a 8 16 &&& rfld b 8 16 ≠ 0) ps

/-- 0x20: HBM slices. -/
def r20 (j : Judge) : List Rec :=
  let hs := recsOf j.rs tHBM
  clashing (fun a b => meets (ru64 a 8) (ru64 a 16) (ru64 b 8) (ru64 b 16)) hs ++ hs.filter (fun r => hbmLimit < ru64 r 8 + ru64 r 16)

/-- 0x21: scratch slices. -/
def r21 (j : Judge) : List Rec :=
  let ss := recsOf j.rs tSCRATCH
  clashing (fun a b => ru8 a 2 = ru8 b 2 && meets (ru32 a 4) (ru32 a 8) (ru32 b 4) (ru32 b 8)) ss ++ ss.filter (fun r => 0x200000 < ru32 r 4 + ru32 r 8)

/-- Base of the window of a pseudo-channel (R281, R282). -/
def windowBase (hmc pc : Nat) : Nat := hmc / 16 * 0xC00000000 + 0x800000000 + (2 * (hmc % 16) + pc) * 0x20000000

/-- 0x22: a reserved pseudo-channel and a slice of another cell. -/
def r22 (j : Judge) : List Rec :=
  clashing (fun a b =>
    let hit (p h : Rec) : Bool := p.typ = tPCRES && h.typ = tHBM && ru16 p 0 ≠ ru16 h 0 && meets (windowBase (ru8 p 2) (ru8 p 3)) 0x20000000 (ru64 h 8) (ru64 h 16)
    hit a b || hit b a) (recsOf j.rs tPCRES ++ recsOf j.rs tHBM)

/-- 0x23: SLC classes. -/
def r23 (j : Judge) : List Rec :=
  let ks := recsOf j.rs tCLASS
  let cc := recsOf j.rs tCCLASS
  let used (r : Rec) : List Nat := classUsers j.rs (ru8 r 0)
  ks.filter (fun r => ru16 r 2 = 0 || ru16 r 4 = 0) ++
  (recsOf j.rs tCELL).filter (fun c => (classOf j.rs (ru16 c 0)).isNone) ++
  cc.filter (fun r => !(ks.any (fun k => ru8 k 0 = ru8 r 2))) ++
  clashing (fun a b => ru8 a 2 = ru8 b 2 && ru16 a 0 ≠ ru16 b 0 && (isProtected j.rs (ru16 a 0) || isProtected j.rs (ru16 b 0))) cc ++
  clashing (fun a b => ru8 a 0 ≠ ru8 b 0 && ru16 a 2 &&& ru16 b 2 ≠ 0 && ru16 a 4 &&& ru16 b 4 ≠ 0 &&
    (used a).any (fun x => (used b).any (fun y => x ≠ y && (isProtected j.rs x || isProtected j.rs y)))) ks

/-- Start and length of the slices that a cell owns in HBM and scratch. -/
def slicesOf (rs : List Rec) (c : Nat) : List (Nat × Nat) :=
  ((recsOf rs tHBM).filter (fun r => ru16 r 0 = c)).map (fun r => (ru64 r 8, ru64 r 16)) ++
  ((recsOf rs tSCRATCH).filter (fun r => ru16 r 0 = c)).map (fun r => (scratchBase + ru8 r 2 * 0x200000 + ru32 r 4, ru32 r 8))
/-- Do the spans cover everything from `a` up to `e`? -/
def covered (spans : List (Nat × Nat)) : Nat → Nat → Nat → Bool
  | 0, a, e => e ≤ a
  | n + 1, a, e => e ≤ a || (match spans.find? (fun q => q.1 ≤ a && a < q.1 + q.2) with | some q => covered spans n (q.1 + q.2) e | none => false)

/-- 0x24: save pools. -/
def r24 (j : Judge) : List Rec :=
  (recsOf j.rs tPOOL).filter (fun r =>
    let c := ru16 r 0
    let lo := ru16 r 2; let hi := ru16 r 4
    let sl := slicesOf j.rs c
    let need := if isProtected j.rs c then max 1 (((cellRec j.rs c).map (fun k => ru16 k 10)).getD 0) else 1
    lo < need || hi < need || !covered sl (sl.length + 1) (ru64 r 8) (ru64 r 8 + 512 * lo + 1536 * hi))

end Rules

/-! ### The mesh (R55, R60, R67) -/

namespace Rules

/-- 0x30: Pass routes. -/
def r30 (j : Judge) : List Rec :=
  let m := switchMap j.rs
  (recsOf j.rs tPASS).filter (fun r =>
    let p := routeOfPass r
    !(chainOn m p && p.head? == some (epSwitch (ru16 r 4)) && p.getLast? == some (epSwitch (ru16 r 6)) && localOn m (ru16 r 4) && localOn m (ru16 r 6)))

/-- The links that a Pass reserves lanes of (R67): mesh links, and the local link of endpoint e as (64, e). -/
def linksOf (r : Rec) : List (Nat × Nat) := (routeLinks (routeOfPass r)).eraseDups ++ [(64, ru16 r 4), (64, ru16 r 6)].eraseDups
/-- Lanes reserved on a link. -/
def lanesOn (rs : List Rec) (l : Nat × Nat) : Nat := (((recsOf rs tPASS).filter (fun r => (linksOf r).contains l)).map (fun r => ru8 r 8)).sum
/-- 0x31: more than 24 lanes of a link reserved. -/
def r31 (j : Judge) : List Rec := (recsOf j.rs tPASS).filter (fun r => (linksOf r).any (fun l => 24 < lanesOn j.rs l))

/-- 0x32: a protected cell's scratch slice not reached by its Passes. -/
def r32 (j : Judge) : List Rec :=
  (recsOf j.rs tSCRATCH).filter (fun r =>
    let c := ru16 r 0; let e := 0x10 + ru8 r 2
    isProtected j.rs c && (List.range 16).any (fun n => placed j.rs c n &&
      !((recsOf j.rs tPASS).any (fun p => ru16 p 2 = c && ((ru16 p 4 = n && ru16 p 6 = e) || (ru16 p 4 = e && ru16 p 6 = n))))))

/-- 0x40: event routes. -/
def r40 (j : Judge) : List Rec :=
  (recsOf j.rs tROUTE).filter (fun r => ru8 r 6 = 0 &&
    (!taskOf j.rs (ru16 r 2) (ru16 r 4) || (recsOf j.rs tFILTER).any (fun f => ru16 f 2 = ru16 r 0 && ru16 f 4 ≠ ru16 r 2)))

/-- 0x41: a task's cluster. -/
def r41 (j : Judge) : List Rec := (recsOf j.rs tTASK).filter (fun r => !placed j.rs (ru16 r 0) (ru8 r 5))

/-- 0x50 and 0x51: frets. -/
def r50 (j : Judge) : List Rec :=
  let fs := recsOf j.rs tFRET
  fs.filter (fun r => match findRec j.rs tMAJOR (fun m => ru8 m 0 = ru8 r 0) with | some m => ru32 m 4 < ru32 r 4 + ru32 r 8 | none => true) ++
  clashing (fun a b => ru8 a 0 = ru8 b 0 && meets (ru32 a 4) (ru32 a 8) (ru32 b 4) (ru32 b 8)) fs
def r51 (j : Judge) : List Rec := (recsOf j.rs tFRET).filter (fun r => (fretCells r).any (fun c => !placed j.rs c (ru8 r 0)))

/-- 0x60 to 0x62: jobs; the core floors are those of R16, in units of 10 ps. -/
def r60 (j : Judge) : List Rec :=
  (recsOf j.rs tJOB).filter (fun r => !taskOf j.rs (ru16 r 2) (ru16 r 4) ||
    (!jobFlag r 2 && !((routeOf j.rs (ru16 r 8)).any (fun q => ru8 q 6 = 0 && ru16 q 4 = ru16 r 4))))
def r61 (j : Judge) : List Rec :=
  (recsOf j.rs tJOB).filter (fun r => ru32 r 20 < ru32 r 16 || ru32 r 20 < 200 || (jobFlag r 2 && ru32 r 12 < ru32 r 20))
def coreFloor (ps : Nat) : Nat := match ps with | 0 => 32 | 1 => 40 | _ => 55
def r62 (j : Judge) : List Rec :=
  (recsOf j.rs tJOB).filter (fun r => 100 * ru32 r 16 < ru32 r 24 * coreFloor (((cellRec j.rs (ru16 r 2)).map (fun c => ru8 c 3)).getD 0) + 100 * ru32 r 28)

/-- 0x70: egress streams. -/
def r70 (j : Judge) : List Rec :=
  (recsOf j.rs tEGRESS).filter (fun r =>
    (ru16 r 12 ≠ 0xFFFF && !((recsOf j.rs tSAFE).any (fun f => ru16 f 0 = ru16 r 12))) ||
    ((isSafety j.rs (ru16 r 2) || (ru8 r 15).testBit 0) && (ru16 r 12 = 0xFFFF || ru32 r 8 = 0)))

/-- Bytes of counter, check value, length field before the counter and data ID field after it that the guard writes
for a profile (R365). -/
def profileFields (p : Nat) : Option (Nat × Nat × Nat × Nat) :=
  match p with | 4 => some (2, 4, 2, 4) | 5 => some (1, 2, 0, 0) | 7 => some (4, 8, 4, 4) | 11 => some (1, 1, 0, 0) | _ => none
/-- 0x71: safe frames. -/
def r71 (j : Judge) : List Rec :=
  (recsOf j.rs tSAFE).filter (fun r =>
    let n := ru16 r 4; let cnt := ru16 r 10
    ru8 r 2 ≠ 0 && (match profileFields (ru8 r 2) with
      | none => true
      | some (c, k, l, d) => n < ru16 r 6 + ru16 r 8 || n < cnt + c + d || cnt < l || n < ru16 r 12 + k))

/-- 0x72: two filters raise one event for different cells. -/
def r72 (j : Judge) : List Rec := clashing (fun a b => ru16 a 2 = ru16 b 2 && ru16 a 4 ≠ ru16 b 4) (recsOf j.rs tFILTER)
/-- 0x73: a gate list that does not sum to its cycle. -/
def r73 (j : Judge) : List Rec := (recsOf j.rs tGATE).filter (fun r => ((List.range (ru16 r 2)).map (gateLen r)).sum ≠ gateCycle r)
/-- 0x74: a Pass of another cell. -/
def r74 (j : Judge) : List Rec :=
  let owns (c p : Nat) : Bool := (recsOf j.rs tPASS).any (fun r => ru16 r 0 = p && ru16 r 2 = c)
  (recsOf j.rs tFILTER).filter (fun r => !owns (ru16 r 4) (ru16 r 16)) ++ (recsOf j.rs tEGRESS).filter (fun r => !owns (ru16 r 2) (ru16 r 6))

/-- 0x90: floors of the domains that carry a protected cell (R40, R485). -/
def r90 (j : Judge) : List Rec :=
  let floors := recsOf j.rs tFLOOR
  let breaks (d : Nat) (c : Rec) : Bool :=
    isProtected j.rs (ru16 c 0) && carries j.rs d (ru16 c 0) && (idleState j.rs d = 2 || (d < 32 && ru8 c 3 < slowestPs j.rs d))
  floors.filter (fun f => (16 ≤ ru8 f 0 && ru8 f 0 < 32 && ru8 f 1 = 2) || (recsOf j.rs tCELL).any (breaks (ru8 f 0))) ++
  (recsOf j.rs tCELL).filter (fun c => (List.range 39).any (fun d => !(floors.any (fun f => ru8 f 0 = d)) && breaks d c))
/-- 0x91: a vote for a domain that carries nothing of the cell. -/
def r91 (j : Judge) : List Rec := (recsOf j.rs tVOTE).filter (fun r => !carries j.rs (ru8 r 2) (ru16 r 0))

/-- 0xA0: an expert preset without EXPERT_PERMIT of every cluster of the cell. -/
def rA0 (j : Judge) : List Rec :=
  (recsOf j.rs tCHK).filter (fun r => ru8 r 3 = 0xFF && (List.range 16).any (fun n => placed j.rs (ru16 r 0) n && !expertPermit j.rs 4 n))
/-- 0xB0: a reaction below the default class. -/
def rB0 (j : Judge) : List Rec := (recsOf j.rs tREACT).filter (fun r => ru8 r 2 < defaultClass (ru16 r 0))
/-- 0xC0: full debug outside DEVELOPMENT. -/
def rC0 (j : Judge) : List Rec := if j.scope / 2 % 4 ≠ 0 then (recsOf j.rs tDEBUG).filter (fun r => ru8 r 0 = 3) else []
/-- 0xD0: peripheral owners. -/
def rD0 (j : Judge) : List Rec :=
  (recsOf j.rs tOWNER).filter (fun r => (ru8 r 0 = 1 && ru8 r 1 = 0) ||
    (ru8 r 0 = 4 && isProtected j.rs (ru16 r 2) && !((recsOf j.rs tGPIO).any (fun g => ru8 g 0 = ru8 r 1))))

/-- Does a record concern a cell: it names it, or it is a setting that the cell rests on? -/
def concerns (rs : List Rec) (r : Rec) (c : Nat) : Bool :=
  cellOfRec r = some c ||
  ((r.typ = tMAJOR || r.typ = tFRET) && placed rs c (ru8 r 0)) ||
  (r.typ = tCLASS && classOf rs c = some (ru8 r 0)) ||
  (r.typ = tSAFE && (recsOf rs tEGRESS).any (fun e => ru16 e 2 = c && ru16 e 12 = ru16 r 0)) ||
  (r.typ = tGATE && (recsOf rs tEGRESS).any (fun e => ru16 e 2 = c && (ru16 e 4).testBit (ru8 r 0))) ||
  (r.typ = tGPIO && ownerOf rs 4 (ru8 r 0) = some c) ||
  (r.typ = tFLOOR && carries rs (ru8 r 0) c)

/-- 0xE0: what a partial image may not do. A record that takes the place of one of a safety cell, by its key, changes it. -/
def rE0 (j : Judge) : List Fail :=
  if j.dir.isSome then []
  else
    let same (r : Rec) : Bool := j.base.any (fun b => b.typ = r.typ && b.data = r.data)
    let safe1 (rs : List Rec) (r : Rec) : Bool := (cellsOf rs).any (fun c => isSafety rs c && concerns rs r c)
    let safe (rs : List Rec) (r : Rec) : Bool := safe1 rs r || rs.any (fun b => keyOf b = keyOf r && b.data ≠ r.data && safe1 rs b)
    (if (recsOf j.image tRECOMP).isEmpty then [{ off := none, typ := none, sec := none }] else []) ++
    (j.image.filter (fun r => r.typ / 4096 = 0xB || r.typ / 4096 = 0xC || r.typ = tSWITCH || r.typ = tDEVTO ||
      (!same r && (safe j.base r || safe j.rs r)))).map recFail
/-- 0xE1: targets absent from, or present in, the sealed image. -/
def rE1 (j : Judge) : List Rec := (recsOf j.image tRECOMP).filter (fun r => (ru8 r 2 = 2) == cellIn j.base (ru16 r 0))

end Rules

/-- Rules 0x0B to 0xE1, in ascending order. -/
def planRules (j : Judge) : List (Nat × List Fail) :=
  let f (rs : List Rec) : List Fail := rs.map recFail
  [ (0x0B, f (Rules.r0B j)), (0x10, Rules.r10 j), (0x11, f (Rules.r11 j)), (0x12, f (Rules.r12 j)), (0x13, f (Rules.r13 j)),
    (0x20, f (Rules.r20 j)), (0x21, f (Rules.r21 j)), (0x22, f (Rules.r22 j)), (0x23, f (Rules.r23 j)), (0x24, f (Rules.r24 j)) ] ++
  [ (0x30, f (Rules.r30 j)), (0x31, f (Rules.r31 j)), (0x32, f (Rules.r32 j)), (0x40, f (Rules.r40 j)), (0x41, f (Rules.r41 j)),
    (0x50, f (Rules.r50 j)), (0x51, f (Rules.r51 j)), (0x60, f (Rules.r60 j)), (0x61, f (Rules.r61 j)), (0x62, f (Rules.r62 j)) ] ++
  [ (0x70, f (Rules.r70 j)), (0x71, f (Rules.r71 j)), (0x72, f (Rules.r72 j)), (0x73, f (Rules.r73 j)), (0x74, f (Rules.r74 j)),
    (0x90, f (Rules.r90 j)), (0x91, f (Rules.r91 j)), (0xA0, f (Rules.rA0 j)), (0xB0, f (Rules.rB0 j)), (0xC0, f (Rules.rC0 j)),
    (0xD0, f (Rules.rD0 j)), (0xE0, Rules.rE0 j), (0xE1, f (Rules.rE1 j)) ]


/-- What the rules judge for the image that the engine holds. -/
def judgeOf (s : State) (b : List Byte) : Judge :=
  let rs := (readImage b).1
  if s.comp.partialMode then
    { rs := produced s.comp.live rs, scope := hScope b, unverified := s.boot.unverified, dir := none, base := s.comp.live, image := rs }
  else { rs := rs, scope := hScope b, unverified := s.boot.unverified, dir := some (dirEnts b), base := [], image := rs }

end Sys2Proof.Machine
end

