-- ==== Sys2Proof/Machine/FabOps.lean ====
section
/-! DEFINITION. The fabric's structure: switch map, Passes, paths, link protection and the FAB registers (R55 to R81). -/
namespace Sys2Proof.Machine

/-- SOURCE of a switch point and its output links (R335). -/
def switchSource (n : Nat) : BitVec 16 := src 0x64 2 n

/-! ### Structure (R60, R66, R80, R81) -/

/-- Every outstanding transaction has completed or has timed out. -/
def noneOutstanding (s : State) : Bool := s.fab.txns.all (fun t => t.late)
/-- FABRIC_STRUCT_LIVE: the composed SWITCH_MAP, Passes and DEVICE_TIMEOUT become live together (R81). -/
def execFabricStructLive (s : State) : Host.Outcome State Fault Refusal :=
  let rs := s.comp.live
  .next (if s.fab.changing ∧ noneOutstanding s then
      updFab s (fun f => { f with structLive := true, changing := false, swmap := switchMap rs, passes := passesOf rs, timeout := composedTimeout rs })
    else s)

/-! ### Links (R59, R61, R67, R72 to R74) -/

/-- What a port of a switch point leads to or comes from: a neighbour or an endpoint (R55, R59). -/
inductive LinkTo where
  | mesh (sp : Nat) | ep (e : Nat) | none
deriving DecidableEq, Repr
def linkTo (sp port : Nat) : LinkTo :=
  if port < 4 then
    match (List.range 64).find? (fun b => portTo sp b == some port) with
    | some b => .mesh b
    | none => .none
  else match ((localEps sp).drop (port % 4)).head? with
    | some e => if port < 12 then .ep e else .none
    | none => .none
/-- FAB_LINK_STATUS.STATE: 0 UP, 1 DISABLED, 2 DOWN, 3 no link. -/
def linkState (s : State) (sp port : Nat) : Nat :=
  let on : Bool := match linkTo sp port with
    | .mesh b => linkOn (mapNow s) sp b
    | _ => (linkEn (mapNow s) sp).testBit 4
  if linkTo sp port = .none then 3 else if !on then 1 else if (getLink s sp port).down then 2 else 0
/-- The Passes that cross a link direction (R67), by rising PASS_ID. -/
def passesOn (s : State) (sp port : Nat) : List Pass :=
  let on := s.fab.passes.filter (fun p =>
    match linkTo sp port with
    | .mesh b => (routeLinks p.route).contains (min sp b, max sp b)
    | .ep e => p.src = e || p.dst = e
    | .none => false)
  on.foldl (fun l p => l.filter (fun q => q.id ≤ p.id) ++ [p] ++ l.filter (fun q => p.id < q.id)) []
/-- Lanes that Passes reserve on a link direction (R67). -/
def reservedLanes (s : State) (sp port : Nat) : Nat := ((passesOn s sp port).map (·.lanes)).sum
/-- The lanes of a Pass on a link direction. Which of the 32 they are is not stated: here the Passes take them from lane 0
upward in the order of PASS_ID (DESIGN CHOICE, assumption 62). -/
def passLanes (id : Nat) : List Pass → Nat → List Nat
  | [], _ => []
  | p :: ps, first => if p.id = id then (List.range p.lanes).map (first + ·) else passLanes id ps (first + p.lanes)
/-- The lanes on which a packet may start on a link direction: its Pass's, or those of the packet plane (R61, R67). -/
def lanesFor (s : State) (pass : Option Nat) (sp port : Nat) : List Nat :=
  match pass with
  | some id => passLanes id (passesOn s sp port) 0
  | none => (List.range 32).drop (reservedLanes s sp port)

/-! ### Packets on links (R61, R63, R71, R82) -/

/-- The link directions that a packet of a transaction crosses, in order. -/
def packetHops (t : Txn) (answer : Bool) : List (Nat × Nat) :=
  if answer then hopsOf t.back t.dst (initEp t.init) else hopsOf t.route (initEp t.init) t.dst
def packetWords (t : Txn) (answer : Bool) : Nat := if answer then ansWords t else reqWords t
/-- A packet at one of its hops, and whether all its words have been accepted there. -/
def hopOf (s : State) (id : Nat) (answer : Bool) (h : Nat) : Option PacketHop :=
  s.fab.packets.find? (fun p => p.txn = id && p.answer == answer && p.hop = h)
def hopFull (s : State) (p : PacketHop) : Bool := match findTxn s p.txn with | some t => decide (packetWords t p.answer ≤ p.got.length) | none => true
/-- Has a packet whose words are seen on links been reassembled at its end (R63)? -/
def packetThere (s : State) (t : Txn) (answer : Bool) : Bool :=
  let n := (packetHops t answer).length
  !(s.fab.packets.any (fun p => p.txn = t.id && p.answer == answer)) || ((hopOf s t.id answer (n - 1)).map (hopFull s)).getD false
/-- The input port by which a packet reaches a switch point for its hop `h`; 12 at the source itself. -/
def inputOf (t : Txn) (answer : Bool) (h : Nat) : Nat :=
  let hs := packetHops t answer
  if h = 0 then 12
  else match hs[h - 1]?, hs[h]? with
    | some (a, p), some (sp, _) => if 8 ≤ p then p else (portTo sp a).getD 12
    | _, _ => 12
/-- The transactions that one keeps behind, there and back: those issued before it of the same initiator and stream to the
same target (R64), and those issued before it on the same Pass from the same end (R71). -/
def earlier (s : State) (t : Txn) : List Txn :=
  (s.fab.txns.takeWhile (fun q => q.id ≠ t.id)).filter (fun q => !q.atPort &&
    ((q.init == t.init && q.stream == t.stream && q.dst = t.dst) || (t.pass.isSome && q.pass == t.pass && initEp q.init = initEp t.init)))
/-- The input ports that have a packet of the packet plane waiting for a port of a switch point: its first word is there,
and none of its words has gone on. -/
def contenders (s : State) (sp port : Nat) : List Nat :=
  s.fab.packets.filterMap (fun p =>
    match findTxn s p.txn with
    | some t =>
      if t.pass.isNone ∧ !p.got.isEmpty ∧ (packetHops t p.answer)[p.hop + 1]? = some (sp, port) ∧ (hopOf s p.txn p.answer (p.hop + 1)).isNone
      then some (inputOf t p.answer (p.hop + 1)) else none
    | none => none)
/-- The round-robin choice among inputs (R30, R63): the next one in port order after the one granted last. -/
def nextInput (last : Nat) (ins : List Nat) : Option Nat :=
  ((List.range 16).map (fun i => (last + 1 + i) % 16)).find? (fun x => ins.contains x)
/-- May a packet start on a link direction: no other packet under way there uses its lanes (R82), and the output port's
arbiter grants its input port (R63). Of one Pass, and of one input port, the packet that came first goes first (R71). -/
def mayStart (s : State) (t : Txn) (answer : Bool) (h sp port : Nat) : Bool :=
  let lanes := lanesFor s t.pass sp port
  let key := linkKey sp port
  !(s.fab.packets.any (fun p => p.link = key && !hopFull s p && p.lanes.any lanes.contains)) &&
  (if h = 0 then (earlier s t).all (fun q => (hopOf s q.id answer 0).isSome || (!answer && q.done.isSome))
   else
    ((t.pass.isSome || nextInput (look 15 key s.fab.grants) (contenders s sp port) = some (inputOf t answer h)) &&
     !((s.fab.packets.takeWhile (fun p => !(p.txn = t.id && p.answer == answer && p.hop + 1 = h))).any (fun p =>
        match findTxn s p.txn with
        | some q => q.pass == t.pass && (packetHops q p.answer)[p.hop + 1]? = some (sp, port) && inputOf q p.answer (p.hop + 1) = inputOf t answer h &&
            (hopOf s p.txn p.answer (p.hop + 1)).isNone
        | none => false))))
/-- May a word of a packet be sent on a lane of a link direction: it has reached that switch point and not gone on, and the
lane is its packet's. -/
def maySend (s : State) (p : PacketWord) (sp port lane : Nat) : Option (Txn × Nat) :=
  match findTxn s p.txn with
  | none => none
  | some t =>
    match (packetHops t p.answer).findIdx? (· = (sp, port)) with
    | none => none
    | some h =>
      let came : Bool := match h with | 0 => true | k + 1 => ((hopOf s t.id p.answer k).map (fun x => x.got.contains p.word)).getD false
      let under : Bool := !t.atPort && t.done.isSome == p.answer && decide (p.word < packetWords t p.answer)
      let lane' : Bool := match hopOf s t.id p.answer h with
        | some x => x.lanes.contains lane && !x.sent.contains p.word
        | none => (lanesFor s t.pass sp port).contains lane && mayStart s t p.answer h sp port
      if came && under && lane' then some (t, h) else none
/-- A word of a packet is sent: its first on a link direction takes the lanes and the grant. -/
def sendPart (s : State) (t : Txn) (p : PacketWord) (h sp port : Nat) : State :=
  let key := linkKey sp port
  match hopOf s t.id p.answer h with
  | some x => updFab s (fun f => { f with packets := f.packets.map (fun y => if y = x then { y with sent := y.sent ++ [p.word] } else y) })
  | none =>
    let i := inputOf t p.answer h
    updFab s (fun f => { f with
      packets := f.packets ++ [{ txn := t.id, answer := p.answer, hop := h, link := key, input := i, lanes := lanesFor s t.pass sp port, sent := [p.word] }]
      grants := if t.pass.isNone && h ≠ 0 then put key i f.grants else f.grants })
/-- A word of a packet is accepted at the end of a link direction. -/
def gotPart (s : State) (part : Option PacketWord) (sp port : Nat) : State :=
  match part with
  | none => s
  | some p => updFab s (fun f => { f with packets := f.packets.map (fun y =>
      if y.txn = p.txn && y.answer == p.answer && y.link = linkKey sp port && !y.got.contains p.word then { y with got := y.got ++ [p.word] } else y) })

/-! ### Words on a lane (R72, R74) -/

def laneKey (sp port lane : Nat) : Nat := linkKey sp port * 32 + lane
def getLane (s : State) (k : Nat) : Lane := look {} k s.fab.lanes
def updLane (s : State) (k : Nat) (f : Lane → Lane) : State := updFab s (fun b => { b with lanes := put k (f (getLane s k)) b.lanes })
/-- LIMIT: consecutive failed resends of one word before DOWN. -/
def replayLimit (s : State) : Nat := fld (stored s .fabReplayLimit (fabBase + 0x18)) 3 0
/-- Is an error injection armed for this lane? -/
def injectArmed (s : State) (sp port lane : Nat) : Bool :=
  let w := stored s .fabErrInject (fabBase + 0x20)
  bit w 14 && fld w 13 9 = lane && fld w 8 6 = port && fld w 5 0 = sp

/-- The last 16 of a replay buffer with a word added. -/
def keep16 (b : List LaneWord) (x : LaneWord) : List LaneWord := (b ++ [x]).drop (b.length + 1 - 16)
/-- What the sender of a lane puts on it: a new word, whose index is the next, in the plane that the lane belongs to and
while fewer than 16 words await their acceptance; or again a word of its replay buffer. `none`: it sends no such word. A
word of no transaction that the model follows goes on the packet plane, between packets. -/
def sendWord (s : State) (sp port lane idx : Nat) (part : Option PacketWord) : Option State :=
  let k := laneKey sp port lane
  let l := getLane s k
  if idx < l.sent then (if l.buf.any (fun x => x.idx = idx && x.part == part) then some s else none)
  else if l.sent < idx ∨ l.accepted + 16 ≤ l.sent then none
  else
    let new (s : State) : State := updLane s k (fun l => { l with sent := l.sent + 1, buf := keep16 l.buf { idx := idx, part := part } })
    match part with
    | none =>
      if (lanesFor s none sp port).contains lane && !(s.fab.packets.any (fun p => p.link = linkKey sp port && !hopFull s p && p.lanes.contains lane))
      then some (new s) else none
    | some p => (maySend s p sp port lane).map (fun th => new (sendPart s th.1 p th.2 sp port))

/-- A word that fails its check: it is not forwarded; where it is the awaited word a replay is requested, and after too
many failed resends the link direction goes DOWN. -/
def wordBad (s : State) (sp port lane idx : Nat) : State :=
  let k := laneKey sp port lane
  let s1 := updLink s sp port (fun d => { d with crcErr := satAdd d.crcErr 1 })
  if idx ≠ (getLane s k).accepted then s1
  else
    let s2 := updLane s1 k (fun l => { l with fails := l.fails + 1 })
    if replayLimit s < (getLane s2 k).fails then
      fault (updLink s2 sp port (fun d => { d with down := true })) 0x0207 (switchSource sp) none
    else updLink s2 sp port (fun d => { d with replays := satAdd d.replays 1 })

/-- A word that passes: forwarded if it is the awaited one; any other copy is discarded. The first successful replay in
each 1 ms of timebase time is recorded (R74). -/
def wordGood (s : State) (sp port lane idx : Nat) (part : Option PacketWord) (w : Word) : State :=
  let k := laneKey sp port lane
  let l := getLane s k
  let s0 := updLane s k (fun l => { l with buf := l.buf.map (fun x => if x.idx = idx then { x with word := some w } else x) })
  if idx ≠ l.accepted then s0
  else
    let s1 := gotPart (updLane s0 k (fun l => { l with accepted := l.accepted + 1, last := w, fails := 0 })) part sp port
    let ms : Word := BitVec.ofNat 64 (s.now.toNat / 1000000)
    if l.fails = 0 ∨ (getLink s sp port).noted = some ms then s1
    else faultC (updLink s1 sp port (fun d => { d with noted := some ms })) 0x0206 1 (switchSource sp) none

/-- LINK_WORD_RECEIVE: a word with its CRC arrives at the receiver of a link direction. A word that the sender of the lane
does not send does not arrive: nothing happens. A resent word is the one in the replay buffer. R72 gives the CRC's
polynomial alone: initial value 0xFF, final exclusive-or 0xFF and the word's low byte first are the model's (DESIGN CHOICE,
assumption 62). -/
def execLinkWordReceive (sp : BitVec 6) (port : BitVec 4) (lane : BitVec 5) (idx : Nat) (w : LinkWord) (crc : Byte) (s : State) :
    Host.Outcome State Fault Refusal :=
  let p := sp.toNat; let o := port.toNat; let n := lane.toNat
  .next (if linkState s p o ≠ 0 then s
    else
      match sendWord s p o n idx w.part with
      | none => s
      | some s1 =>
        let sound : Bool := crc8 (natLe 8 w.bits.toNat) == crc.toNat
        let other : Bool := (getLane s1 (laneKey p o n)).buf.any (fun x => x.idx = idx && x.word.isSome && x.word != some w.bits)
        if injectArmed s p o n then wordBad (store s1 (fabBase + 0x20) (putFld (stored s .fabErrInject (fabBase + 0x20)) 14 14 0)) p o n idx
        else if !sound then wordBad s1 p o n idx
        else if other then s
        else wordGood s1 p o n idx w.part w.bits)

/-! ### FAB registers -/

def selLink (s : State) : Nat × Nat := let w := stored s .fabLinkSel (fabBase + 0x28); (fld w 5 0, fld w 8 6)
def selPass (s : State) : Nat := fld (stored s .fabPassSel (fabBase + 0x38)) 9 0

/-- A FAB register as read; `n` is the row of FAB_SWMAP. -/
def fabRead (s : State) (r : Reg) (n pa : Nat) : Word :=
  let f := s.fab
  match r with
  | .fabStatus => BitVec.ofNat 64 (at' f.passes.length 16 + 2 * b2n (f.links.any (fun l => l.2.down)) + b2n f.structLive)
  | .fabTimeout => BitVec.ofNat 64 (timeoutNow s)
  | .fabLinkStatus =>
    let (sp, port) := selLink s
    let d := getLink s sp port
    BitVec.ofNat 64 (at' d.replays.toNat 32 + at' d.crcErr.toNat 16 + at' (reservedLanes s sp port % 32) 8 + linkState s sp port)
  | .fabPassInfo =>
    match f.passes.find? (fun p => p.id = selPass s) with
    | some p => BitVec.ofNat 64 (at' p.dst 32 + at' p.src 24 + at' p.hops 20 + at' p.lanes 16 + at' p.cell 4 + 1)
    | none => 0
  | .fabPassCount => (look (0 : BitVec 32) (selPass s) f.words).setWidth 64
  | .fabFence0 => BitVec.ofNat 64 ((f.fences.filter (· < 64)).map (fun e => 2 ^ e)).sum
  | .fabFence1 => BitVec.ofNat 64 ((f.fences.filter (fun e => 64 ≤ e)).map (fun e => 2 ^ (e - 64))).sum
  | .fabLate => f.late.setWidth 64
  | .fabSwmap => BitVec.ofNat 64 (leNat ((mapNow s).drop (8 * n) |>.take 8))
  | _ => stored s r pa

/-- What a read of a FAB register clears. -/
def fabClear (s : State) (r : Reg) (m : Word) : State :=
  match r with
  | .fabLinkStatus =>
    let (sp, port) := selLink s
    updLink s sp port (fun d => { d with replays := if bit m 32 then 0 else d.replays, crcErr := if bit m 16 then 0 else d.crcErr })
  | .fabPassCount => if bit m 0 then updFab s (fun f => { f with words := drop' (selPass s) f.words }) else s
  | .fabLate => if bit m 0 then updFab s (fun f => { f with late := 0 }) else s
  | _ => s

/-- A write of FAB_ERR_INJECT: its lane, and ARM which stays set until a word has been corrupted. -/
def writeInject (s : State) (a : Access) (pa : Nat) (v m : Word) : State :=
  let j := judgeReg s a .fabErrInject pa false (stored s .fabErrInject pa) v m
  recordCodes (store s pa (if bit j.cmd 14 then putFld j.word 14 14 1 else j.word)) a pa j.codes
def execFabErrInject (a : Access) (v : Word) (s : State) : Host.Outcome State Fault Refusal :=
  .next (writeInject s a (fabBase + 0x20) (v ||| 0x4000) (BitVec.allOnes 64))

/-- A write of a FAB register. -/
def fabWrite (s : State) (a : Access) (r : Reg) (pa : Nat) (v m : Word) : State :=
  match r with
  | .fabCtrl =>
    let s1 := writeCtrl s a r pa v m
    if expertOn s1 pa then s1 else { s1 with regs := drop' (fabBase + 0x10) s1.regs }
  | .fabTimeout =>
    let cur := fabRead s r 0 pa
    let j := judgeReg s a r pa false cur v m
    recordCodes (if j.word = cur then s else store s pa j.word) a pa j.codes
  | .fabErrInject => writeInject s a pa v m
  | .fabReplayLimit | .fabLinkSel | .fabPassSel => writePlain s a r pa pa false v m
  | _ => s

end Sys2Proof.Machine
end

