-- ==== Sys2Proof/Machine/Comp.lean ====
section
/-! DEFINITION. The composition engine: load, seal, partial recomposition and the COMP registers (R42 to R53). -/
namespace Sys2Proof.Machine

def compBase : Nat := 0xF8000010000
def compSource : BitVec 16 := src 0x64 0 0
def updComp (s : State) (f : Comp → Comp) : State := { s with comp := f s.comp }

/-! ### The source region (R42) -/

def srcBase (s : State) : Nat := fld s.comp.srcAddr 43 12 * 4096
def srcLen (s : State) : Nat := fld s.comp.srcLen 26 0
/-- Does the region lie wholly in scratch or in HBM? -/
def srcPlaced (s : State) : Bool :=
  let b := srcBase s; let n := srcLen s
  (b < hbmLimit && b + n ≤ hbmLimit) || (scratchBase ≤ b && b < scratchLimit && b + n ≤ scratchLimit)
def srcBytes (s : State) : List Byte := rdBytes s (srcBase s) (srcLen s)
/-- Would reading a byte of the region answer poison: by a mark, by a unit whose check bits are wrong in two places (R272),
by a FAILED channel (R296), or because a sleeping site answers FENCED, whose data are poison (R75, R273)? -/
def srcPoisoned (s : State) : Bool :=
  let a := srcBase s; let n := srcLen s
  let lines : List Nat := (List.range ((n + 63) / 64)).map (fun i => a / 64 + i)
  n ≠ 0 && (poisonedAt s a n || s.cache.bad.any (fun e => e.2 && a / 8 ≤ e.1 && e.1 < (a + n + 7) / 8) ||
    (s.hbm.any (fun h => h.2.state = .failed) && lines.any (deadLine s)) ||
    (!s.fab.fences.isEmpty && lines.any (fun l => (endpointOf (64 * l)).any (fun e => s.fab.fences.contains e))))
/-- The pages that the region touches. -/
def srcPages (s : State) : List Nat := (List.range ((srcLen s + 4095) / 4096)).map (fun k => srcBase s / 4096 + k)

/-! ### Endings of a load (R31, R42, R44, R45, R486) -/

/-- The state to which a load that does not succeed returns. -/
def compHome (s : State) : Engine := if s.comp.isSealed then .sealed else .empty
/-- A load ends without success: shadow tables cleared, pages unlocked. -/
def endLoad (s : State) (op : OpStatus → OpStatus) (cause : BitVec 4) : State :=
  updComp s (fun c => { c with engine := compHome s, op := op c.op, cause := cause, shadow := [], shadowProg := [], targets := [], locked := [], stagedSeq := 0 })
/-- PROGRESS of a phase that ends before its last record: how many records were performed is open. -/
def someProgress (s : State) (n : Nat) : State :=
  let d := drawFree s
  updComp d.2 (fun c => { c with op := { c.op with progress := BitVec.ofNat 32 ((Config.freeWord d.1).toNat % (n + 1)) } })
/-- Poison read from the source region. -/
def poisonEnd (s : State) (n : Nat) : State := endLoad (someProgress s n) (fun o => o.finish 4) 3
/-- An abort granted. -/
def abortEnd (s : State) (n : Nat) : State := endLoad (someProgress s n) OpStatus.aborted s.comp.cause
/-- Does a pending abort win? -/
def abortWins (s : State) : Bool × State :=
  if s.comp.op.abortReq then let d := drawFree s; (Config.freeBit d.1, d.2) else (false, s)
/-- The image is rejected: COMP_REJECT as R486 lays down; a field that no rule states is open. -/
def rejectEnd (s : State) (code : Nat) (f : Fail) (n : Nat) : State :=
  let d := drawFree (someProgress s n)
  let w := Config.freeWord d.1
  let off := f.off.getD (fld w 63 32)
  let typ := f.typ.getD (fld w 31 16)
  let sec := f.sec.getD (fld w 11 8)
  let s1 := endLoad d.2 (fun o => o.finish 4) 1
  fault (updComp s1 (fun c => { c with reject := BitVec.ofNat 64 (at' (off % 2 ^ 32) 32 + at' (typ % 65536) 16 + at' (sec % 16) 8 + code) })) 0x0101 compSource none

/-- COMP_SOURCE_POISON: a read of the source region has returned poison. -/
def execCompSourcePoison (s : State) : Host.Outcome State Fault Refusal :=
  .next (match s.comp.engine with
    | .checking | .validating | .applying | .staging => if srcPoisoned s then poisonEnd s (readImage (srcBytes s)).1.length else s
    | _ => s)

/-! ### START to APPLIED (R45) -/

/-- START, by the party that R45 names: refused for its region, or the load begins and the region's pages are locked. -/
def compStart (s : State) (part : Bool) : State :=
  if srcPlaced s then
    updComp s (fun c => { c with engine := if part then .staging else .checking, partialMode := part, op := OpStatus.start, reject := 0, shadow := [], shadowProg := [], targets := [], stagedSeq := 0, locked := srcPages s })
  else updComp s (fun c => { c with op := { st := 4 }, cause := 5, reject := 0 })

/-- COMP_CHECK_DONE: rules 0x01 to 0x0A are judged and every byte of the region has been read. -/
def execCompCheckDone (s : State) : Host.Outcome State Fault Refusal :=
  let b := srcBytes s
  let n := (readImage b).1.length
  .next (
    if s.comp.engine ≠ .checking then s
    else
      let (won, s1) := abortWins s
      if won then abortEnd s1 n
      else if srcPoisoned s then poisonEnd s1 n
      else match firstFailing (formRules s b (srcLen s)) with
        | some (code, f) => rejectEnd s1 code f n
        | none => updComp s1 (fun c => { c with engine := .validating, op := { c.op with progress := 0 } }))

/-- COMP_VALIDATE_DONE: the further rules are judged. -/
def execCompValidateDone (s : State) : Host.Outcome State Fault Refusal :=
  let b := srcBytes s
  let n := (readImage b).1.length
  .next (
    if s.comp.engine ≠ .validating then s
    else
      let (won, s1) := abortWins s
      if won then abortEnd s1 n
      else if srcPoisoned s then poisonEnd s1 n
      else match firstFailing (planRules (judgeOf s b)) with
        | some (code, f) => rejectEnd s1 code f n
        | none => updComp s1 (fun c => { c with engine := .applying, op := { c.op with progress := 0 } }))

/-- Target cells in the order of their numbers: the order of the records means nothing (R38). -/
def sortTargets (l : List (Nat × Nat)) : List (Nat × Nat) :=
  l.foldr (fun r l => (l.filter (fun q => q.1 < r.1)) ++ r :: l.filter (fun q => r.1 ≤ q.1)) []
/-- The image written to the shadow tables; the engine rests in a state with its operation DONE. -/
def writeShadow (s : State) (goal : Engine) : State :=
  let b := srcBytes s
  let rs := (readImage b).1
  updComp s (fun c => { c with
    engine := goal
    op := { (c.op.finish 2) with progress := BitVec.ofNat 32 rs.length }
    shadow := if c.partialMode then produced c.live rs else rs.filter (fun r => r.typ ≠ tRECOMP)
    shadowProg := hProgramme b
    shadowScope := BitVec.ofNat 8 (hScope b)
    targets := if c.partialMode then sortTargets ((recsOf rs tRECOMP).map (fun r => (ru16 r 0, ru8 r 2))) else []
    stagedSeq := BitVec.ofNat 32 (hSeq b)
    locked := [] })

/-- COMP_APPLY_DONE: every record is written to the shadow tables. -/
def execCompApplyDone (s : State) : Host.Outcome State Fault Refusal :=
  let n := (readImage (srcBytes s)).1.length
  .next (
    if s.comp.engine ≠ .applying then s
    else
      let (won, s1) := abortWins s
      if won then abortEnd s1 n
      else if srcPoisoned s then poisonEnd s1 n
      else writeShadow s1 .applied)

/-- COMP_STAGE_DONE: a partial image is checked, judged and written to the shadow tables in one state (R45). -/
def execCompStageDone (s : State) : Host.Outcome State Fault Refusal :=
  let b := srcBytes s
  let n := (readImage b).1.length
  .next (
    if s.comp.engine ≠ .staging then s
    else
      let (won, s1) := abortWins s
      if won then abortEnd s1 n
      else if srcPoisoned s then poisonEnd s1 n
      else match firstFailing (formRules s b (srcLen s)) with
        | some (code, f) => rejectEnd s1 code f n
        | none => match firstFailing (planRules (judgeOf s b)) with
          | some (code, f) => rejectEnd s1 code f n
          | none => writeShadow s1 .staged)

/-! ### What a composition creates (R46, R192, R205, R308) -/

/-- A task's control block as its records give it. -/
def taskFields (rs : List Rec) (r : Rec) (x : Tcb) : Tcb :=
  { x with cell := ru16 r 0, prio := ru8 r 4, cluster := ru8 r 5, coreMask := BitVec.ofNat 8 (ru8 r 6), entryVa := BitVec.ofNat 64 (ru64 r 8), eager := ((cellRec rs (ru16 r 0)).map (fun c => (ru8 c 4).testBit 0)).getD false }
/-- TASK records in the order of their TCBs. -/
def tasksSorted (rs : List Rec) : List Rec := (recsOf rs tTASK).foldr (fun r l => (l.filter (fun q => ru16 q 2 < ru16 r 2)) ++ r :: l.filter (fun q => ru16 r 2 ≤ ru16 q 2)) []
/-- The tasks of some cells that have no control block yet are created, and readied where the cell is ACTIVE, in the order of
their control blocks, whatever the order of the records (R38). -/
def createTasks (s : State) (cs : List Nat) : State :=
  ((tasksSorted s.comp.live).filter (fun r => cs.contains (ru16 r 0))).foldl (fun s r =>
    let t := ru16 r 2
    if (s.sched.tcbs.any (fun e => e.1 = t && e.2.made)) then s
    else startTcb (updTcb s t (fun _ => { taskFields s.comp.live r {} with made := true })) t) s

/-- The next multiple of a job's period not yet taken as a release. -/
def firstRelease (s : State) (r : Rec) : Nat := if ru32 r 12 = 0 then 0 else s.now.toNat / ru32 r 12 + 1
/-- Job slots of the records of a cell: new ones IDLE or SUSPENDED (R308). -/
def createJobs (s : State) (c : Nat) : State :=
  ((recsOf s.comp.live tJOB).filter (fun r => ru16 r 2 = c)).foldl (fun s r =>
    if (getJob s (ru16 r 0)).state = .unused then
      updJob s (ru16 r 0) (fun _ => { state := if cellState s c = .active then .idle else .suspended, next := firstRelease s r })
    else s) s
/-- A cell comes into being: ACTIVE, with its pools and jobs. Its tasks follow (`createTasks`). -/
def createCell (s : State) (c : Nat) : State :=
  let s1 := updCell (freshPools s c) c (fun x => { x with s1 := 0, state := .absent })
  createJobs (enterActive s1 c true) c

/-- SEAL: every shadow table becomes live in one change (R46); the fabric's structure follows under R81. -/
def sealComp (s : State) : State :=
  let s1 := updComp s (fun c => { c with
    engine := .sealed, isSealed := true, live := c.shadow, programme := c.shadowProg, scope := c.shadowScope, sealedSeq := c.stagedSeq, stagedSeq := 0, shadow := [], shadowProg := [] })
  let s2 := { s1 with
    fab := { s1.fab with changing := true }
    cache := { s1.cache with masks := [] }
    cells := s1.cells.map (fun e => (e.1, { e.2 with s1 := 0 }))
    cores := s1.cores.map (fun e => (e.1, { e.2 with chk := [] })) }
  let s3 := createTasks ((cellsOf s2.comp.live).foldl createCell s2) (cellsOf s2.comp.live)
  reLevel (pwrSeal (createStreams s3 true))

/-! ### Partial recomposition (R49 to R52) -/

/-- Is a target cell quiet: no task of it on a core or still being saved, no transaction of it in flight (R49)? A cell that
has faulted meanwhile is quiet once its cores stand still (R52). -/
def cellQuiet (s : State) (c : Nat) : Bool :=
  let mine (x : Option CellId) : Bool := x == some (BitVec.ofNat 12 c)
  if cellState s c = .faulted then s.cores.all (fun k => (match k.2.task with | some t => (getTcb s t).cell ≠ c | none => true) || !takesSteps k.2)
  else
  s.cores.all (fun k => (match k.2.task with | some t => (getTcb s t).cell ≠ c | none => true) && k.2.sbuf.all (fun e => !(mine e.cell) || heldEntry k.2 e)) &&
  s.sched.tcbs.all (fun t => t.2.cell ≠ c || !t.2.saving) &&
  s.fab.waiting.all (fun t => !(mine t.cell)) && s.fab.txns.all (fun t => t.late || !(mine t.cell)) &&
  s.hbm.all (fun h => (h.2.pc0.queue ++ h.2.pc1.queue).all (fun q => !(mine q.req.cell)))

/-- The targets that exist already. -/
def oldTargets (s : State) : List Nat := (s.comp.targets.filter (fun t => t.2 ≠ 2)).map (·.1)

/-- QUIESCE: refused while a target is halted or faulted (R52); otherwise every target leaves ACTIVE. -/
def quiesce (s : State) : State :=
  if (oldTargets s).any (fun c => cellState s c = .halted || cellState s c = .faulted) then updComp s (fun c => { c with cause := 4 })
  else
    let s1 := updComp s (fun c => { c with engine := .quiescing, op := OpStatus.start })
    (oldTargets s).foldl (fun s c => if cellState s c = .active then leaveActive s c .quiesced else s) s1

/-- COMP_QUIESCE_DONE: every target cell is quiet. -/
def execCompQuiesceDone (s : State) : Host.Outcome State Fault Refusal :=
  .next (
    if s.comp.engine ≠ .quiescing then s
    else
      let (won, s1) := abortWins s
      if won then
        let s2 := releaseUnchanged s1
        updComp s2 (fun c => { c with engine := .sealed, op := c.op.aborted, shadow := [], shadowProg := [], stagedSeq := 0 })
      else if (oldTargets s).all (cellQuiet s) then updComp s1 (fun c => { c with engine := .quiesced, op := c.op.finish 2 })
      else s)

/-- Does the class of a cell, or what its SLC_CLASS says, differ between two compositions? -/
def classChanged (old new : List Rec) (c : Nat) : Bool :=
  let of (rs : List Rec) := (classOf rs c).map (fun k => (k, (findRec rs tCLASS (fun r => ru8 r 0 = k)).map (·.data)))
  of old != of new
/-- The slices that a commit newly assigns to a safety or real-time cell. -/
def newlyGuarded (old new : List Rec) : List (Nat × Nat) :=
  ((cellsOf new).filter (isProtected new)).flatMap (fun c => (Rules.slicesOf new c).filter (fun q => !(isProtected old c && (Rules.slicesOf old c).contains q)))

/-- TLB and IOTLB entries that a commit drops (R50, R233). -/
def commitTlbs (s : State) (old : List Rec) (gone : List Nat) : State :=
  let gs := newlyGuarded old s.comp.live
  dropTlbs s true (fun t => (t.host = 0 && (match t.cell with | some c => gone.contains c | none => false)) ||
    gs.any (fun q => q.1 < t.pa + 2 ^ t.log2 && t.pa < q.1 + q.2))

/-- Cores that ran a removed or replaced cell lose its predictions and its CHK contexts (R50, R370). Only a task switch
changes the cell of a core (R168). -/
def commitCores (s : State) (gone : List Nat) : State :=
  { s with cores := s.cores.map (fun e =>
      let k := e.2
      let ran : Bool := match k.cell with | some c => gone.contains c | none => false
      let k1 := if ran then { flushItt k with retStack := [] } else k
      (e.1, { k1 with
        chk := k1.chk.filter (fun x => match x.2.owner with | some c => !(gone.contains c) | none => true) })) }

/-- The maintenance engines start the cleaning of a commit: a hypervisor operation there is aborted, another holder is
waited for (R50, R279). -/
def commitClean (s : State) (cls : List Nat) (sites : List Nat) : State :=
  sites.foldl (fun s n =>
    match (getSite s n).holder with
    | .none => updSite s n (fun x => { x with holder := .commit })
    -- the hypervisor's operation is aborted there, unless it has just finished (R31, R279)
    | .hyp => updSite (mntDecide (updSite s n (fun x => { x with op := { x.op with abortReq := true } })) n 3 none) n (fun x => { x with holder := .commit })
    | _ => updSite s n (fun x => { x with qCommit := true }))
    (updComp s (fun c => { c with cleanCls := cls, cleaning := sites }))

/-- The nodes bound to tasks of removed and replaced cells return to their free lists; a task keeps in mind where it was
saved (R51, R193). -/
def unbindTcbs (s : State) (gone : List Nat) : State :=
  s.sched.tcbs.foldl (fun s e =>
    if gone.contains e.2.cell ∧ e.2.nodeLo ≠ 0 then
      giveBack (giveBack (updTcb s e.1 (fun x => { x with srcLo := x.nodeLo, srcHi := rdNat s x.nodeLo 8, nodeLo := 0, nodeHi := 0 })) e.2.cell false e.2.nodeLo) e.2.cell true e.2.nodeHi
    else s) s
/-- Task control blocks at a commit: those of removed cells and those without TASK record are freed; a surviving one of a
replaced cell takes its new record (R50, R51). -/
def commitTcbs (s : State) (gone : List Nat) : State :=
  let rs := s.comp.live
  let keep (e : Nat × Tcb) : Option (Nat × Tcb) :=
    if !(gone.contains e.2.cell) then some e
    else match findRec rs tTASK (fun r => ru16 r 2 = e.1 && ru16 r 0 = e.2.cell) with
      | none => none
      | some r => some (e.1, taskFields rs r e.2)
  { s with sched := { s.sched with tcbs := s.sched.tcbs.filterMap keep } }

/-- Events on their way to a target cell's tasks wait for the RELEASE (R49). -/
def commitEvents (s : State) (gone : List Nat) : State :=
  let (mine, rest) := s.sched.evTasks.partition (fun m => gone.contains m.dest)
  { s with
    sched := { s.sched with evTasks := rest }
    comp := { s.comp with held := s.comp.held ++ mine.map (fun m => { num := m.num, cell := m.dest, stamp := m.stamp, origin := m.origin }) } }

/-- The records of one cluster's schedule. -/
def clusterSched (rs : List Rec) (cl : Nat) : List Rec := rs.filter (fun r => (r.typ = tMAJOR || r.typ = tFRET) && ru8 r 0 = cl)
def sameRecs (a b : List Rec) : Bool := a.length = b.length && a.all (fun r => b.any (fun q => q.typ = r.typ && q.data = r.data))

/-- A changed schedule keeps the old tables until the instant that COMMITTED fixes (R50). -/
def commitSched (s0 s : State) : State :=
  let changed := (List.range 16).filter (fun cl => !(sameRecs (clusterSched (schedRecs s0 cl) cl) (clusterSched s.comp.live cl)))
  updComp s (fun c => { c with
    oldSched := changed.flatMap (fun cl => clusterSched (schedRecs s0 cl) cl)
    newSched := changed.map (fun cl => (cl, BitVec.allOnes 64)) })
/-- The first start of a major cycle of a cluster after now. -/
def nextCycle (s : State) (rs : List Rec) (cl : Nat) : Word :=
  match findRec rs tMAJOR (fun r => ru8 r 0 = cl) with
  | none => s.now
  | some m =>
    let cyc := ru32 m 4 * 100; let ph := ru32 m 8 * 100
    let t := s.now.toNat
    if cyc = 0 then s.now else if t < ph then BitVec.ofNat 64 ph else BitVec.ofNat 64 (ph + ((t - ph) / cyc + 1) * cyc)

/-- Gate lists that a commit has changed run on to the first cycle of the new one; one that it takes away, for which there
is no new one, ends at once (R349; DESIGN CHOICE, assumption 73). -/
def commitGates (s : State) (old : List Rec) : State :=
  (List.range 10).foldl (fun s p =>
    let of (rs : List Rec) := findRec rs tGATE (fun r => ru8 r 0 = p)
    match of old, of s.comp.live with
    | a, some b => if a.map (·.data) = some b.data then s else updPort s p (fun x => { x with oldGate := some (a.getD { typ := tGATE, off := 0, data := [] }), gateSwap := BitVec.allOnes 64 })
    | some _, none => updPort s p (fun x => { x with oldGate := none, gate := none })
    | none, none => s) s

/-- The owner of a ring in a composition, by kind: receive, transmit, CAN. -/
def ringsOf (s : State) : List (Nat × Nat) := s.net.rx.map (fun e => (0, e.1)) ++ s.net.tx.map (fun e => (1, e.1)) ++ s.net.can.map (fun e => (2, e.1))
/-- Rings of removed and replaced owners are disabled (R352). -/
def commitRings (s0 s : State) (gone : List Nat) : State :=
  (ringsOf s0).foldl (fun s q =>
    match ringOwner s0 q.1 q.2 with
    | some c => if gone.contains c ∧ (getRing s q.1 q.2).en then ringOff s q.1 q.2 else s
    | none => s) s

/-- The Passes of the new composition take the place of the old ones (R82). A transaction already sent on a Pass that is
gone or changed completes by the way it was sent and counts on no Pass; a lane that a packet under way holds is free for
another only after that packet (`mayStart`). -/
def commitPasses (s : State) : State :=
  let new := passesOf s.comp.live
  let kept (id : Nat) : Bool := (s.fab.passes.find? (fun p => p.id = id)) == (new.find? (fun p => p.id = id))
  updFab s (fun f => { f with passes := new, txns := f.txns.map (fun t => if t.pass.all kept then t else { t with pass := none }) })

/-- COMMIT: the staged configuration becomes live in one change, with all that R50 lists. -/
def commitComp (s : State) : State :=
  let old := s.comp.live
  let gone := oldTargets s
  let removed := (s.comp.targets.filter (fun t => t.2 = 1)).map (·.1)
  let s1 := commitEvents s gone
  let s2 := unbindTcbs (commitRings s s1 gone) gone
  let s3 := updComp s2 (fun c => { c with engine := .committing, op := OpStatus.start, live := c.shadow, before := old })
  let s3 := commitPasses s3
  -- job slots whose record is gone become UNUSED
  let s4 := { s3 with time := { s3.time with jobs := s3.time.jobs.filter (fun e => (jobRec s3 e.1).isSome) } }
  let s5 := commitTcbs s4 gone
  let s6 := removed.foldl (fun s c => { updCell (freshPools s c) c (fun x => { x with state := .absent, tabs := [] }) with
    time := { s.time with wds := drop' c s.time.wds }, flt := { s.flt with blocks := s.flt.blocks.map (fun e => if e.2.valid ∧ e.2.cell = some (BitVec.ofNat 12 c) then (e.1, { e.2 with cmd := some false }) else e) } }) s5
  let s7 := gone.foldl (fun s c => createJobs (updCell s c (fun x => { x with tabs := [] })) c) s6
  let s8 := commitCores (commitTlbs s7 old gone) gone
  let cls := dedup ((gone.filter (fun c => removed.contains c || classChanged old s.comp.shadow c)).filterMap (classOf old))
  let sites := (List.range 16).filter (fun n => cls.any (fun k => (findRec old tCLASS (fun r => ru8 r 0 = k)).any (fun r => (ru16 r 4).testBit n)) || (getSite s n).lines.any (fun l => cls.contains l.cls))
  let s9 := { s8 with cache := { s8.cache with masks := s8.cache.masks.filter (fun e => (findRec old tCLASS (fun r => ru8 r 0 = e.1)).map (·.data) = (findRec s8.comp.live tCLASS (fun r => ru8 r 0 = e.1)).map (·.data)) } }
  reLevel (pwrCommit (removeStreams (commitGates (commitSched s (commitClean s9 cls sites)) old)))

/-- COMP_COMMIT_DONE: the commit's cleaning is done; the Passes of the new composition hold their lanes (R50, R82). -/
def execCompCommitDone (s : State) : Host.Outcome State Fault Refusal :=
  .next (
    if s.comp.engine ≠ .committing ∨ !s.comp.cleaning.isEmpty then s
    else
      let s1 := updComp s (fun c => { c with
        engine := .committed, op := c.op.finish 2, sealedSeq := c.stagedSeq, programme := c.shadowProg, scope := c.shadowScope, cleanCls := []
        newSched := c.newSched.map (fun e => if e.2 = BitVec.allOnes 64 then (e.1, nextCycle s (if (findRec c.oldSched tMAJOR (fun r => ru8 r 0 = e.1)).isSome then c.oldSched else c.live) e.1) else e) })
      { s1 with net := { s1.net with ports := s1.net.ports.map (fun p => (p.1, if p.2.gateSwap = BitVec.allOnes 64 then { p.2 with gateSwap := s.now } else p.2)) } })

/-- Held events go to their new routes, in their held order; one whose source has no route any more is dropped and
counted (R51). -/
def releaseHeld (s : State) : State := s.comp.held.foldl releaseEvent s

/-- RELEASE: target cells come back or into being (R51). -/
def release (s : State) : State :=
  let old := s.comp.before
  let ts := s.comp.targets
  let s1 := updComp s (fun c => { c with engine := .sealed, stagedSeq := 0, shadow := [], shadowProg := [], targets := [], before := [] })
  let s2 := ts.foldl (fun s t =>
    match t.2 with
    | 2 => createCell s t.1
    | 1 => updCell s t.1 (fun x => { x with s1 := 0 })
    | _ =>
      let s1 := updCell (freshPools s t.1) t.1 (fun x => { x with s1 := 0 })
      if cellState s1 t.1 = .quiesced then enterActive s1 t.1 false else s1) s1
  let s3 := updComp (releaseHeld (createTasks s2 ((ts.filter (fun t => t.2 ≠ 1)).map (·.1)))) (fun c => { c with held := [] })
  pwrRelease (createStreams s3 false) old

/-- DISCARD: the staged image is dropped and quiesced cells are released unchanged. -/
def discard (s : State) : State :=
  let s1 := if s.comp.engine = .quiesced then releaseUnchanged s else s
  updComp s1 (fun c => { c with engine := .sealed, shadow := [], shadowProg := [], targets := [], stagedSeq := 0 })

/-! ### Commands and registers (R45, R53) -/

/-- A command with the party that R45 names for it and the states that list it. -/
def compCommand (s : State) (a : Access) (cmd : Nat) (mode : Bool) : State :=
  let pa := compBase
  let e := s.comp.engine
  let party : Bool := match cmd with | 0 => if mode then isHyp a else isMld a | 1 => isMld a | _ => isHyp a
  let listed : Bool := match cmd with
    | 0 => if mode then e = .sealed else e = .empty || e = .applied
    | 1 => e = .applied
    | 2 => e = .staged
    | 3 => e = .quiesced
    | 4 => e = .committed
    | _ => e = .staged || e = .quiesced
  if !party then refuse s a 0x0103 compSource pa
  else if !listed then refuse s a 0x0102 compSource pa
  else
    let s1 := updComp s (fun c => { c with modeBit := mode })
    match cmd with
    | 0 => compStart s1 mode
    | 1 => sealComp s1
    | 2 => quiesce s1
    | 3 => commitComp s1
    | 4 => release s1
    | _ => discard s1

/-- A write of COMP_CTRL: at most one command bit (R53). -/
def writeCompCtrl (s : State) (a : Access) (v m : Word) : State :=
  let cmds := (List.range 6).filter (fun i => bit (v &&& m) i)
  let mode : Bool := if bit m 8 then bit v 8 else s.comp.modeBit
  match cmds with
  | [] => updComp s (fun c => { c with modeBit := mode })
  | [k] => compCommand s a k mode
  | _ => refuse s a 0x0102 compSource compBase
/-- A command row: a write of COMP_CTRL with that command bit, and of the others none. -/
def compRow (k : Nat) (a : Access) (v : Word) (s : State) : State := writeCompCtrl s a ((v &&& 0x100) ||| BitVec.ofNat 64 (1 <<< k)) (BitVec.allOnes 64)
def execCompStart (a : Access) (v : Word) (s : State) : Host.Outcome State Fault Refusal := .next (compRow 0 a v s)
def execCompSeal (a : Access) (v : Word) (s : State) : Host.Outcome State Fault Refusal := .next (compRow 1 a v s)
def execCompQuiesce (a : Access) (v : Word) (s : State) : Host.Outcome State Fault Refusal := .next (compRow 2 a v s)
def execCompCommit (a : Access) (v : Word) (s : State) : Host.Outcome State Fault Refusal := .next (compRow 3 a v s)
def execCompRelease (a : Access) (v : Word) (s : State) : Host.Outcome State Fault Refusal := .next (compRow 4 a v s)
def execCompDiscard (a : Access) (v : Word) (s : State) : Host.Outcome State Fault Refusal := .next (compRow 5 a v s)

/-- R45's code of a state. -/
def engineCode (e : Engine) : Nat :=
  match e with
  | .empty => 0 | .checking => 1 | .validating => 2 | .applying => 3 | .applied => 4 | .sealed => 5
  | .staging => 6 | .staged => 7 | .quiescing => 8 | .quiesced => 9 | .committing => 10 | .committed => 11

/-- A COMP register as read. -/
def compRead (s : State) (r : Reg) : Word :=
  let c := s.comp
  match r with
  | .compCtrl => BitVec.ofNat 64 (at' (b2n c.modeBit) 8)
  | .compStatus => BitVec.ofNat 64 (at' c.dropped.toNat 32 + at' c.cause.toNat 8 + at' (b2n s.boot.unverified) 5 + at' (b2n c.isSealed) 4 + engineCode c.engine)
  | .compOpStatus => c.op.word
  | .compSrcAddr => c.srcAddr
  | .compSrcLen => c.srcLen
  | .compReject => c.reject
  | _ => BitVec.ofNat 64 (at' c.stagedSeq.toNat 32 + c.sealedSeq.toNat)
/-- What a read clears: DROPPED, when its half is read. -/
def compClear (s : State) (r : Reg) (m : Word) : State := if r = .compStatus ∧ bit m 32 then updComp s (fun c => { c with dropped := 0 }) else s

/-- A write of COMP_OP_STATUS: ABORT_REQ while an operation runs; ABORT_LATE cleared (R31, R33). -/
def opWrite (o : OpStatus) (v m : Word) : OpStatus :=
  let o1 := if bit (v &&& m) 3 then { o with abortLate := false } else o
  if bit (v &&& m) 8 then o1.request else o1

/-- A write of a COMP register. -/
def compWrite (s : State) (a : Access) (r : Reg) (pa : Nat) (v m : Word) : State :=
  let open' : Bool := s.comp.engine = .empty || s.comp.engine = .applied || s.comp.engine = .sealed
  match r with
  | .compCtrl => writeCompCtrl s a v m
  | .compOpStatus => updComp s (fun c => { c with op := opWrite c.op v m })
  | .compSrcAddr =>
    if open' then updComp s (fun c => { c with srcAddr := (judgeReg s a r pa false c.srcAddr v m).word }) else refuse s a 0x0103 compSource pa
  | .compSrcLen =>
    if open' then updComp s (fun c => { c with srcLen := (judgeReg s a r pa false c.srcLen v m).word }) else refuse s a 0x0103 compSource pa
  | _ => s

end Sys2Proof.Machine
end

