-- ==== Sys2Proof/Machine/Trace.lean ====
section
/-! DEFINITION. The trace path: STP packets, the trace port and the trace buffer (R436 to R439). The layout of the
packets of MIPI STP v2 is PRESUMED (assumption 30). -/
namespace Sys2Proof.Machine

def dbgBase : Nat := 0xF8000070000
def dbgSource : BitVec 16 := src 0x64 3 0
def updDbg (s : State) (f : DbgSt → DbgSt) : State := { s with dbg := f s.dbg }
def trcCtrl (s : State) : Word := stored s .dbgTrcCtrl (dbgBase + 0x88)
def tbBase (s : State) : Nat := fld (stored s .dbgTbBase (dbgBase + 0x90)) 43 12 * 4096
def tbSize (s : State) : Nat := 2 ^ fld (stored s .dbgTbBase (dbgBase + 0x90)) 4 0

/-- The low `n` nibbles of a number, most significant first. -/
def nibbles : Nat → Nat → List (BitVec 4)
  | 0, _ => []
  | n + 1, x => BitVec.ofNat 4 (x / 16 ^ n) :: nibbles n x
/-- Nibbles as bytes, the first nibble in bits 3:0. -/
def nibBytes : List (BitVec 4) → List Byte
  | a :: b :: t => BitVec.ofNat 8 (a.toNat + 16 * b.toNat) :: nibBytes t
  | _ => []

/-- ASYNC, VERSION and FREQ stating 1 GHz (R437). -/
def syncPackets : List (BitVec 4) := List.replicate 21 0xF ++ [0] ++ [0xF, 0, 0, 3] ++ [0xF, 0, 8] ++ nibbles 8 1000000000
/-- A stimulus value: its master, an MERR where values of it were lost, its channel, and a D64TS packet. -/
def valuePackets (c port : Nat) (merr : Bool) (v stamp : Word) : List (BitVec 4) :=
  [1] ++ nibbles 2 c ++ (if merr then [2, 0, 0] else []) ++ [3] ++ nibbles 2 port ++ [0xF, 7] ++ nibbles 16 v.toNat ++ [0xE] ++ nibbles 16 stamp.toNat

/-- TB_CELL, the cell whose ID the writes of the trace buffer carry. -/
def tbCell (s : State) : Option CellId := some (BitVec.ofNat 12 (fld (trcCtrl s) 43 32))
/-- A full line written into the buffer by the debug bus master, or counted as lost where the buffer is full and WRAP is 0
(R439); and whether the line has left. It waits while the fabric cannot carry it, and while its stream is blocked; its
stream is 0 (DESIGN CHOICE, assumption 68). -/
def traceLine (s0 : State) (bs : List Byte) : State × Bool :=
  let wrap (s : State) : State :=
    if tbSize s ≤ s.dbg.tbPtr ∧ bit (trcCtrl s) 4 then updDbg s (fun d => { d with tbPtr := 0, wrapped := true }) else s
  let moved (s : State) : State := wrap (updDbg s (fun d => { d with tbPtr := d.tbPtr + 64 }))
  let s := wrap s0
  if tbSize s ≤ s.dbg.tbPtr then (updDbg s (fun d => { d with lostLines := satAdd d.lostLines 1 }), true)
  else if (blockOf s dbgInit 0 (tbCell s)).isSome then (s, false)
  else
    match ioWrite dbgInit 0 (tbCell s) [(tbBase s + s.dbg.tbPtr, bs)] s with
    | (s1, .wait _) => (s1, false)
    | (s1, .done) => (moved s1, true)
    | (s1, .failed _) => (updDbg (moved s1) (fun d => { d with busBlocked := d.busBlocked || (blockOf s1 dbgInit 0 (tbCell s)).isSome }), true)

/-- Lanes of the trace port in use. -/
def traceLanes (s : State) : Nat := 2 ^ fld (trcCtrl s) 3 2
/-- Full blocks leave on the lanes in turn (R438), or full lines go to the buffer. -/
def traceFlush : Nat → State → State
  | 0, s => s
  | n + 1, s =>
    if bit (trcCtrl s) 1 then
      if s.dbg.stream.length < 128 then s
      else
        match traceLine s (nibBytes (s.dbg.stream.take 128)) with
        | (s1, true) => traceFlush n (updDbg s1 (fun d => { d with stream := d.stream.drop 128 }))
        | (s1, false) => s1
    else if s.dbg.stream.length < 16 then s
    else traceFlush n (updDbg s (fun d => { d with stream := d.stream.drop 16, portBlock := BitVec.ofNat 64 (leNat (nibBytes (d.stream.take 16))), portLane := BitVec.ofNat 2 ((d.portLane.toNat + 1) % traceLanes s) }))

/-- Packets added to the stream, with synchronisation packets after every SYNC_KIB KiB (R437). -/
def traceEmit (s : State) (p : List (BitVec 4)) : State :=
  let n := s.dbg.sinceSync + p.length
  let due : Bool := fld (trcCtrl s) 23 16 * 2048 ≤ n
  let q := if due then p ++ syncPackets else p
  traceFlush (s.dbg.stream.length + q.length) (updDbg s (fun d => { d with stream := d.stream ++ q, sinceSync := if due then 0 else n }))

/-- The queued value that the trace path takes next, round-robin over the cores that have one (R30). -/
def traceNext (s : State) : Option (Nat × Nat × Word × Word) :=
  let rs := s.cores.filterMap (fun e => e.2.stim.head?.map (fun x => (e.1, x)))
  (rs.find? (fun e => s.dbg.traceTurn ≤ e.1)).or rs.head?

/-- The trace path takes one value; while a line of the buffer waits, it takes none. -/
def traceStep (s : State) : State :=
  if !bit (trcCtrl s) 0 then s
  else if bit (trcCtrl s) 1 ∧ 128 ≤ s.dbg.stream.length then traceFlush s.dbg.stream.length s
  else match traceNext s with
    | none => s
    | some (c, port, v, t) =>
      let s1 := updCore s c (fun k => { k with stim := k.stim.drop 1 })
      let s2 := updDbg s1 (fun d => { d with merr := d.merr.filter (· ≠ c), traceTurn := c + 1 })
      traceEmit s2 (valuePackets c port (s.dbg.merr.contains c) v t)

/-- Does one HBM_SLICE of the buffer's cell, that grants write, hold the whole buffer (R439)? -/
def bufferIn (s : State) (c : Nat) : Bool :=
  (recsOf s.comp.live tHBM).any (fun r => ru16 r 0 = c && (ru16 r 2).testBit 1 && ru64 r 8 ≤ tbBase s && tbBase s + tbSize s ≤ ru64 r 8 + ru64 r 16)

/-- A write of DBG_TRC_CTRL: EN may be refused for the HBM buffer, and starts the stream (R437, R439). -/
def writeTrc (s : State) (a : Access) (v m : Word) : State :=
  let pa := dbgBase + 0x88
  let cur := trcCtrl s
  let j := judgeReg s a .dbgTrcCtrl pa false cur v m
  let want : Bool := bit j.word 0 && !bit cur 0
  let cell := fld j.word 43 32
  let refused : Bool := want && bit j.word 1 && !(s.dbg.auth = .opened && dataCover s s.dbg.level.toNat cell && cellIn s.comp.live cell && bufferIn s cell)
  let s1 := recordCodes (store s pa (if refused then putFld j.word 0 0 0 else j.word)) a pa j.codes
  if want then
    let s2 := updDbg s1 (fun d => { d with trcResult := if refused then 1 else 0 })
    if refused then s2
    else traceEmit (updDbg s2 (fun d => { d with stream := [], sinceSync := 0, tbPtr := 0, wrapped := false })) syncPackets
  else s1

end Sys2Proof.Machine
end

