-- ==== Sys2Proof/Machine/Dbg.lean ====
section
/-! DEFINITION. Debug: the TAP, the session, run control, stopped cores, the debug bus master and the DBG registers
(chapter 20). -/
namespace Sys2Proof.Machine

/-! ### Reach (R413 to R415) -/

/-- A TAP access is made by the DBG block itself; it is no party of R53. -/
def tapAccess : Access := { init := BitVec.ofNat 10 (0x64 * 8 + 1), level := 0, cell := none, peek := false }
/-- May a port reach a DBG register: the session port alone while a session exists, and from the TAP only the
authorisation registers while no session is OPEN (R414, R415)? -/
def dbgReach (s : State) (tap : Bool) (r : Reg) : Bool :=
  let other : Bool := match s.dbg.port with | some f => f == tap | none => false
  if other then r = .dbgStatus || r = .dbgHvLimit
  else !tap || s.dbg.auth = .opened || r = .dbgStatus || r = .dbgAuthCmd || r = .dbgAuthData

/-- The instruction that the TAP's register selects (R413). -/
inductive TapInstr where
  | extest | samplePreload | idcode | dbgreg | bypass
deriving DecidableEq, Repr
def tapInstr (s : State) : TapInstr :=
  match s.dbg.ir.toNat with
  | 0 => if s.dbg.level = 3 ∧ !s.comp.isSealed then .extest else .bypass
  | 1 => if 1 ≤ s.dbg.level.toNat then .samplePreload else .bypass
  | 2 => .idcode
  | 8 => .dbgreg
  | _ => .bypass
/-- The data register that IDCODE selects. -/
def idcode : BitVec 32 := 0x291409CF
/-- UPDATE_IR. -/
def execUpdateIr (ir : BitVec 5) (s : State) : Host.Outcome State Fault Refusal := .next (updDbg s (fun d => { d with ir := ir }))

/-! ### Authorisation (R416 to R419) -/

/-- A byte of the authorisation window. -/
def winByte (s : State) (o : Nat) : Byte := BitVec.ofNat 8 ((look (0 : Word) (o / 8) s.dbg.window).toNat >>> (8 * (o % 8)))
def winBytes (s : State) (o n : Nat) : List Byte := (List.range n).map (fun i => winByte s (o + i))
def putWin (s : State) (o : Nat) (bs : List Byte) : State :=
  (List.range bs.length).foldl (fun s i =>
    let k := (o + i) / 8; let sh := 8 * ((o + i) % 8)
    updDbg s (fun d => { d with window := put k (putFld (look 0 k d.window) (sh + 7) sh ((bs.drop i).head?.getD 0).toNat) d.window })) s
/-- The fields of the certificate in the window, checked as R416 and R417 lay down. -/
def certFields (s : State) : Bool :=
  let n (o k : Nat) : Nat := leNat (winBytes s o k)
  let zero (o k : Nat) : Bool := n o k = 0
  n 0 4 = 0x43474244 && n 4 1 = 1 && 1 ≤ n 5 1 && n 5 1 ≤ 3 && (n 6 1).testBit s.boot.lc.toNat && n 6 1 < 8 && zero 7 1 &&
  n 8 2 = 0x9140 && n 10 1 = 0x20 && zero 11 5 && (zero 0x10 16 || winBytes s 0x10 16 == uidBytes) &&
  zero 0x20 16 && zero 0x91 15 && zero 0x101 31
/-- The whole check of a certificate: its fields, the signer's key hash and the signature (R417, step 2). -/
def certOk (s : State) : Bool :=
  certFields s && sha384 (winBytes s 0xA0 97) == customerKeyHash && ecdsaOk (winBytes s 0xA0 97) (winBytes s 0 0x120) (winBytes s 0x120 96)
/-- The response that the device expects: K from the shared secret Z, then R over the nonce and the certificate's hash
(R417, steps 3 and 4), both as they were at step 2, whatever the window holds since (DEDUCED, assumption 29). -/
def expectedResponse (s : State) : List Byte :=
  let z := natBe 48 (ecX (ecMul s.dbg.ephKey (ecRead ((s.dbg.cert.drop 0x30).take 97))))
  let k := hmac384 z [0x43, 0x53, 0x4C, 0x39, 0x31, 0x34, 0x30, 0x20, 0x44, 0x42, 0x47]
  hmac384 k (s.dbg.nonce ++ sha384 s.dbg.cert)
def responseOk (s : State) : Bool := winBytes s 0x218 48 == expectedResponse s
/-- Random words from the key gate's generator (R417): free values. -/
def drawBytes : Nat → State → List Byte × State
  | 0, s => ([], s)
  | n + 1, s => let q := drawFree s; let r := drawBytes n q.2; (natLe 8 (Config.freeWord q.1).toNat ++ r.1, r.2)
/-- The challenge: an ephemeral key pair and a nonce, the public key and the nonce shown in the window. -/
def challenge (s : State) : State :=
  let key := drawBytes 6 s
  let nonce := drawBytes 6 key.2
  let d := 1 + leNat key.1 % (ecN - 1)
  let shown := putWin (putWin nonce.2 0x180 (ecWrite (ecMul d ecBase))) 0x1E8 nonce.1
  updDbg shown (fun x => { x with auth := .challenged, since := s.now, ephKey := d, cert := winBytes s 0 0x180, nonce := nonce.1, certLevel := BitVec.ofNat 2 (winByte s 5).toNat })

/-- An attempt fails: LOCKOUT, counted and recorded (R419). -/
def authFail (s : State) : State :=
  fault (updDbg s (fun d => { d with auth := .lockout, since := s.now, port := none, responding := false, fails := satAdd d.fails 1, certLevel := 0, ephKey := 0, cert := [], nonce := [] })) 0x0B02 dbgSource none

/-- OP of DBG_AUTH_CMD: BEGIN or RESPOND, from the TAP or the fabric. -/
def authCmd (s : State) (tap : Bool) (op : Nat) : State :=
  let d := s.dbg
  let result (r : BitVec 3) : State := updDbg s (fun d => { d with authResult := r })
  if op = 1 then
    if d.port.isSome then result 1
    else if (d.auth = .lockout ∧ s.now.toNat < d.since.toNat + 1000000000) ∨ 8 ≤ d.fails.toNat then result 2
    else updDbg s (fun d => { d with auth := .checking, since := s.now, port := some (!tap), authResult := 0, responding := false })
  else if op = 2 then
    if d.auth ≠ .challenged then result 3
    else if d.since.toNat + 1000000000 < s.now.toNat then authFail s
    else updDbg s (fun d => { d with auth := .checking, responding := true, authResult := 0 })
  else s

/-- DBG_CERT_CHECK_DONE: the certificate passes and the device challenges the debugger, or the attempt fails. -/
def execDbgCertCheckDone (s : State) : Host.Outcome State Fault Refusal :=
  .next (if s.dbg.auth ≠ .checking ∨ s.dbg.responding then s else if certOk s then challenge s else authFail s)
/-- DBG_RESPOND_CHECK_DONE: on a match the session is OPEN; the ephemeral private key is erased in either case. -/
def execDbgRespondCheckDone (s : State) : Host.Outcome State Fault Refusal :=
  .next (if s.dbg.auth ≠ .checking ∨ !s.dbg.responding then s
    else if responseOk s then reLevel (updDbg s (fun d => { d with auth := .opened, responding := false, ephKey := 0 }))
    else authFail s)
/-- DBG_RESPOND_TIMEOUT: 1 s after the challenge. -/
def execDbgRespondTimeout (s : State) : Host.Outcome State Fault Refusal :=
  .next (if s.dbg.auth = .challenged ∧ s.dbg.since.toNat + 1000000000 ≤ s.now.toNat then authFail s else s)
/-- DBG_LOCKOUT_END: 1 s after the failure. -/
def execDbgLockoutEnd (s : State) : Host.Outcome State Fault Refusal :=
  .next (if s.dbg.auth = .lockout ∧ s.dbg.since.toNat + 1000000000 ≤ s.now.toNat then updDbg s (fun d => { d with auth := .idle }) else s)

/-- The mode in which a core stopped by DBG_CORE_CMD continues. -/
def startMode (k : Core) (c : Nat) : CoreMode := if !isS c ∧ k.task.isNone then .free else .run
/-- A core stopped at level 3 continues (R429). -/
def resumeCore (s : State) (c : Nat) : State :=
  let s1 := updCore s c (fun k => { k with mode := if k.mode = .stopped then startMode k c else k.mode, stopReq := false, stepOne := false })
  updDbg s1 (fun d => { d with coreHalts := d.coreHalts.filter (· ≠ c) })

/-- The session ends: every halted cell and core is resumed, every setting cleared (R420). -/
def closeSession (s : State) : State :=
  let s1 := s.dbg.coreHalts.foldl resumeCore s
  let s2 := (s1.dbg.cells.map (·.1)).foldl uncoverCell s1
  let s3 := (s2.cells.map (·.1)).foldl (fun s c => if cellState s c = .halted then resumeCell s c else s) s2
  let s4 := { s3 with
    cores := s3.cores.map (fun e => (e.1, { e.2 with stim := [] }))
    pwr := { s3.pwr with doms := s3.pwr.doms.map (fun e => (e.1, { e.2 with emulated := false })) }
    regs := drop' (dbgBase + 0x88) (drop' (dbgBase + 0x90) s3.regs) }
  updDbg s4 (fun d => { d with
    auth := .idle, port := none, level := 0, certLevel := 0, ephKey := 0, cert := [], nonce := [], responding := false, window := []
    stmMask := [], trcResult := 0, stream := [], sinceSync := 0, merr := [] })

/-! ### Run control (R422 to R431) -/

def selCell (s : State) : Nat := fld (stored s .dbgCellSel (dbgBase + 0x20)) 11 0
def selCore (s : State) : Nat := fld (stored s .dbgCoreSel (dbgBase + 0x48)) 7 0

/-- DBG_CELL_CMD: 1 HALT, 2 RESUME. -/
def cellCmd (s : State) (op : Nat) : State :=
  let c := selCell s
  let l := s.dbg.level.toNat
  let result (s : State) (r : BitVec 2) : State := updDbgCell s c (fun d => { d with result := r })
  if op = 0 then s
  else if l = 0 ∨ !runCover s l c then result s 1
  else if op = 1 then
    if cellState s c ≠ .active then result s 2
    else if !(getDbgCell s c).waiting.isEmpty then result s 0
    else result (haltCell s c 1) 0
  else if cellState s c = .halted ∨ !(getDbgCell s c).waiting.isEmpty then result (resumeCell s c) 0
  else result s 2

/-- A core stops: flights complete, a waiting device load goes into the hold, the reservation is lost (R423, R425). -/
def stopCore (s : State) (c : Nat) : State :=
  updCore (stopAt s c .stopped) c (fun k => { k with ctx := drainFlights k.ctx, resv := none, stopReq := false })

/-- CORE_STOP: a core asked to stop reaches a word boundary at which it may. -/
def execCoreStop (c : CoreId) (s : State) : Host.Outcome State Fault Refusal :=
  let n := c.val
  let k := getCore s n
  let own : Bool := s.dbg.coreHalts.contains n
  .next (
    if !k.stopReq ∨ k.exc.isSome ∨ waitsForAnswer k ∨ k.mode = .locked then s
    else if own then stopCore s n
    else if 1 < k.level.toNat then s
    else match k.cell, k.task with
      | some x, some _ =>
        let s1 := stopCore s n
        let s2 := updDbgCell s1 x (fun d => { d with stopped := addSorted n d.stopped, waiting := d.waiting.filter (· ≠ n) })
        if cellState s2 x = .active then leaveActive s2 x .halted else s2
      | _, _ => updCore s n (fun k => { k with stopReq := false }))

/-- Cores that a debug stop can reach: released by boot and able to take steps. -/
def haltable (k : Core) : Bool := match k.mode with | .held | .locked | .safe => false | _ => true

/-- DBG_CORE_CMD: 1 STEP, 2 HALT, 3 RESUME. -/
def coreCmd (s : State) (op : Nat) : State :=
  let c := selCore s
  let k := getCore s c
  let l := s.dbg.level.toNat
  let result (s : State) (r : BitVec 2) : State := updDbg s (fun d => { d with coreResult := r })
  if op = 0 then s
  else if op = 1 then
    match k.cell with
    | some x =>
      if l = 0 ∨ !runCover s l x then result s 1
      else if k.mode = .stopped ∧ k.task.isSome ∧ cellState s x = .halted then result (updCore s c (fun k => { k with mode := .run, stepOne := true })) 0
      else result s 2
    | none => result s (if l = 3 then 2 else 1)
  else if l ≠ 3 then result s 1
  else if op = 2 then
    if !haltable k then result s 2
    else
      let s1 := updDbg s (fun d => { d with coreHalts := addSorted c d.coreHalts })
      let s2 := if isS c then s1 else wakeDom s1 (c / 8)
      result (if k.mode = .stopped then s2 else updCore s2 c (fun k => { k with stopReq := true })) 0
  else if s.dbg.coreHalts.contains c then result (resumeCore s c) 0
  else result s 2

/-- Channels fired by DBG_CTI_PULSE. -/
def ctiPulse (s : State) (ch : Nat) : State := fireChannels (s.dbg.cells.length + 1) s ch []

/-! ### A stopped core's registers (DBG_CORE_ACC) -/

/-- Does the level cover the state of a core? -/
def coreCover (s : State) (c : Nat) : Bool :=
  let l := s.dbg.level.toNat
  l = 3 || (!isS c && (match (getCore s c).cell with | some x => dataCover s l x | none => false))
/-- A 64-bit part of a value, and a value with that part replaced. -/
def part64 (x : VWord) (p : Nat) : Word := (x >>> (64 * p)).setWidth 64
def putPart (x : VWord) (p : Nat) (w : Word) : VWord := BitVec.ofNat 256 (x.toNat - ((part64 x p).toNat <<< (64 * p)) + (w.toNat <<< (64 * p)))
/-- Is a move address a register or port that debug may read; that it may write? -/
def accReads (c a : Nat) : Bool := !isTrigger a && (legalSrc (isS c) a || legalDst (isS c) a)
def accWrites (c a : Nat) : Bool := !isTrigger a && legalDst (isS c) a
/-- What an access to a stopped core gives: the state after it and the data read, or `none` for a refused address. -/
def coreAcc (s : State) (c : Nat) (write : Bool) (part space num : Nat) (data : Word) : Option (State × Word) :=
  let k := getCore s c
  let x := completeHalf s k true (completeHalf s k false k.ctx)
  match space with
  | 0 =>
    if (part ≠ 0 ∧ !isWide num) ∨ !(if write then accWrites c num else accReads c num) then none
    else if write then
      some (setCore s c { k with ctx := writeAddr x num (if isWide num then putPart (readAddr c k x num) part data else wide data) }, data)
    else some (s, part64 (readAddr c k x num) part)
  | 1 =>
    if write then
      (if srWriteOk c k.level.toNat (BitVec.ofNat 64 num) data then some (srWrite s c num data none, data) else none)
    else if srOk c k.level.toNat (BitVec.ofNat 64 num) then some (s, srRead s c num) else none
  | _ =>
    if write then (if fld data 2 0 = 0 then some (setCore s c (refetch k data), data) else none)
    else some (s, k.pc)

/-- A write of DBG_CORE_ACC performs its access. -/
def writeAcc (s : State) (a : Access) (pa : Nat) (v m : Word) : State :=
  let j := judgeReg s a .dbgCoreAcc pa false (stored s .dbgCoreAcc pa) v m
  let s1 := recordCodes (store s pa j.word) a pa j.codes
  let c := selCore s
  let result (s : State) (r : BitVec 2) : State := updDbg s (fun d => { d with accResult := r })
  if (getCore s c).mode ≠ .stopped then result s1 2
  else if !coreCover s c then result s1 1
  else match coreAcc s1 c (bit j.cmd 20) (fld j.word 17 16) (fld j.word 13 12) (fld j.word 11 0) (stored s .dbgCoreData (dbgBase + 0x60)) with
    | none => result s1 3
    | some (s2, d) => result (store s2 (dbgBase + 0x60) d) 0

/-! ### The debug bus master (R432 to R434) -/

def busResult (s : State) (r : BitVec 4) : State := updDbg s (fun d => { d with busResult := r, busBusy := false })
/-- An access starts on the packet plane, or is refused. Its walk's reads are one step: one that the fabric cannot carry now
ends the access with RESULT TIMEOUT (DESIGN CHOICE, assumption 68). -/
def busStart (s : State) (w : Word) (write : Bool) : State :=
  let n := if fld w 17 16 = 2 then 4 else 8
  let addr := (stored s .dbgBusAddr (dbgBase + 0x78)).toNat / n * n
  let cell := fld w 11 0
  let l := s.dbg.level.toNat
  let go (s : State) (pa : Nat) : State :=
    let d := stored s .dbgBusData (dbgBase + 0x80)
    submit (updDbg s (fun d => { d with busBusy := true })) { init := dbgInit, cell := some (BitVec.ofNat 12 cell), peek := !write, kind := if write then .write else .read, addr := pa, size := n, data := if write then natLe n d.toNat else [], purpose := .debug }
  if s.dbg.busBusy then s
  else if l = 0 ∨ (bit w 12 ∧ l ≠ 3) ∨ (!bit w 12 ∧ !dataCover s l cell) then busResult s 0xA
  else if write ∧ s.dbg.busBlocked then busResult s 0xB
  else if bit w 12 then (if addr < 2 ^ 44 then go s addr else busResult s 5)
  else match stage2Checked { s := s, tlb := [], init := dbgInit, cell := some (BitVec.ofNat 12 cell) } cell addr (if write then .store else .load) write with
    | (x, .ok leaf) =>
      -- below level 3 the BOOT/KEY block is never reached (R421)
      if l ≠ 3 ∧ leaf.pa / 4096 = 0xF8000060 then busResult x.s 9
      else go (if write then (setDirtyBit x leaf.dm).s else x.s) leaf.pa
    | (x, .error f) =>
      if f.wait then busResult x.s 3 else
      let s1 := match f.guardPa with
        | some p => raise x.s { code := 0x0401, cls := 0, source := BitVec.ofNat 16 dbgInit.toNat, cell := some (BitVec.ofNat 12 cell), addr := some (BitVec.ofNat 64 p, false), init := some (dbgInit, 0) }
        | none => x.s
      busResult s1 (if f.perm then 9 else 8)
/-- A write of DBG_BUS_CTRL. -/
def writeBus (s : State) (a : Access) (v m : Word) : State :=
  let pa := dbgBase + 0x70
  let j := judgeReg s a .dbgBusCtrl pa false (stored s .dbgBusCtrl pa) v m
  let s1 := recordCodes (store s pa j.word) a pa j.codes
  match fld j.cmd 21 20 with
  | 1 => busStart s1 j.word false
  | 2 => busStart s1 j.word true
  | _ => s1
/-- The answer of the debug bus master's access: a status of R75 and the bytes read. -/
def busAnswer (s : State) (read : Bool) (st : BitVec 3) (d : List Byte) : State :=
  let s1 := if read ∧ st = stOK then store s (dbgBase + 0x80) (BitVec.ofNat 64 (leNat d)) else s
  busResult s1 (st.setWidth 4)

/-! ### Registers -/

/-- A DBG register as read. -/
def dbgRead (s : State) (r : Reg) (n pa : Nat) : Word :=
  let d := s.dbg
  match r with
  | .dbgStatus =>
    let st : Nat := match d.auth with | .idle => 0 | .checking => 1 | .challenged => 2 | .opened => 3 | .lockout => 4
    BitVec.ofNat 64 (at' d.fails.toNat 16 + at' (b2n d.sideSuppressed) 8 + at' st 4 + at' (b2n (d.port == some true)) 3 + d.level.toNat)
  | .dbgAuthCmd => BitVec.ofNat 64 (at' d.authResult.toNat 8)
  | .dbgAuthData => look 0 n d.window
  | .dbgCellCtrl => (getDbgCell s (selCell s)).ctrl
  | .dbgCellCmd => BitVec.ofNat 64 (at' (getDbgCell s (selCell s)).result.toNat 8)
  | .dbgCellStatus =>
    let x := getDbgCell s (selCell s)
    BitVec.ofNat 64 (at' x.cause.toNat 16 + at' x.stopped.length 8 + at' (b2n x.late) 4 + stateCode (cellState s (selCell s)))
  | .dbgCtiPulse => 0
  | .dbgCoreCmd => BitVec.ofNat 64 (at' d.coreResult.toNat 8)
  | .dbgCoreAcc =>
    let k := getCore s (selCore s)
    let st : Bool := k.mode = .stopped
    stored s r pa ||| BitVec.ofNat 64 ((if st then at' k.level.toNat 32 + at' 1 31 else 0) + at' d.accResult.toNat 24)
  | .dbgStmMask => look 0 (selCore s) d.stmMask
  | .dbgBusCtrl => stored s r pa ||| BitVec.ofNat 64 (at' (if d.busBusy then 0xC else d.busResult.toNat) 24)
  | .dbgTrcCtrl => stored s r pa ||| BitVec.ofNat 64 (at' d.trcResult.toNat 5)
  | .dbgTbPtr => BitVec.ofNat 64 (at' (b2n d.wrapped) 63 + d.tbPtr)
  | .dbgTrcLost => BitVec.ofNat 64 (at' d.lostLines.toNat 32 + d.lostPackets.toNat)
  | _ => stored s r pa

/-- What a read of DBG_TRC_LOST clears. -/
def dbgClear (s : State) (r : Reg) (m : Word) : State :=
  if r = .dbgTrcLost then updDbg s (fun d => { d with lostLines := if bit m 32 then 0 else d.lostLines, lostPackets := if bit m 0 then 0 else d.lostPackets })
  else s

/-- DBG_HV_LIMIT: from L2 on an A-core only; the level is evaluated anew before the write completes. -/
def writeHvLimit (s : State) (a : Access) (v m : Word) : State :=
  let pa := dbgBase + 0x10
  if !isHyp a then refuse s a 0x0001 dbgSource pa
  else reLevel (writePlain s a .dbgHvLimit pa pa false v m)

/-- A write of a DBG register from the TAP or the fabric; its command bits act after its other fields. -/
def dbgWrite (s : State) (a : Access) (tap : Bool) (r : Reg) (n pa : Nat) (v m : Word) : State :=
  let j := judgeReg s a r pa false (dbgRead s r n pa) v m
  let rec' (s : State) : State := recordCodes s a pa j.codes
  match r with
  | .dbgCtrl =>
    let s1 := writeCtrl s a r pa v m
    if bit (v &&& m) 16 ∧ s.dbg.port.isSome then closeSession s1 else s1
  | .dbgStatus => if bit (v &&& m) 8 then updDbg s (fun d => { d with sideSuppressed := false }) else s
  | .dbgHvLimit => writeHvLimit s a v m
  | .dbgAuthCmd => rec' (authCmd s tap (fld j.cmd 1 0))
  | .dbgAuthData => updDbg s (fun d => { d with window := put n ((look 0 n d.window &&& ~~~m) ||| (v &&& m)) d.window })
  | .dbgCellCtrl => if runCover s s.dbg.level.toNat (selCell s) then rec' (updDbgCell s (selCell s) (fun d => { d with ctrl := j.word })) else s
  | .dbgCellCmd => rec' (cellCmd s (fld j.cmd 1 0))
  | .dbgCtiPulse => ctiPulse s (fld j.cmd 15 0)
  | .dbgCoreCmd => coreCmd s (fld j.cmd 1 0)
  | .dbgCoreAcc => writeAcc s a pa v m
  | .dbgStmMask => updDbg s (fun d => { d with stmMask := put (selCore s) j.word d.stmMask })
  | .dbgBusCtrl => writeBus s a v m
  | .dbgTrcCtrl => writeTrc s a v m
  | .dbgTbBase => if bit (trcCtrl s) 0 then s else writePlain s a r pa pa false v m
  | .dbgCellSel | .dbgCoreSel | .dbgCoreData | .dbgBusAddr | .dbgBusData => writePlain s a r pa pa false v m
  | _ => s

/-! ### Rows -/

/-- DBGREG_UPDATE: one access of the TAP to the DBG block (R414). Bits 79:78 other than 0 make it no access. -/
def execDbgregUpdate (scan : BitVec 80) (s : State) : Host.Outcome State Fault Refusal :=
  let x := scan.toNat
  let o := (x / 2 ^ 64 % 8192) * 8
  .next (
    if tapInstr s ≠ .dbgreg ∨ s.dbg.tapStatus = 1 then s
    else match (if x / 2 ^ 78 = 0 then dbgAt o else none) with
      | none => updDbg s (fun d => { d with tapStatus := 2 })
      | some (r, n) =>
        if !dbgReach s true r then updDbg s (fun d => { d with tapStatus := 2 })
        else if x / 2 ^ 77 % 2 = 1 then updDbg (dbgWrite s tapAccess true r n (dbgBase + o) (scan.setWidth 64) (BitVec.allOnes 64)) (fun d => { d with tapStatus := 0 })
        else updDbg (dbgClear s r (BitVec.allOnes 64)) (fun d => { d with tapStatus := 0, tapData := dbgRead s r n (dbgBase + o) }))

/-- A write of a DBG register over the fabric; at a port that is not the session port it is answered DECODE (R415, R75). -/
def dbgRow (r : Reg) (o : Nat) (a : Access) (v m : Word) (s : State) : State :=
  if dbgReach s false r then dbgWrite s a false r 0 (dbgBase + o) v m else writeFailed s a.init a.cell 2 stDECODE (dbgBase + o) 0
def execDbgBegin (a : Access) (v : Word) (s : State) : Host.Outcome State Fault Refusal := .next (dbgRow .dbgAuthCmd 0x18 a (putFld v 1 0 1) (BitVec.allOnes 64) s)
def execDbgRespond (a : Access) (v : Word) (s : State) : Host.Outcome State Fault Refusal := .next (dbgRow .dbgAuthCmd 0x18 a (putFld v 1 0 2) (BitVec.allOnes 64) s)
def execCloseSession (a : Access) (v : Word) (s : State) : Host.Outcome State Fault Refusal := .next (dbgRow .dbgCtrl 0 a (putFld v 16 16 1) (BitVec.allOnes 64) s)
def execDbgHvLimitWrite (a : Access) (v : Word) (s : State) : Host.Outcome State Fault Refusal := .next (dbgRow .dbgHvLimit 0x10 a v (BitVec.allOnes 64) s)
def execDbgCellHalt (a : Access) (v : Word) (s : State) : Host.Outcome State Fault Refusal := .next (dbgRow .dbgCellCmd 0x30 a (putFld v 1 0 1) (BitVec.allOnes 64) s)
def execDbgCellResume (a : Access) (v : Word) (s : State) : Host.Outcome State Fault Refusal := .next (dbgRow .dbgCellCmd 0x30 a (putFld v 1 0 2) (BitVec.allOnes 64) s)
def execDbgCtiPulse (a : Access) (v : Word) (s : State) : Host.Outcome State Fault Refusal := .next (dbgRow .dbgCtiPulse 0x40 a v (BitVec.allOnes 64) s)
def execDbgCoreStep (a : Access) (v : Word) (s : State) : Host.Outcome State Fault Refusal := .next (dbgRow .dbgCoreCmd 0x50 a (putFld v 1 0 1) (BitVec.allOnes 64) s)
def execDbgCoreHalt (a : Access) (v : Word) (s : State) : Host.Outcome State Fault Refusal := .next (dbgRow .dbgCoreCmd 0x50 a (putFld v 1 0 2) (BitVec.allOnes 64) s)
def execDbgCoreResume (a : Access) (v : Word) (s : State) : Host.Outcome State Fault Refusal := .next (dbgRow .dbgCoreCmd 0x50 a (putFld v 1 0 3) (BitVec.allOnes 64) s)
def execDbgCoreAcc (a : Access) (v : Word) (s : State) : Host.Outcome State Fault Refusal := .next (dbgRow .dbgCoreAcc 0x58 a v (BitVec.allOnes 64) s)
def execDbgBusRead (a : Access) (v : Word) (s : State) : Host.Outcome State Fault Refusal := .next (dbgRow .dbgBusCtrl 0x70 a (putFld v 21 20 1) (BitVec.allOnes 64) s)
def execDbgBusWrite (a : Access) (v : Word) (s : State) : Host.Outcome State Fault Refusal := .next (dbgRow .dbgBusCtrl 0x70 a (putFld v 21 20 2) (BitVec.allOnes 64) s)
def execTraceEnable (a : Access) (v : Word) (s : State) : Host.Outcome State Fault Refusal := .next (dbgRow .dbgTrcCtrl 0x88 a (putFld v 0 0 1) (BitVec.allOnes 64) s)

end Sys2Proof.Machine
end

