-- ==== Sys2Proof/Machine/Peri.lean ====
section
/-! DEFINITION. PCIe, the IOMMU and the peripheral ports, but for what DMA moves (chapter 21, R235 to R237). -/
namespace Sys2Proof.Machine

def pcieBase : Nat := 0xF8000800000
def iommuBase : Nat := 0xF8000900000
def periBase : Nat := 0xF8000A00000
def iommuSource : BitVec 16 := src 0x61 1 0
def pcieSource : BitVec 16 := src 0x61 2 0
def updPeri (s : State) (f : PeriSt → PeriSt) : State := { s with peri := f s.peri }
def updIommu (s : State) (f : Iommu → Iommu) : State := { s with iommu := f s.iommu }
/-! ### PCIe ports (R440 to R442, R448) -/

def pcieCtrlWord (s : State) : Word := stored s .pcieCtrl pcieBase
def bifur (s : State) : Nat := fld (pcieCtrlWord s) 2 1
/-- Does the BIFUR setting have the port? -/
def portExists (s : State) (p : Nat) : Bool := p = 0 || (bifur s = 1 && p = 2) || bifur s = 2
def portCtrl (s : State) (p : Nat) : Word := stored s .pciePortCtrl (bank (pcieBase + 0x10) p)
def getPcie (s : State) (p : Nat) : PcPort := look {} p s.peri.pcie
def updPcie (s : State) (p : Nat) (f : PcPort → PcPort) : State := updPeri s (fun x => { x with pcie := put p (f (getPcie s p)) x.pcie })
/-- Is a boot source 3 being served, so that BAR0 lies onto scratch (R402, R445)? -/
def bootWindow (s : State) : Bool := s.boot.rom = .waiting && (srcList s)[s.boot.listPos]? == some 3
/-- PCIE_0 in endpoint role. -/
def endpointRole (s : State) : Bool := bootWindow s || (bit (pcieCtrlWord s) 3 && bifur s ≤ 1)

/-- Is a port's PERST_N driven low: until software sets the pin (R465; that a write of PCIE_PORT_CTRL does so is a DESIGN
CHOICE, assumption 78), while PERST is 1, and while PCIE is OFF (R453)? -/
def perstPinLow (s : State) (p : Nat) : Bool := !(getPcie s p).perstSet || bit (portCtrl s p) 1 || (getDom s 37).state = .off
/-- May a port's link train: it is enabled and not held in reset, or the boot ROM waits for a host on it (R402)? -/
def mayTrain (s : State) (p : Nat) : Bool := (bit (portCtrl s p) 0 && !bit (portCtrl s p) 1) || (p = 0 && bootWindow s)
/-- PCIE_LINK_CHANGE: the link comes up or leaves L0, or reports an AER error; event 936 + port (R448). -/
def execPcieLinkChange (port : Fin 4) (e : PcieEvent) (s : State) : Host.Outcome State Fault Refusal :=
  let p := port.val
  let c := ownerOf s.comp.live 6 p
  .next (
    if !portExists s p ∨ !inRun s 37 then s
    else match e with
      | .linkUp w r =>
        if mayTrain s p then
          -- the ROM's wait for the host counts from here (R402)
          let s1 := if p = 0 ∧ bootWindow s then updBoot s (fun b => { b with waitFrom := b.waitFrom.or (some s.now) }) else s
          raiseEvent (updPcie s1 p (fun x => { x with l0 := true, width := w, rate := r })) (936 + p)
        else s
      | .linkDown cmd =>
        if (getPcie s p).l0 then
          let s1 := updPcie s p (fun x => { x with l0 := false, width := 0, rate := 0 })
          raiseEvent (if cmd then s1 else fault s1 0x0A03 pcieSource c) (936 + p)
        else s
      | .aerCorr => raiseEvent (fault (updPcie s p (fun x => { x with aerC := satAdd x.aerC 1 })) 0x0A01 pcieSource c) (936 + p)
      | .aerUncorr => raiseEvent (fault (updPcie s p (fun x => { x with aerU := satAdd x.aerU 1 })) 0x0A02 pcieSource c) (936 + p))

/-- A write of PCIE_CTRL: BIFUR only while every port is disabled (R440). -/
def writePcieCtrl (s : State) (a : Access) (v m : Word) : State :=
  let cur := pcieCtrlWord s
  let changes : Bool := fld ((cur &&& ~~~m) ||| (v &&& m)) 2 1 ≠ bifur s
  if changes ∧ (List.range 4).any (fun p => bit (portCtrl s p) 0) then
    writeCtrl (refuse s a 0x0001 pcieSource pcieBase) a .pcieCtrl pcieBase v (m &&& ~~~6)
  else writeCtrl s a .pcieCtrl pcieBase v m
/-- BIFUR_WRITE. -/
def execBifurWrite (a : Access) (v : Word) (s : State) : Host.Outcome State Fault Refusal := .next (writePcieCtrl s a v (BitVec.allOnes 64))

/-! ### The IOMMU (R235 to R237) -/

/-- The IOMMU_MAP records in force, in ascending order of RID, then PASID. -/
def iommuMap (s : State) : List Rec :=
  if s.comp.isSealed then
    (recsOf s.comp.live tIOMMU).foldr (fun r l =>
      let k (q : Rec) : Nat := ru16 q 0 * 2 ^ 32 + ru32 q 4
      l.filter (fun q => k q < k r) ++ r :: l.filter (fun q => k r ≤ k q)) []
  else []
/-- The cell of a requester: by its PASID, or by its RID alone. -/
def mapCell (s : State) (rid : BitVec 16) (pasid : Option (BitVec 20)) : Option Nat :=
  let k : Nat := match pasid with | some p => p.toNat | none => 0xFFFFFFFF
  ((iommuMap s).find? (fun r => ru16 r 0 = rid.toNat && ru32 r 4 = k)).map (fun r => ru16 r 2)

/-- The completion of an inbound read is returned on its link. A write is posted: it has none. -/
def returnCpl (s : State) (p : Fin 4) (rid : BitVec 16) (read : Bool) (st : CplStatus) (d : List Byte) : State :=
  if read then updPeri s (fun x => { x with cpl := some { port := p, rid := rid, status := st, data := d } }) else s

/-- A request refused with a CAUSE: recorded, kept in IOMMU_FAULT if that is free, and counted; a read is completed, with
Unsupported Request for CAUSE 1 and 2, else with Completer Abort (R237). -/
def iommuRefuse (s : State) (r : PcieReq) (cause : Nat) (cell : Option Nat) : State :=
  let code := if cause ≤ 2 then 0x0402 else if cause = 5 then 0x0404 else 0x0403
  let w : Word := BitVec.ofNat 64 (at' 1 63 + at' (b2n r.write) 53 + at' (b2n r.pasid.isSome) 52 + at' ((r.pasid.map (·.toNat)).getD 0) 32 + at' cause 28 + at' (cell.getD 0) 16 + r.rid.toNat)
  let s1 := raise s { code := code, cls := 0, source := iommuSource, cell := cell.map (BitVec.ofNat 12), init := some (pcieInit, BitVec.ofNat 4 r.tc.val) }
  let s2 := updIommu s1 (fun i => { i with
    fault := if bit i.fault 63 then i.fault else w
    faultAddr := if bit i.fault 63 then i.faultAddr else r.addr
    refused := satAdd i.refused 1 })
  returnCpl s2 r.port r.rid (!r.write) (if cause ≤ 2 then .ur else .ca) []

/-- What the IOTLB keeps: the 1,024 entries last installed (R236; the order of replacement is the model's, DESIGN CHOICE,
assumption 67). -/
def capIotlb (l : List TlbEntry) : List TlbEntry := l.take 1024
/-- The IOMMU's walk as initiator unit 1 of PCIE, for a cell. -/
def iommuWk (s : State) (cell : Nat) : Wk := { s := s, tlb := s.iommu.iotlb, init := iommuInit, cell := some (BitVec.ofNat 12 cell) }
/-- What the walk left, put back into the device. -/
def iommuKeep (w : Wk) : State := updIommu w.s (fun i => { i with iotlb := capIotlb w.tlb })
/-- With PREFETCH, a miss installs the page after it too. -/
def iommuPrefetch (s : State) (cell ipa : Nat) (w : Wk) : Wk :=
  let miss : Bool := !(s.iommu.iotlb.any (fun t => t.cell == some cell && covers t.ipa t.log2 ipa))
  if miss && bit (stored s .iommuCtrl iommuBase) 8 && (getCell s cell).s2.getLsbD 0 then (stage2 w cell ((ipa / 4096 + 1) * 4096) false).1 else w
/-- Stage 2 of a cell for a request of PCIE or PERI, with the IOTLB (R236, R449). DIRTY is set for a write that passes the
checks; the type is that of stage 2 under R224. Where a table read has no answer yet the request waits: it is the answer
`wait`, and nothing else has happened but that the wait is under way. -/
def iommuXlate (s : State) (cell ipa : Nat) (write : Bool) : State × Except XFault Leaf :=
  let kd : AKind := if write then .store else .load
  match stage2Checked (iommuWk s cell) cell ipa kd false with
  | (w, .error f) => if f.wait then ({ s with fab := { s.fab with cut := w.s.fab.cut } }, .error f) else (iommuKeep w, .error f)
  | (w, .ok l) =>
    -- a write whose entry lacks DIRTY walks again to set it
    match (if write ∧ l.dm.isSome then stage2Checked w cell ipa kd true else (w, .ok l)) with
    | (w1, .error f) => if f.wait then ({ s with fab := { s.fab with cut := w1.s.fab.cut } }, .error f) else (iommuKeep w1, .error f)
    | (w1, .ok l1) =>
      let w2 : Wk := if write then { setDirtyBit w1 l1.dm with tlb := w1.tlb.map (fun t => if t.asid = s2Asid ∧ some t.va = l1.dm then { t with dirty := true, va := 0 } else t) } else w1
      (iommuKeep (iommuPrefetch s cell ipa w2), .ok { l1 with mt := finalType l1.pa l1.mt })
/-- An inbound request's type: DEVICE is raised to NORMAL_NC (R236). -/
def inboundNc (l : Leaf) : Bool := l.mt = 0 || l.mt = 1

/-! ### Inbound requests (R443 to R445) -/

/-- Is the stream of an inbound write blocked? -/
def inboundBlocked (s : State) (p : Posted) : Bool := (blockOf s pcieInit (BitVec.ofNat 4 p.tc) (some (BitVec.ofNat 12 p.cell))).isSome
/-- An accepted request whose turn has come is issued; an MSI whose turn has come raises its event. Posted writes of one
requester ID and traffic class are performed in order, and nothing of it passes an earlier one (R443, R444). -/
def pumpFrom (s : State) : List Posted → List Posted → State × List Posted
  | done, [] => (s, done)
  | done, p :: rest =>
    let waits : Bool := done.any (fun q => q.rid = p.rid && q.tc = p.tc && (q.write || q.msi.isSome))
    if waits ∨ p.txn.isSome then pumpFrom s (done ++ [p]) rest
    else match p.msi with
      | some e => pumpFrom (raiseEventBy s e p.stamp (some p.cell)) done rest
      | none =>
        if p.write ∧ inboundBlocked s p then pumpFrom s (done ++ [p]) rest
        else
          let t : Txn := { init := pcieInit, cell := some (BitVec.ofNat 12 p.cell), stream := BitVec.ofNat 4 p.tc, kind := if p.write then .write else .read, addr := p.addr, size := p.size, data := p.data, nc := p.nc, purpose := .pcie }
          pumpFrom (submit s t) (done ++ [{ p with txn := some s.fab.nextId }]) rest
def pump (s : State) : State := let r := pumpFrom s [] s.peri.posted; updPeri r.1 (fun x => { x with posted := r.2 })

/-- The pieces of a request, none across a 64-byte line. -/
def linePieces : Nat → Nat → Nat → List (Nat × Nat)
  | 0, _, _ => []
  | fuel + 1, a, n => if n = 0 then [] else let k := min n (64 - a % 64); (a, k) :: linePieces fuel (a + k) (n - k)
/-- A translated request enters PCIE's queue, piece by piece. -/
def acceptInbound (s : State) (r : PcieReq) (cell pa : Nat) (nc : Bool) : State :=
  let n := if r.write then r.data.length else r.len
  let es : List Posted := (linePieces (n + 1) pa n).map (fun q =>
    { port := r.port, rid := r.rid, cell := cell, tc := r.tc.val, write := r.write, nc := nc, addr := q.1, size := q.2, data := if r.write then (r.data.drop (q.1 - pa)).take q.2 else [] })
  pump (updPeri s (fun x => { x with posted := x.posted ++ es }))

/-- Is an event routed with TARGET 1, or with TARGET 0 to the cell of the requester (R443)? -/
def msiRouted (s : State) (r : PcieReq) (e : Nat) : Bool :=
  s.comp.isSealed && (match routeOf s.comp.live e with
    | some q => ru8 q 6 = 1 || (ru8 q 6 = 0 && mapCell s r.rid r.pasid == some (ru16 q 2))
    | none => false)

/-- A request placed into a cell, translated and accepted, or refused. -/
def inbound (s : State) (r : PcieReq) (ipa : Nat) : State :=
  match mapCell s r.rid r.pasid with
  | none => iommuRefuse s r 1 none
  | some c =>
    if r.at2 ≠ 0 then iommuRefuse s r 2 none
    else if cellState s c ≠ .active then iommuRefuse s r 5 (some c)
    else match iommuXlate s c ipa r.write with
      | (s1, .ok l) => acceptInbound s1 r c l.pa (inboundNc l)
      | (s1, .error f) =>
        if f.wait then s1
        else
        let s2 := match f.guardPa with
          | some p => raise s1 { code := 0x0401, cls := 0, source := iommuSource, cell := some (BitVec.ofNat 12 c), addr := some (BitVec.ofNat 64 p, false), init := some (pcieInit, BitVec.ofNat 4 r.tc.val) }
          | none => s1
        iommuRefuse s2 r (if f.perm then 4 else 3) (some c)

/-- INBOUND_PCIE_REQUEST. While PCIE's buffer is full of held writes the link's posted traffic stalls; so does a request
while its walk waits for the fabric: the partner presents it again (DESIGN CHOICE, assumption 70). -/
def execInboundPcieRequest (r : PcieReq) (s : State) : Host.Outcome State Fault Refusal :=
  let p := r.port.val
  let ep : Bool := p = 0 && endpointRole s
  .next (
    if !inRun s 37 then s
    else if ep ∧ bootWindow s then
      (if r.write ∧ r.addr.toNat + r.data.length ≤ 0x2000000 then performWrite s (scratchBase + r.addr.toNat) r.data else s)
    else if !portExists s p ∨ !(getPcie s p).l0 then s
    else if r.write ∧ 256 ≤ (s.peri.posted.filter (fun q => q.write && q.txn.isNone)).length then s
    else if ep then
      (if r.addr.toNat < 0x2000000 then inbound s r (fld (stored s .pcieEpWin (pcieBase + 0x20)) 24 0 * 2 ^ 24 + r.addr.toNat) else s)
    else if r.write ∧ r.addr = 0xFEE00000 ∧ r.data.length = 4 then
      let e := 384 + leNat r.data % 512
      if msiRouted s r e then
        pump (updPeri s (fun x => { x with posted := x.posted ++ [{ rid := r.rid, cell := (mapCell s r.rid r.pasid).getD 0, tc := r.tc.val, write := false, msi := some e, stamp := s.now }] }))
      else iommuRefuse s r 4 (mapCell s r.rid r.pasid)
    else inbound s r r.addr.toNat)

/-- The answer of an inbound request's transaction: it has been performed, or its stream is blocked (R444). The status of
the completion of a read that failed is the model's: the spec states none (DESIGN CHOICE, assumption 70). -/
def pcieAnswer (s : State) (t : Txn) (st : BitVec 3) (code : Nat) (d : List Byte) : State :=
  let s0 := match s.peri.posted.find? (fun p => p.txn == some t.id) with
    | some p => returnCpl s p.port p.rid (!p.write) (if st = stOK ∨ st = stPOISON then .sc else .ca) d
    | none => s
  let s1 := updPeri s0 (fun x => { x with posted := x.posted.filter (fun p => p.txn ≠ some t.id) })
  if t.kind = .write ∧ st ≠ stOK then
    let (s2, blocked) := failWrite s1 t.init t.stream t.cell st t.addr 0 code (BitVec.ofNat 16 t.init.toNat)
    if blocked then pump s2
    else pump (updPeri s2 (fun x => { x with posted := x.posted.filter (fun p => !(p.write && p.txn.isNone && p.tc = t.stream.toNat && some (BitVec.ofNat 12 p.cell) == t.cell)) }))
  else pump s1

/-! ### Peripheral ports (R448, R449, R452, R453) -/

def getSerial (s : State) (i : Nat) : Serial := look {} i s.peri.serial
def updSerial (s : State) (i : Nat) (f : Serial → Serial) : State := updPeri s (fun x => { x with serial := put i (f (getSerial s i)) x.serial })
/-- A STATUS register whose layout is the port standard's: its new value is open. -/
def touchStatus (s : State) (i : Nat) : State := let d := drawFree s; updSerial d.2 i (fun u => { u with status := Config.freeWord d.1 })

/-- UART_RX_EVENT. -/
def execUartRxEvent (i : Fin 2) (e : UartEvent) (s : State) : Host.Outcome State Fault Refusal :=
  let k := i.val
  .next (
    if !inRun s 38 then s
    else
      let s0 := touchStatus s k
      match e with
      | .rx b =>
        let u := getSerial s0 k
        if 64 ≤ u.rx.length then updSerial s0 k (fun u => { u with lost := satAdd u.lost 1 })
        else
          let s1 := updSerial s0 k (fun u => { u with rx := u.rx ++ [b] })
          if u.rx.length = 31 then raiseEvent s1 (928 + k) else s1
      | .idle => raiseEvent s0 (928 + k)
      | .error => raiseEvent s0 (928 + k))
/-- I3C_TRANSFER_DONE: what it received stands in its FIFO. -/
def execI3cTransferDone (e : I3cEvent) (s : State) : Host.Outcome State Fault Refusal :=
  .next (
    if !inRun s 38 then s
    else
      let s0 := touchStatus s 9
      raiseEvent (match e with | .done rx => updSerial s0 9 (fun u => { u with rx := u.rx ++ rx }) | .ibi _ => s0) 930)
/-- XSPI_COMMAND_DONE. -/
def execXspiCommandDone (i : Fin 2) (s : State) : Host.Outcome State Fault Refusal :=
  .next (if inRun s 38 then raiseEvent (touchStatus s (16 + i.val)) (931 + i.val) else s)
/-- UFS_RST_N released by the UFS host. It is low from PORST_N until then (R455). That the host releases it when its enable
bit is set (HCE, bit 0 of HCE at UFSHCI offset 0x34) is PRESUMED (assumption 71). -/
def ufsRelease (s : State) (n : Nat) (v m : Word) : State :=
  if n = 6 ∧ bit (v &&& m) 32 then updPeri s (fun x => { x with ufsOut := true }) else s
/-- UFS_REFCLK: is the clock running? It is stopped only while UFS_RST_N is low, and while PERI is in DOZE, where the link
is in Hibern8, or OFF (R455, R453). -/
def ufsClock (s : State) : Bool := s.peri.ufsOut && inRun s 38
/-- UFS_COMPLETION. -/
def execUfsCompletion (s : State) : Host.Outcome State Fault Refusal := .next (if inRun s 38 then raiseEvent s 933 else s)

def gpioReg (s : State) (r : Reg) (o : Nat) : Word := stored s r (periBase + o)
/-- VALUE of a pin's GPIO_SAFE. -/
def gpioSafe (s : State) (p : Nat) : Option Nat := if s.comp.isSealed then (findRec s.comp.live tGPIO (fun r => ru8 r 0 = p)).map (fun r => ru8 r 1) else none
/-- Does the safe value of a pin apply (R452)? -/
def safeApplies (s : State) (p : Nat) : Bool :=
  match ownerOf s.comp.live 4 p with
  | some c => s.comp.isSealed && isProtected s.comp.live c && (gpioSafe s p).isSome && (s.flt.safe || cellState s c = .halted || cellState s c = .faulted)
  | none => false
/-- What the device drives onto a pad: low, high, or nothing. -/
def padDrive (s : State) (p : Nat) : Option Bool :=
  let safe (v : Option Nat) : Option Bool := match v with | some 0 => some false | some 1 => some true | _ => none
  if (getDom s 38).state = .off then safe (gpioSafe s p)
  else if safeApplies s p then safe (gpioSafe s p)
  else
    let dir := gpioReg s .periGpioDir 0x30
    let out := bit (gpioReg s .periGpioOut 0x38) p
    if !bit dir p then none else if bit dir (32 + p) ∧ out then none else some out
/-- The level of a pad (PERI_GPIO_IN). -/
def padLevel (s : State) (p : Nat) : Bool := (padDrive s p).getD (s.peri.gpioIn.getLsbD p)

/-- GPIO_EDGE: the outside changes a pin; a selected edge of its pad raises event 896 + pin. -/
def execGpioEdge (pin : Fin 32) (level : Bool) (s : State) : Host.Outcome State Fault Refusal :=
  let p := pin.val
  let s1 := updPeri s (fun x => { x with gpioIn := if level then x.gpioIn ||| BitVec.ofNat 32 (2 ^ p) else x.gpioIn &&& ~~~(BitVec.ofNat 32 (2 ^ p)) })
  let sel := gpioReg s .periGpioEdge 0x48
  let edge : Bool := padLevel s p != padLevel s1 p && (if padLevel s1 p then bit sel (2 * p) else bit sel (2 * p + 1))
  .next (if edge ∧ inRun s 38 then raiseEvent s1 (896 + p) else s1)

/-- May an access write the bits of a pin (R449, R452)? An access that carries no cell, and the hypervisor's, reach every
pin; the owner's are ignored while the safe value applies. -/
def mayPin (s : State) (a : Access) (p : Nat) : Bool :=
  isHyp a || a.cell.isNone || (ownerOf s.comp.live 4 p == a.cell.map (·.toNat) && !safeApplies s p)
/-- The bits that a GPIO write reaches, from the pins it may write. -/
def pinMask (s : State) (a : Access) (bits : Nat → List Nat) : Word :=
  BitVec.ofNat 64 (((List.range 32).filter (mayPin s a)).flatMap bits |>.map (2 ^ ·)).sum

/-- May an access reach the registers of an instance (R449)? -/
def ownsInstance (s : State) (a : Access) (kind inst : Nat) : Bool :=
  isHyp a || a.cell.isNone || ownerOf s.comp.live kind inst == a.cell.map (·.toNat)

/-! ### Registers -/

def selPcie (s : State) : Nat := fld (stored s .pciePortSel (pcieBase + 8)) 1 0
def selChan (s : State) : Nat := fld (stored s .periDmaSel (periBase + 8)) 3 0
def getDma (s : State) (k : Nat) : DmaChan := look {} k s.peri.dma
def updDma (s : State) (k : Nat) (f : DmaChan → DmaChan) : State := updPeri s (fun x => { x with dma := put k (f (getDma s k)) x.dma })

/-- May an access reach a register of PERI; is there such a register for it? -/
def periReach (s : State) (a : Access) (r : Reg) (n : Nat) : Bool :=
  match r with
  | .periCtrlPage | .periStatusPage | .periDataPage => ownsInstance s a (n / 8) (n % 8)
  | .ufshci => ownsInstance s a 3 0
  | _ => true

/-- A PCIE register as read. -/
def pcieRead (s : State) (r : Reg) (pa : Nat) : Word :=
  match r with
  | .pciePortCtrl => portCtrl s (selPcie s)
  | .pciePortStatus =>
    let x := getPcie s (selPcie s)
    BitVec.ofNat 64 (at' x.aerU.toNat 48 + at' x.aerC.toNat 32 + at' x.width.toNat 8 + at' x.rate.toNat 5 + b2n x.l0)
  | .pcieEpWin => stored s r pa ||| BitVec.ofNat 64 (at' s.peri.doorbell.toNat 32)
  | _ => stored s r pa
def pcieClear (s : State) (r : Reg) (m : Word) : State :=
  match r with
  | .pciePortStatus => updPcie s (selPcie s) (fun x => { x with aerU := if bit m 48 then 0 else x.aerU, aerC := if bit m 32 then 0 else x.aerC })
  | .pcieEpWin => if bit m 32 then updPeri s (fun x => { x with doorbell := 0 }) else s
  | _ => s
def pcieWrite (s : State) (a : Access) (r : Reg) (pa : Nat) (v m : Word) : State :=
  match r with
  | .pcieCtrl => writePcieCtrl s a v m
  | .pciePortCtrl => updPcie (writePlain s a r pa (bank pa (selPcie s)) false v m) (selPcie s) (fun x => { x with perstSet := true })
  | .pciePortSel | .pcieEpWin => writePlain s a r pa pa false v m
  | _ => s

/-- An IOMMU register as read. -/
def iommuRead (s : State) (r : Reg) (pa : Nat) : Word :=
  let i := s.iommu
  match r with
  | .iommuStatus => BitVec.ofNat 64 (at' i.iotlb.length 16 + (iommuMap s).length)
  | .iommuMapInfo =>
    match ((iommuMap s).drop (fld (stored s .iommuMapSel (iommuBase + 0x10)) 11 0)).head? with
    | some q => BitVec.ofNat 64 ((if ru32 q 4 = 0xFFFFFFFF then at' 1 29 else at' (ru32 q 4 % 2 ^ 20) 32) + at' 1 28 + at' (ru16 q 2) 16 + ru16 q 0)
    | none => 0
  | .iommuFault => i.fault
  | .iommuFaultAddr => i.faultAddr
  | .iommuCount => i.refused.setWidth 64
  | _ => stored s r pa
def iommuClear (s : State) (r : Reg) (m : Word) : State := if r = .iommuCount ∧ bit m 0 then updIommu s (fun i => { i with refused := 0 }) else s
def iommuWrite (s : State) (a : Access) (r : Reg) (pa : Nat) (v m : Word) : State :=
  match r with
  | .iommuCtrl => writeCtrl s a r pa v m
  | .iommuMapSel => writePlain s a r pa pa false v m
  | .iommuFault => if bit (v &&& m) 63 then updIommu s (fun i => { i with fault := putFld i.fault 63 63 0 }) else s
  | _ => s

/-- A PERI register as read; `n` is KIND × 8 + INSTANCE of a port page, or the number of a UFSHCI register. -/
def periRead (s : State) (r : Reg) (n pa : Nat) : Word :=
  let c := getDma s (selChan s)
  match r with
  | .periDmaCfg => (c.desc &&& ~~~7) ||| BitVec.ofNat 64 (4 * b2n c.dir)
  | .periDmaCtrl => BitVec.ofNat 64 (at' c.port.toNat 8)
  | .periDmaOpStatus => c.op.word
  | .periGpioIn => BitVec.ofNat 64 (((List.range 32).filter (padLevel s)).map (2 ^ ·)).sum
  | .periCtrlPage => (getSerial s n).ctrl
  | .periStatusPage => (getSerial s n).status
  | .periDataPage => BitVec.ofNat 64 (((getSerial s n).rx.head?.map (·.toNat)).getD 0)
  | .ufshci => look 0 n s.peri.ufs
  | _ => stored s r pa
/-- What a read of a DATA register removes (R449). -/
def periClear (s : State) (r : Reg) (n : Nat) (m : Word) : State :=
  if r = .periDataPage ∧ bit m 0 ∧ n < 16 then updSerial s n (fun u => { u with rx := u.rx.drop 1 }) else s

/-- A write of a PERI register, but for PERI_DMA_CTRL's START. -/
def periWrite (s : State) (a : Access) (r : Reg) (n pa : Nat) (v m : Word) : State :=
  let k := selChan s
  let c := getDma s k
  let merge (old : Word) : Word := (old &&& ~~~m) ||| (v &&& m)
  match r with
  | .periCtrl => writeCtrl s a r pa v m
  | .periDmaSel => writePlain s a r pa pa false v m
  | .periDmaCfg => let w := merge (periRead s r n pa); updDma s k (fun x => { x with desc := if c.op.st = 1 then x.desc else w &&& ~~~7, dir := bit w 2 })
  | .periDmaOpStatus => updDma s k (fun x => { x with op := (if bit (v &&& m) 8 then (if bit (v &&& m) 3 then { x.op with abortLate := false } else x.op).request else if bit (v &&& m) 3 then { x.op with abortLate := false } else x.op) })
  | .periGpioDir => writePlain s a r pa pa false v (m &&& pinMask s a (fun p => [p, 32 + p]))
  | .periGpioOut => writePlain s a r pa pa false v (m &&& pinMask s a (fun p => [p]))
  | .periGpioEdge => writePlain s a r pa pa false v (m &&& pinMask s a (fun p => [2 * p, 2 * p + 1]))
  | .periCtrlPage => updSerial s n (fun u => { u with ctrl := merge u.ctrl })
  | .periStatusPage => touchStatus s n
  | .periDataPage => if bit m 0 then updSerial s n (fun u => { u with tx := u.tx ++ [v.setWidth 8] }) else s
  | .ufshci => ufsRelease (updPeri s (fun x => { x with ufs := put n (merge (look 0 n x.ufs)) x.ufs })) n v m
  | _ => s

end Sys2Proof.Machine
end

