-- ==== Sys2Proof/Machine/Reset.lean ====
section
/-! DEFINITION. Resets: PORST_N, the device's own power-on reset, and the warm reset (R333, R343, R408, R411, R412,
R463, R464). -/
namespace Sys2Proof.Machine

/-- What every reset leaves: the commands that wait, the model's own counter, the pins' levels and the fuses. -/
def afterReset (s : State) : State :=
  { State.reset with
    pending := s.pending
    free := s.free
    flt := { State.reset.flt with extLevel := s.flt.extLevel, extLow := if s.flt.extLevel then none else some 0 }
    boot := { State.reset.boot with lcBlown := s.boot.lcBlown, minBlown := s.boot.minBlown, strapPins := s.boot.strapPins, testEn := s.boot.testEn, porst := s.boot.porst, por := s.boot.por }
    peri := { State.reset.peri with gpioIn := s.peri.gpioIn } }

/-- PORST_N_ASSERT: every state goes to its reset value. -/
def execPorstNAssert (s : State) : Host.Outcome State Fault Refusal := .next (updBoot (afterReset s) (fun b => { b with porst := true }))
/-- POWER_ON_RESET: the device resets itself exactly as at PORST_N (R464). -/
def execPowerOnReset (s : State) : Host.Outcome State Fault Refusal := .next (updBoot (afterReset s) (fun b => { b with por := true }))

/-- Step 1 of R408: the strap is read, pair 0 stands at the boot ROM, and the ROM starts its search; in END it stops. -/
def startBoot (s : State) : State :=
  let pins := s.boot.strapPins
  let s1 := updBoot s (fun b => { b with strap := if strapLock ∧ (b.lc = 1 ∨ b.lc = 2) then 6 else pins, listPos := 0 })
  let s2 := updCore s1 128 (fun k => { k with pc := 0xF0040000000, fetchPc := 0xF0040000000 })
  if s2.boot.lc = 3 then updBoot s2 (fun b => { b with rom := .held })
  else searchBoot 6 s2

/-- The end of a reset as at PORST_N: the fuses are sampled too (R393). -/
def coldBoot (s : State) : State :=
  startBoot (updBoot s (fun b => { b with lc := fusedLc s, lcNext := none }))

/-- PORST_N_RELEASE: bits 2:0 of the pins are BOOT_SRC, bit 3 TEST_EN. The device's own reset may still last. -/
def execPorstNRelease (straps : BitVec 4) (s : State) : Host.Outcome State Fault Refusal :=
  .next (if !s.boot.porst then s
    else
      let s1 := updBoot s (fun b => { b with porst := false, strapPins := straps.setWidth 3, testEn := straps.getLsbD 3 })
      if s1.boot.por then s1 else coldBoot s1)
/-- POWER_ON_RESET_END: the rails have been back in range for 10 ms. -/
def execPowerOnResetEnd (s : State) : Host.Outcome State Fault Refusal :=
  .next (if !s.boot.por then s
    else
      let s1 := updBoot s (fun b => { b with por := false })
      if s1.boot.porst then s1 else coldBoot s1)

/-- Records still detected or queued at a warm reset are lost and counted (R336). -/
def loseQueue (f : Flt) : Flt :=
  (f.queue.map (fun r => (r.msg.source.toNat, r.cls.toNat)) ++ f.raised.map (fun m => (m.source.toNat, m.cls.toNat))).foldl (fun f x =>
    { f with
      lostBy := put x.1 (satAdd (look (0 : BitVec 32) x.1 f.lostBy) 1) f.lostBy
      lostC := if x.2 = 0 then satAdd f.lostC 1 else f.lostC
      lostO := if x.2 = 1 then satAdd f.lostO 1 else f.lostO
      lostK := if x.2 = 2 then satAdd f.lostK 1 else f.lostK
      lostD := if x.2 = 3 then satAdd f.lostD 1 else f.lostD }) f

/-- A warm reset (R411): as PORST_N, but for the timebase, scratch, the fault ring with HEAD, TAIL and FLT_DREC, the
sequence counters, the fuses, the skip latch, and what other rules keep until PORST_N. -/
def warmReset (s : State) : State :=
  let z := afterReset s
  let f := loseQueue s.flt
  let z1 := { z with
    now := s.now
    mem := s.mem.filter (fun c => scratchBase ≤ c.1 && c.1 < scratchLimit)
    poison := s.poison.filter (fun u => scratchBase ≤ 8 * u && 8 * u < scratchLimit)
    cache := { z.cache with bad := s.cache.bad.filter (fun b => scratchBase ≤ 8 * b.1 && 8 * b.1 < scratchLimit) }
    flt := { z.flt with seqs := f.seqs, lostBy := f.lostBy, lostC := f.lostC, lostO := f.lostO, lostK := f.lostK, lostD := f.lostD, ringEn := f.ringEn, lock := f.lock, ringBase := f.ringBase, ringLog2 := f.ringLog2, head := f.head, tail := f.tail, drec := f.drec, extLow := if s.flt.extLevel then none else some s.now }
    time := { z.time with locked := s.time.locked, refOk := s.time.refOk, holdover := s.time.holdover, goodSince := s.time.goodSince, devLast := s.now }
    boot := { z.boot with lc := s.boot.lc, lcNext := s.boot.lcNext, skipA := s.boot.skipA, skipB := s.boot.skipB, skipSrc := s.boot.skipSrc }
    dbg := { z.dbg with ir := s.dbg.ir, fails := s.dbg.fails, auth := if s.dbg.auth = .lockout then .lockout else .idle, since := s.dbg.since } }
  startBoot z1

/-- WARM_N: a low pulse of the pin and its release, with the levels of the strap pins. While PORST_N is low it is ignored
(R463). -/
def execWarmN (straps : BitVec 4) (s : State) : Host.Outcome State Fault Refusal :=
  .next (if s.boot.porst ∨ s.boot.por then s else warmReset (updBoot s (fun b => { b with strapPins := straps.setWidth 3 })))

/-- A write of BOOT_RESET_CMD: KEY 0x3C, from a Mladette pair, replaces the skip latch and starts a warm reset (R412). -/
def writeResetCmd (s : State) (a : Access) (v m : Word) : State :=
  if !(isMld a) then refuse s a 0x0001 bootSource (bootBase + 0x90)
  else if fld (v &&& m) 7 0 ≠ 0x3C then s
  else warmReset (updBoot s (fun b => { b with skipA := bit (v &&& m) 8, skipB := bit (v &&& m) 9, skipSrc := b.source }))
def execBootResetCmd (a : Access) (v : Word) (s : State) : Host.Outcome State Fault Refusal := .next (writeResetCmd s a v (BitVec.allOnes 64))

end Sys2Proof.Machine
end

