-- ==== Sys2Proof/Machine/Regs.lean ====
section
/-! DEFINITION. Any device register read or written: which block holds it, who reaches it, what a read clears (R3, R4,
R433, R478 to R484), and the start of a DMA channel (R450). -/
namespace Sys2Proof.Machine

/-! ### SYS (R480) -/

def sysBase : Nat := 0xF8000000000
/-- Has an instance of a block code EXPERT_EN set? -/
def anyExpert (s : State) (b : Nat) : Bool :=
  s.regs.any (fun e => e.1 % 2 ^ 44 = ctrlOf (e.1 % 2 ^ 44) && e.2.getLsbD 0 && (match expertCode (e.1 % 2 ^ 44) with | some (k, _) => k == b | none => false))
/-- Does the sealed composition hold EXPERT_PERMIT for a block code? -/
def anyPermit (s : State) (b : Nat) : Bool := s.comp.isSealed && (findRec s.comp.live tEXPERT (fun r => ru8 r 0 = b)).isSome
/-- A SYS register as read. -/
def sysRead (s : State) (r : Reg) : Word :=
  match r with
  | .sysId => regReset .sysId
  | .sysStrap => BitVec.ofNat 64 (at' (b2n s.boot.testEn) 8 + s.boot.strapPins.toNat)
  | _ => BitVec.ofNat 64 (((List.range 12).map (fun b => at' (b2n (anyPermit s b)) (32 + b) + at' (b2n (anyExpert s b)) b)).sum)

/-! ### DMA channels started (R450) -/

/-- The instances a channel may serve, as KIND × 8 + INSTANCE: UART_0, UART_1, I3C_1, xSPI_0, xSPI_1. -/
def dmaPorts : List Nat := [0, 1, 9, 16, 17]
def dmaCtrlAddr : Nat := periBase + 0x18
/-- The owner of a channel's instance: a cell, or `none` for the hypervisor. -/
def dmaOwner (s : State) (c : DmaChan) : Option Nat := if s.comp.isSealed then ownerOf s.comp.live (c.bound.toNat / 8) (c.bound.toNat % 8) else none
/-- May a channel begin a descriptor: its owner is ACTIVE, or the hypervisor, and the device is not in safe state (R453)? -/
def dmaRuns (s : State) (c : DmaChan) : Bool := !s.flt.safe && (match dmaOwner s c with | some x => cellState s x = .active | none => true)
/-- A channel ends in ERROR: recorded. -/
def dmaError (s : State) (k : Nat) : State :=
  fault (updDma s k (fun x => { x with op := x.op.finish 4 })) 0x0A04 (src 0x62 0 0) (dmaOwner s (getDma s k))
/-- A write of PERI_DMA_CTRL: PORT, then START, which binds the channel to PORT and DIR as they then stand and is ignored
while the channel is BUSY. PORT written while a chain runs is kept for the next START: the running chain keeps its
instance and direction (DESIGN CHOICE, assumption 57). A channel bound to no instance ends in ERROR. -/
def writeDmaCtrl (s : State) (a : Access) (v m : Word) : State :=
  let k := selChan s
  let c := getDma s k
  let j := judgeReg s a .periDmaCtrl dmaCtrlAddr false (periRead s .periDmaCtrl 0 dmaCtrlAddr) v m
  let s1 := recordCodes s a dmaCtrlAddr j.codes
  let s2 := updDma s1 k (fun x => { x with port := BitVec.ofNat 8 (fld j.word 15 8) })
  if c.op.st = 1 ∨ !bit j.cmd 0 then s2
  else
    let s3 := updDma s2 k (fun x => { x with bound := x.port, boundDir := x.dir })
    let s4 := updDma s3 k (fun x => { x with op := OpStatus.start, cur := x.desc.toNat, begun := dmaRuns s3 x, pos := 0, marked := false, paused := false })
    if dmaPorts.contains (getDma s4 k).bound.toNat then s4 else dmaError s4 k

/-! ### Which register, and for whom (R4, R479) -/

/-- The half that a device access reaches: 64 bits, or 32 bits, naturally aligned; no other access reaches a register. -/
def halfOf (pa n : Nat) : Option Half :=
  if n = 8 ∧ pa % 8 = 0 then some .full
  else if n = 4 ∧ pa % 8 = 0 then some .low
  else if n = 4 ∧ pa % 8 = 4 then some .high
  else none

/-- The register at an address that the access may reach (R305, R351, R415, R449). -/
def reached (s : State) (a : Access) (pa : Nat) : Option (Reg × Nat) :=
  match regAt (pa / 8 * 8) with
  | none => none
  | some (r, n) =>
    let o := pa - 0xF8000000000
    let ok : Bool :=
      if 0x30000 ≤ o ∧ o < 0x40000 then timeReach s a r n
      else if 0x70000 ≤ o ∧ o < 0x80000 then dbgReach s false r
      else if 0x700000 ≤ o ∧ o < 0x800000 then netReach s a r n
      else if 0xA00000 ≤ o then periReach s a r n
      else true
    if ok then some (r, n) else none

/-- The value of a register as an access reads it. -/
def regValue (s : State) (a : Access) (r : Reg) (n pa : Nat) : Word :=
  let o := pa - 0xF8000000000
  if o < 0x10000 then sysRead s r
  else if o < 0x20000 then compRead s r
  else if o < 0x30000 then fabRead s r n pa
  else if o < 0x40000 then timeRead s a r n pa
  else if o < 0x50000 then fltRead s r n pa
  else if o < 0x60000 then pwrRead s a r pa
  else if o < 0x70000 then bootRead s r pa
  else if o < 0x80000 then dbgRead s r n pa
  else if o < 0x200000 then cluRead s r n pa
  else if o < 0x600000 then hbmRead s r n pa
  else if o < 0x700000 then slcRead s r pa
  else if o < 0x800000 then netRead s r n pa
  else if o < 0x900000 then pcieRead s r pa
  else if o < 0xA00000 then iommuRead s r pa
  else periRead s r n pa

/-- What the read of a register clears or removes, in the half that it reads (R3, R4). -/
def regClear (s : State) (r : Reg) (n pa : Nat) (m : Word) : State :=
  let o := pa - 0xF8000000000
  if o < 0x10000 then s
  else if o < 0x20000 then compClear s r m
  else if o < 0x30000 then fabClear s r m
  else if o < 0x40000 then timeClear s r n m
  else if o < 0x50000 then fltClear s r m
  else if o < 0x60000 then pwrClear s r m
  else if o < 0x70000 then s
  else if o < 0x80000 then dbgClear s r m
  else if o < 0x200000 then cluClear s r n m
  else if o < 0x600000 then hbmClear s r n m
  else if o < 0x700000 then slcClear s r m
  else if o < 0x800000 then netClear s r n m
  else if o < 0x900000 then pcieClear s r m
  else if o < 0xA00000 then iommuClear s r m
  else periClear s r n m

/-- A register written: `v` and `m` at the places of the whole register. No register of SYS can be written (R480). -/
def regWrite (s : State) (a : Access) (r : Reg) (n pa : Nat) (v m : Word) : State :=
  let o := pa - 0xF8000000000
  if o < 0x10000 then refuse s a 0x0001 (regSource pa) pa
  else if o < 0x20000 then compWrite s a r pa v m
  else if o < 0x30000 then fabWrite s a r pa v m
  else if o < 0x40000 then timeWrite s a r n pa v m
  else if o < 0x50000 then fltWrite s a r pa v m
  else if o < 0x60000 then pwrWrite s a r pa v m
  else if o < 0x70000 then (if r = .bootResetCmd then writeResetCmd s a v m else bootWrite s a r n pa v m)
  else if o < 0x80000 then dbgWrite s a false r n pa v m
  else if o < 0x200000 then cluWrite s a r n pa v m
  else if o < 0x600000 then hbmWrite s a r n pa v m
  else if o < 0x700000 then slcWrite s a r pa v m
  else if o < 0x800000 then netWrite s a r n pa v m
  else if o < 0x900000 then pcieWrite s a r pa v m
  else if o < 0xA00000 then iommuWrite s a r pa v m
  else if r = .periDmaCtrl then writeDmaCtrl s a v m
  else periWrite s a r n pa v m

/-- Does the read of a register remove an entry from a queue (R433)? -/
def popsQueue (r : Reg) (n : Nat) : Bool := r = .periDataPage && decide (n < 16)

/-- A half of a register read by an access: the state after it, and the value at its place; `none` where it is answered
DECODE. A peek clears nothing, and one that would remove an entry returns 0 (R433). -/
def readReg (s : State) (a : Access) (pa : Nat) (h : Half) : Option (State × Word) :=
  let p := pa / 8 * 8
  match reached s a p with
  | none => none
  | some (r, n) =>
    if a.peek then
      (if popsQueue r n then some ({ s with dbg := { s.dbg with sideSuppressed := true } }, 0) else some (s, regValue s a r n p &&& halfMask h))
    else some (regClear s r n p (halfMask h), regValue s a r n p &&& halfMask h)

/-- A half of a register written by an access; `none` where it is answered DECODE. -/
def writeReg (s : State) (a : Access) (pa : Nat) (h : Half) (v : Word) : Option State :=
  let p := pa / 8 * 8
  (reached s a p).map (fun x => regWrite s a x.1 x.2 p (halfVal h v) (halfMask h))

/-! ### Rows -/

/-- REGISTER_WRITE: an access writes a half of a register (R3 to R9, R484). -/
def execRegisterWrite (a : Access) (pa : BitVec 44) (h : Half) (v : Word) (s : State) : Host.Outcome State Fault Refusal :=
  .next ((writeReg s a pa.toNat h v).getD (writeFailed s a.init a.cell 2 stDECODE pa.toNat 0))
/-- TIMER_CTRL_WRITE: an access writes TIME_TMR_CTRL_n; without the owner's cell ID it is answered DECODE (R305). -/
def execTimerCtrlWrite (a : Access) (t : BitVec 8) (v : Word) (s : State) : Host.Outcome State Fault Refusal :=
  .next (if timerReach s a t.toNat then writeTimerCtrl s t.toNat v (BitVec.allOnes 64)
    else writeFailed s a.init a.cell 2 stDECODE (timeBase + 0x2000 + t.toNat * 0x10) 0)
/-- TIMER_CMP_WRITE: an access writes TIME_TMR_CMP_n, with the same owner check. -/
def execTimerCmpWrite (a : Access) (t : BitVec 8) (v : Word) (s : State) : Host.Outcome State Fault Refusal :=
  .next (if timerReach s a t.toNat then writeTimerCmp s t.toNat v (BitVec.allOnes 64)
    else writeFailed s a.init a.cell 2 stDECODE (timeBase + 0x2008 + t.toNat * 0x10) 0)
/-- RC_READ: an access reads a half of a register, and clears the RC fields that it returns. -/
def execRcRead (a : Access) (pa : BitVec 44) (h : Half) (s : State) : Host.Outcome State Fault Refusal :=
  .next (match readReg s a pa.toNat h with | some x => x.1 | none => readFailed s a.init a.cell 2 stDECODE pa.toNat)
/-- EXPERT_EN_WRITE: a write of the CTRL register that holds EXPERT_EN (R6 to R9); no other register has the bit. -/
def execExpertEnWrite (a : Access) (pa : BitVec 44) (h : Half) (v : Word) (s : State) : Host.Outcome State Fault Refusal :=
  let p := pa.toNat / 8 * 8
  .next (if p = ctrlOf p ∧ (expertCode p).isSome then (writeReg s a pa.toNat h v).getD s else s)
/-- The operation status registers that take an abort request (R31, R34). -/
def isOpStatus (r : Reg) : Bool := r = .compOpStatus || r = .hmcOpStatus || r = .slcOpStatus || r = .periDmaOpStatus
/-- OP_ABORT_REQUEST: ABORT_REQ written to an operation status register. -/
def execOpAbortRequest (a : Access) (pa : BitVec 44) (h : Half) (v : Word) (s : State) : Host.Outcome State Fault Refusal :=
  .next (match reached s a (pa.toNat / 8 * 8) with
    | some (r, _) => if isOpStatus r then (writeReg s a pa.toNat h (v ||| 0x100)).getD s else s
    | none => s)
/-- DATA_POP: a read of a DATA register (R449). -/
def execDataPop (a : Access) (pa : BitVec 44) (s : State) : Host.Outcome State Fault Refusal :=
  .next (match readReg s a pa.toNat .full with | some x => x.1 | none => readFailed s a.init a.cell 2 stDECODE pa.toNat)
/-- DMA_START: PERI_DMA_CTRL written with START. -/
def execDmaStart (a : Access) (v : Word) (s : State) : Host.Outcome State Fault Refusal := .next (writeDmaCtrl s a (v ||| 1) (BitVec.allOnes 64))

end Sys2Proof.Machine
end

