-- ==== Sys2Proof/Machine/Arrival.lean ====
section
/-! DEFINITION. The life of a fabric transaction: issue at its source port, what it does at its target, its answer, its
timeout; and the freeing of a block entry (chapter 04, R254, R330 to R332). -/
namespace Sys2Proof.Machine

/-! ### At the target (R75, R396, R399, R442, R478) -/

def kindOfReq (k : ReqKind) : TxnKind :=
  match k with | .read => .read | .write => .write | .fetch => .fetch | .swap => .swap | .fadd => .fadd | .cas => .cas | .lr => .lr | .sc => .sc
def kindOfTxn (k : TxnKind) : ReqKind :=
  match k with | .read => .read | .write => .write | .fetch => .fetch | .swap => .swap | .fadd => .fadd | .cas => .cas | .lr => .lr | .sc => .sc
/-- The request that a transaction carries, and the transaction of a request. -/
def reqOf (t : Txn) : Req :=
  { init := t.init, level := t.level, cell := t.cell, stream := t.stream, tag := t.tag, peek := t.peek, kind := kindOfTxn t.kind, addr := BitVec.ofNat 44 t.addr, size := t.size, data := t.data, cmp := t.cmp }
def txnOf (r : Req) : Txn :=
  { init := r.init, level := r.level, cell := r.cell, stream := r.stream, tag := r.tag, peek := r.peek, kind := kindOfReq r.kind, addr := r.addr.toNat, size := r.size, data := r.data, cmp := r.cmp }
def accessOf (t : Txn) : Access := { init := t.init, level := t.level, cell := t.cell, peek := t.peek }

/-- `n` bytes whose values are open, eight to a draw. -/
def freeBytes : Nat → State → State × List Byte
  | 0, s => (s, [])
  | n + 1, s => let d := drawFree s; let r := freeBytes n d.2; (r.1, natLe 8 (Config.freeWord d.1).toNat ++ r.2)
/-- An open choice between two outcomes. -/
def freeChoice (s : State) : Bool × State := let d := drawFree s; (Config.freeBit d.1, d.2)

/-- An access to a PCIe window: DECODE where the port has no link in L0, or no such space; else what the device beyond
the link answers, which is open: UR or CA, poison, or data. A peek suppresses the read (R433, R442, R445). -/
def windowAccess (s : State) (t : Txn) (p : Nat) : State × (BitVec 3 × List Byte) :=
  let o := t.addr % 0x8000000000
  let ep : Bool := p = 0 && endpointRole s
  let reads : Bool := t.kind ≠ .write
  if !portExists s p ∨ !(getPcie s p).l0 ∨ (ep ∧ o < 0x10000000) then (s, (stDECODE, []))
  else if t.peek ∧ reads then ({ s with dbg := { s.dbg with sideSuppressed := true } }, (stOK, natLe t.size 0))
  else if t.kind = .write ∧ 0x10000000 ≤ o then (s, (stOK, []))
  else
    let b := freeChoice s
    if b.1 then (b.2, (stDECODE, []))
    else if t.kind = .write then (b.2, (stOK, []))
    else
      let q := freeChoice b.2
      let r := freeBytes ((t.size + 7) / 8) q.2
      (r.1, (if q.1 then stPOISON else stOK, r.2.take t.size))

/-- An access to a device register: of 4 or 8 bytes, naturally aligned, by a read or a write; anything else is turned away
(R4). -/
def registerAccess (s : State) (t : Txn) : State × (BitVec 3 × List Byte) :=
  match t.kind, halfOf t.addr t.size with
  | .read, some h =>
    match readReg s (accessOf t) t.addr h with
    | some (s1, w) => (s1, (stOK, natLe t.size (if h = .high then w.toNat / 2 ^ 32 else w.toNat)))
    | none => (s, (stDECODE, []))
  | .write, some h =>
    match writeReg s (accessOf t) t.addr h (BitVec.ofNat 64 (leNat t.data)) with
    | some s1 => (s1, (stOK, []))
    | none => (s, (stDECODE, []))
  | _, _ => (s, (stDECODE, []))

/-- Memory type that the home slice sees: NORMAL_NC for a core's stream 1, or where the initiator says so, else a type that
allocates in the SLC alone. -/
def mtOfTxn (t : Txn) : Nat := if t.nc ∨ (initEp t.init ≤ 15 ∧ t.stream = 1) then 1 else 3
/-- A transaction performed at its target. -/
def performTxn (s : State) (t : Txn) : State × (BitVec 3 × List Byte) :=
  match regionOf t.addr with
  | .hbm => slcPerform s (reqOf t) (mtOfTxn t)
  | .scratch _ => memAccess s (reqOf t)
  | .sram p => if initEp t.init = 0x63 ∧ initUnit t.init = p then memAccess s (reqOf t) else (s, (stDECODE, []))
  | .rom => if initEp t.init = 0x63 ∧ initUnit t.init ≤ 1 ∧ (t.kind = .read ∨ t.kind = .fetch) then (s, (stOK, busBytes s t.addr t.size)) else (s, (stDECODE, []))
  | .pcie p => windowAccess s t p
  | .regs _ => registerAccess s t
  | .none => (s, (stDECODE, []))

/-! ### Issue (R58, R62, R66, R75, R76, R79, R81) -/

/-- Is a write held at its initiator because its stream is blocked? Streams 14 and 15 never block. -/
def heldTxn (s : State) (t : Txn) : Bool := t.kind = .write && t.stream ≠ 14 && t.stream ≠ 15 && (blockOf s t.init t.stream t.cell).isSome
/-- The first waiting transaction of an endpoint that may be issued. -/
def nextIssue (s : State) (ep : Nat) : Option Txn := s.fab.waiting.find? (fun t => initEp t.init = ep && !heldTxn s t)

/-- A transaction leaves its source port, or is answered there: DECODE where no endpoint has its address, FENCED, NO_PATH
(R62, R76, R478). A Pass of its cell carries it; debug traffic takes no Pass. That FENCED comes before NO_PATH where both
hold is the model's choice: the spec gives no order of the two (DESIGN CHOICE, assumption 63). -/
def issueTxn (s : State) (t0 : Txn) : State :=
  let t := { t0 with issued := s.now, limit := timeoutNow s }
  let s1 := updFab s (fun f => { f with waiting := f.waiting.filter (fun q => q.id ≠ t.id) })
  let add (s : State) (t : Txn) : State := updFab s (fun f => { f with txns := f.txns ++ [t] })
  let here (t : Txn) (st : BitVec 3) : State := add s1 { t with done := some (st, []), atPort := true }
  match endpointOf t.addr with
  | none => here t stDECODE
  | some d =>
    let e := initEp t.init
    let t1 := { t with dst := d }
    if s.fab.fences.contains d then here t1 stFENCED
    else
      let p := passFor s t.init t.cell d
      if p.isNone ∧ !pathBoth s e d then here t1 stNOPATH
      else add (countWords s1 (p.map (·.id)) (reqWords t1)) { t1 with pass := p.map (·.id), route := routeThere p e d, back := routeBack p e d }

/-- FABRIC_TRANSACTION_ISSUE: a request handed to the source port of an endpoint joins those that wait there, and the port
issues the first that may go; none while the structure changes (R81). -/
def execFabricTransactionIssue (ep : BitVec 7) (r : Option Req) (s : State) : Host.Outcome State Fault Refusal :=
  let e := ep.toNat
  let s1 := match r with
    | some q => if initEp q.init = e then submit s (txnOf q) else s
    | none => s
  .next (if s1.fab.changing then s1
    else match nextIssue s1 e with
      | some t => issueTxn s1 t
      | none => s1)

/-! ### Arrival (R63, R64, R68, R71, R74, R79, R269) -/

/-- Is the way of a transaction to its target, or of its answer back, cut by a DOWN link? -/
def cutThere (s : State) (t : Txn) : Bool := wayDown s t.route (initEp t.init) t.dst
def cutBack (s : State) (t : Txn) : Bool := wayDown s t.back t.dst (initEp t.init)
/-- Does a transaction wait at its target for traffic of a Pass: a debug transaction at any port, and any of the packet plane
at a slice or scratch slice while SLC_CTRL.PASS_FIRST is 1 (R79, R269)? -/
def waitsForPass (s : State) (t : Txn) : Bool :=
  t.pass.isNone && (t.init == dbgInit || (0x10 ≤ t.dst && t.dst ≤ 0x1F && bit (stored s .slcCtrl slcBase) 8)) &&
    s.fab.txns.any (fun q => q.pass.isSome && q.dst = t.dst && q.done.isNone && !cutThere s q && packetThere s q false)

/-- FABRIC_TRANSACTION_ARRIVAL: a transaction reaches its target in the order of its stream and of its Pass, whole, and is
performed there. One whose way is cut by a DOWN link never arrives. -/
def execFabricTransactionArrival (id : Nat) (s : State) : Host.Outcome State Fault Refusal :=
  .next (match findTxn s id with
    | none => s
    | some t =>
      if t.done.isSome ∨ (earlier s t).any (fun q => q.done.isNone) ∨ cutThere s t ∨ !packetThere s t false ∨ waitsForPass s t then s
      else
        let r := performTxn s t
        updFab r.1 (fun f => { f with txns := f.txns.map (fun q => if q.id = id then { q with done := some r.2 } else q) }))

/-! ### The answer (R75, R78, R158, R196, R197, R254, R257) -/

/-- The data that an answer delivers: of a failed read they are poison, of open value. -/
def ansData (s : State) (t : Txn) (st : BitVec 3) (d : List Byte) : State × List Byte :=
  if st = stOK ∨ st = stPOISON ∨ t.kind = .write then (s, d)
  else let r := freeBytes ((t.size + 7) / 8) s; (r.1, r.2.take t.size)

/-- The answer of a core's load or atomic: for the waiting word, or for the hold that an abandoned word left. -/
def loadAnswer (s : State) (c : Nat) (t : Txn) (st : BitVec 3) (d : List Byte) : State :=
  updCore s c (fun k =>
    if k.rdTxn.any (fun q => q.id = t.id) then { k with rdAns := some (st, d) }
    else match k.hold with
      | some h => if h.txn = t.id ∧ h.answer.isNone then { k with hold := some { h with answer := some (st, ansWord d) } } else k
      | none => k)

/-- The place in the buffer of the entry that a core's write carries, or of the first half of the pair that it carries. -/
def sentAt (k : Core) (t : Txn) : Option Nat :=
  k.sbuf.findIdx? (fun e => e.sent && e.pa = t.addr && e.cell == t.cell && t.data.take e.data.length == e.data)
/-- The completion of a store-buffer entry, or of a pair sent as one write. A failed write of a write-back line, which went
on stream 0, blocks stream 1 (DESIGN CHOICE, assumption 65). -/
def storeAnswer (s : State) (c : Nat) (t : Txn) (st : BitVec 3) : State :=
  let s1 := updCore s c (fun k =>
    match sentAt k t with
    | some i => removeEntries k i (if k.sbuf[i]?.any (fun e => e.data.length < t.size) then 2 else 1)
    | none => k)
  if st = stOK then s1 else writeFailed s1 t.init t.cell (if t.stream = 0 then 1 else t.stream) st t.addr t.va.toNat

/-- The answer of a fill (R75, R152, R162): its data have come, poison with them (R257), or it has failed, with data of open
value. A failed early fill leaves the buffer, and nothing is recorded. -/
def fillAnswer (s : State) (c : Nat) (t : Txn) (early : Bool) (st : BitVec 3) : State :=
  let good : Bool := st = stOK || (st = stPOISON && poisonedAt s t.addr t.size)
  if early then
    updCore s c (fun k => { k with spec := if good then k.spec.map (fun l => if l.txn = some t.id then { l with txn := none } else l) else k.spec.filter (fun l => l.txn ≠ some t.id) })
  else if good then updCore s c (fun k => { k with fills := k.fills.map (fun f => if f.txn = some t.id then { f with answered := true } else f) })
  else
    let r := freeBytes 8 s
    updCore r.1 c (fun k => { k with fills := k.fills.map (fun f => if f.txn = some t.id then { f with answered := true, failed := some (st, r.2) } else f) })

/-- The completion of a context save write: a failure is CTX_SAVE_ERROR for the cell, and the task is HELD. -/
def saveAnswer (s : State) (c tcb : Nat) (t : Txn) (st : BitVec 3) : State :=
  let s1 := updTcb s tcb (fun x => { x with saves := x.saves - 1 })
  if st = stOK then s1 else holdTask (fault s1 0x0303 (coreSrc c 1) (t.cell.map BitVec.toNat)) false tcb

/-- The answer of a device read whose hold stands in a node: HOLD_DATA, then the status in HOLD_ACC, then ANSWERED. -/
def holdAnswer (s : State) (tcb c node : Nat) (pc : Word) (t : Txn) (st : BitVec 3) (d : List Byte) : State :=
  let acc := t.va.toNat % 2 ^ 48 + at' (sizeCode t.size).toNat 48 + at' st.toNat 52
  let ls : List (Nat × List Byte) := [(node + 0x40, natLe 8 (ansWord d).toNat), (node + 0x38, natLe 8 acc), (node + 0x30, natLe 8 (pc.toNat / 8 * 8 + 3))]
  updTcb (ls.foldl (fun s l => submitSave s c tcb l) s) tcb (fun x => { x with holdOut := false })

/-- An answer delivered to what waits for it. A failure is recorded for the initiator; a failed write blocks its stream. -/
def deliverAns (s : State) (t : Txn) (st : BitVec 3) (d0 : List Byte) : State :=
  let (s1, d) := ansData s t st d0
  let bad : Bool := st ≠ stOK && st ≠ stPOISON
  let early : Bool := match t.purpose with | .fill _ _ e => e | _ => false
  let s2 := if bad ∧ t.kind ≠ .write ∧ !early then readFailed s1 t.init t.cell t.stream st t.addr else s1
  match t.purpose with
  | .load c => loadAnswer s2 c t st d
  | .store c => storeAnswer s2 c t st
  | .save c tcb => saveAnswer s2 c tcb t st
  | .hold tcb c node pc => holdAnswer s2 tcb c node pc t st d
  | .debug =>
    let s3 := if bad ∧ t.kind = .write then
        let x := writeFailed s2 t.init t.cell t.stream st t.addr t.va.toNat
        { x with dbg := { x.dbg with busBlocked := (blockOf x t.init t.stream t.cell).isSome } }
      else s2
    busAnswer s3 (t.kind = .read) st d
  | .fill c _ e => fillAnswer s2 c t e st
  | .pcie => pcieAnswer s2 t st (statusCode st) d
  | .other => if bad ∧ t.kind = .write then writeFailed s2 t.init t.cell t.stream st t.addr t.va.toNat else s2

/-- FABRIC_RESPONSE: an answer reaches its source port, in the order of its stream, and is delivered; one that comes after
its timeout is discarded, counted and recorded. -/
def execFabricResponse (id : Nat) (s : State) : Host.Outcome State Fault Refusal :=
  .next (match findTxn s id with
    | none => s
    | some t =>
      match t.done with
      | none => s
      | some (st, d) =>
        if !t.atPort ∧ ((earlier s t) ≠ [] ∨ cutBack s t ∨ !packetThere s t true) then s
        else
          let s1 := updFab s (fun f => { f with txns := f.txns.filter (fun q => q.id ≠ id), packets := f.packets.filter (fun p => p.txn ≠ id) })
          let s2 := if t.atPort then s1 else countWords s1 t.pass (ansWords t)
          if t.late then
            raise (updFab s2 (fun f => { f with late := satAdd f.late 1 }))
              { code := 0x0205, cls := 0, source := BitVec.ofNat 16 t.init.toNat, cell := t.cell, addr := some (BitVec.ofNat 64 t.addr, false), init := some (t.init, t.stream) }
          else deliverAns s2 t st d)

/-- FABRIC_TIMEOUT: DEVICE_TIMEOUT has passed since the issue of a transaction still outstanding; its source port answers
TIMEOUT, and the late answer will find no one. -/
def execFabricTimeout (id : Nat) (s : State) : Host.Outcome State Fault Refusal :=
  .next (match findTxn s id with
    | none => s
    | some t =>
      if t.late ∨ t.atPort ∨ s.now.toNat < t.issued.toNat + t.limit * 500 then s
      else deliverAns (updFab s (fun f => { f with txns := f.txns.map (fun q => if q.id = id then { q with late := true } else q) })) t stTIMEOUT [])

/-! ### A block entry freed (R332) -/

/-- The stream's initiator learns that its entry is freed: a core's blocked stream, the debug bus master, an inbound PCIe
queue, a DMA channel that paused. -/
def unblock (s : State) (b : BlockEntry) (rel : Bool) : State :=
  let s1 := if rel then s else dropHeld s b.init b.cell b.stream
  match coreOfInit b.init with
  | some c => updCore s1 c (fun k => { k with
      blocked := k.blocked.filter (fun x => !(x.stream = b.stream.toNat && x.cell == b.cell))
      sbuf := k.sbuf.map (fun e => if !e.sent && e.cell == b.cell && e.mt == (if b.stream = 2 then 0 else 1) then { e with released := true } else e) })
  | none =>
    if b.init = dbgInit then { s1 with dbg := { s1.dbg with busBlocked := false } }
    else if b.init = pcieInit then pump s1
    else if initEp b.init = 0x62 ∧ (getDma s1 b.stream.toNat).paused then
      let s2 := updDma s1 b.stream.toNat (fun x => { x with paused := false })
      if rel then s2 else dmaError s2 b.stream.toNat
    else s1

/-- BLOCK_ENTRY_FREED: a RELEASE or DISCARD under way ends: the entry is freed and the stream unblocked; the held writes
go on in order, or are dropped. -/
def execBlockEntryFreed (e : BitVec 9) (s : State) : Host.Outcome State Fault Refusal :=
  let b := getBlock s e.toNat
  .next (match b.valid, b.cmd with
    | true, some rel => unblock (setBlock s e.toNat { b with valid := false, cmd := none }) b rel
    | _, _ => s)

end Sys2Proof.Machine
end

