-- ==== Sys2Proof/Machine/Dma.lean ====
section
/-! DEFINITION. What a PERI DMA channel moves: its descriptors, its data, DONE, PROGRESS and its event (R449, R450). -/
namespace Sys2Proof.Machine

def dmaInit : InitId := BitVec.ofNat 10 (0x62 * 8)
/-- An access of a channel performed as one step: as its source port answers it, or as its target does (R62, R75 to R77);
no answer while it waits. -/
def accessNow (s : State) (t : Txn) : State × Option (BitVec 3 × List Byte) :=
  match endpointOf t.addr with
  | none => (s, some (stDECODE, []))
  | some d =>
    match carry s t.init t.stream t.cell d (reqWords t) (ansWords t) with
    | (s1, none) => (s1, none)
    | (s1, some st) => if st = stOK then (let r := performTxn s1 t; (r.1, some r.2)) else (s1, some (st, []))

/-- A step of a channel: it went on, it waits for an answer, it ended in error, or a failed write pauses it. -/
inductive DmaRes (α : Type) where
  | ok (s : State) (x : α)
  | wait (s : State)
  | error (s : State)
  | pause (s : State)
/-- What a channel's address leads to: a physical address, and whether it is NORMAL_NC; a walk that waits; or a refusal. -/
inductive DmaAddr where
  | ok (pa : Nat) (nc : Bool)
  | wait
  | refused
deriving DecidableEq, Repr
/-- The physical address of a channel's address: the owner's IPA under its stage 2 with the slice guard, or a PA of the
hypervisor's (R449). -/
def dmaXlate (s : State) (k : Nat) (a : Nat) (write : Bool) : State × DmaAddr :=
  match dmaOwner s (getDma s k) with
  | none => (s, .ok a false)
  | some c =>
    match iommuXlate s c a write with
    | (s1, .ok l) => (s1, .ok l.pa (inboundNc l))
    | (s1, .error f) =>
      if f.wait then (s1, .wait)
      else
        (match f.guardPa with
          | some p => raise s1 { code := 0x0401, cls := 0, source := BitVec.ofNat 16 dmaInit.toNat, cell := some (BitVec.ofNat 12 c), addr := some (BitVec.ofNat 64 p, false), init := some (dmaInit, BitVec.ofNat 4 k) }
          | none => s1, .refused)
def dmaTxn (s : State) (k : Nat) (kind : TxnKind) (pa n : Nat) (nc : Bool) (d : List Byte) : Txn :=
  { init := dmaInit, cell := (dmaOwner s (getDma s k)).map (BitVec.ofNat 12), stream := BitVec.ofNat 4 k, kind := kind, addr := pa, size := n, nc := nc, data := d }

/-- Pieces read, none across a 64-byte line; data that carry poison end the channel. -/
def dmaRead (s : State) (k : Nat) : List (Nat × Nat) → List Byte → DmaRes (List Byte)
  | [], acc => .ok s acc
  | (a, n) :: rest, acc =>
    match dmaXlate s k a false with
    | (s1, .wait) => .wait s1
    | (s1, .refused) => .error s1
    | (s1, .ok pa nc) =>
      let t := dmaTxn s1 k .read pa n nc []
      match accessNow s1 t with
      | (s2, none) => .wait s2
      | (s2, some (st, d)) =>
        if st = stOK then dmaRead s2 k rest (acc ++ d)
        else .error (if st = stPOISON then s2 else readFailed s2 t.init t.cell t.stream st pa)

/-- One piece written: a failure blocks the channel's stream and pauses it; with no room in the block table the channel
ends. -/
def dmaWrite (s : State) (k a : Nat) (d : List Byte) : DmaRes Unit :=
  match dmaXlate s k a true with
  | (s1, .wait) => .wait s1
  | (s1, .refused) => .error s1
  | (s1, .ok pa nc) =>
    let t := dmaTxn s1 k .write pa d.length nc d
    match accessNow s1 t with
    | (s2, none) => .wait s2
    | (s2, some (st, _)) =>
      if st = stOK then .ok s2 ()
      else
        let s3 := writeFailed s2 t.init t.cell t.stream st pa a
        if (blockOf s3 t.init t.stream t.cell).isSome then .pause s3 else .error s3

/-- Bytes from the port into memory, piece by piece; `pos` counts them. xSPI data are what the flash answers, which is
open. -/
def dmaIn (s : State) (k : Nat) : List (Nat × Nat) → DmaRes Unit
  | [] => .ok s ()
  | (a, n) :: rest =>
    let port := (getDma s k).bound.toNat
    let (s1, d) := if 16 ≤ port then (let r := freeBytes ((n + 7) / 8) s; (r.1, r.2.take n))
      else (updSerial s port (fun u => { u with rx := u.rx.drop n }), (getSerial s port).rx.take n)
    let s2 := updDma s1 k (fun x => { x with pos := x.pos + n })
    match dmaWrite s2 k a d with
    | .ok s3 _ => dmaIn s3 k rest
    -- the bytes stay in the port's FIFO until their write is issued
    | .wait s3 => .wait { s with fab := s3.fab, iommu := s3.iommu }
    | r => r

/-- The fields of a descriptor: ADDR, LEN, FLAGS, NEXT. -/
structure DmaDesc where
  addr : Nat
  len : Nat
  flags : Nat
  next : Nat
/-- The descriptor in 32 bytes; `none` where LEN or NEXT is out of range. -/
def dmaDesc (d : List Byte) : Option DmaDesc :=
  let w (o n : Nat) : Nat := leNat ((d.drop o).take n)
  if w 8 4 = 0 ∨ 0x1000000 < w 8 4 ∨ w 16 8 % 8 ≠ 0 then none
  else some { addr := w 0 8, len := w 8 4, flags := w 12 4, next := w 16 8 }

/-- The data of a descriptor moved. -/
def dmaMove (s : State) (k : Nat) (d : DmaDesc) : DmaRes Unit :=
  let c := getDma s k
  if c.marked then .ok s ()
  else if c.boundDir then dmaIn s k (linePieces (d.len + 1) (d.addr + c.pos) (d.len - c.pos))
  else
    match dmaRead s k (linePieces (d.len + 1) d.addr d.len) [] with
    | .ok s1 bs => .ok (updSerial s1 c.bound.toNat (fun u => { u with tx := u.tx ++ bs })) ()
    | .wait s1 => .wait s1
    | .error s1 => .error s1
    | .pause s1 => .pause s1

/-- DONE written into the descriptor, unless it already is. -/
def dmaMark (s : State) (k : Nat) (d : DmaDesc) : DmaRes Unit :=
  let c := getDma s k
  if c.marked then .ok s ()
  else
    match dmaWrite (updDma s k (fun x => { x with marked := true })) k (c.cur + 12) (natLe 4 (d.flags ||| 2)) with
    | .wait s1 => .wait { s with fab := s1.fab, iommu := s1.iommu }
    | r => r

/-- The descriptor is done: PROGRESS, its event, and the next one or the end of the chain. -/
def dmaNext (s : State) (k : Nat) (d : DmaDesc) : State :=
  let s1 := updDma s k (fun x =>
    let o : OpStatus := { x.op with progress := x.op.progress + 1 }
    { x with op := if d.next = 0 then o.finish 2 else o, cur := d.next, pos := 0, marked := false, begun := dmaRuns s x })
  if d.flags.testBit 0 then raiseEvent s1 (940 + k) else s1

/-- Are the bytes that a descriptor takes from its port there? -/
def dmaReady (s : State) (k : Nat) (d : DmaDesc) : Bool :=
  let c := getDma s k
  !c.boundDir || c.marked || 16 ≤ c.bound.toNat || d.len - c.pos ≤ (getSerial s c.bound.toNat).rx.length

/-- DMA_DESCRIPTOR_DONE: a running channel works its descriptor off; a pending abort is decided against it (R31). -/
def execDmaDescriptorDone (ch : Fin 16) (s : State) : Host.Outcome State Fault Refusal :=
  let k := ch.val
  let c := getDma s k
  .next (
    if c.op.st ≠ 1 ∨ c.paused ∨ !inRun s 38 ∨ !(c.begun || dmaRuns s c) then s
    else
      -- an abort is granted between descriptors only: one under way is performed whole (R32)
      let b := if c.op.abortReq ∧ c.pos = 0 ∧ !c.marked then freeChoice s else (false, s)
      if b.1 then updDma b.2 k (fun x => { x with op := x.op.aborted })
      else
        let s0 := updDma b.2 k (fun x => { x with begun := true })
        let after (r : DmaRes Unit) (f : State → State) : State :=
          match r with
          | .ok s _ => f s
          | .wait s => s
          | .error s => dmaError s k
          | .pause s => updDma s k (fun x => { x with paused := true })
        match dmaRead s0 k (linePieces 33 c.cur 32) [] with
        | .error s1 => dmaError s1 k
        | .wait s1 => s1
        | .pause s1 => s1
        | .ok s1 bs =>
          match dmaDesc bs with
          | none => dmaError s1 k
          | some d =>
            if !dmaReady s1 k d then s1
            else after (dmaMove s1 k d) (fun s2 => after (dmaMark s2 k d) (fun s3 => dmaNext s3 k d)))

end Sys2Proof.Machine
end

