-- ==== Sys2Proof/Machine/Dispatch.lean ====
section
/-! DEFINITION. One arm per command: the one place where a command meets its meaning. -/
namespace Sys2Proof.Machine

/-- The effect of a command on everything but the queue. -/
def exec (i : Instr) (s : State) : Host.Outcome State Fault Refusal :=
  match i with
  | .registerWrite a pa h v => Sys2Proof.Machine.execRegisterWrite a pa h v s
  | .rcRead a pa h => Sys2Proof.Machine.execRcRead a pa h s
  | .expertEnWrite a pa h v => Sys2Proof.Machine.execExpertEnWrite a pa h v s
  | .canarySample canary pm => Sys2Proof.Machine.execCanarySample canary pm s
  | .supplyLower d => Sys2Proof.Machine.execSupplyLower d s
  | .psChangeDone d => Sys2Proof.Machine.execPsChangeDone d s
  | .opAbortRequest a pa h v => Sys2Proof.Machine.execOpAbortRequest a pa h v s
  | .compStart a v => Sys2Proof.Machine.execCompStart a v s
  | .compCheckDone => Sys2Proof.Machine.execCompCheckDone s
  | .compValidateDone => Sys2Proof.Machine.execCompValidateDone s
  | .compSourcePoison => Sys2Proof.Machine.execCompSourcePoison s
  | .compApplyDone => Sys2Proof.Machine.execCompApplyDone s
  | .compSeal a v => Sys2Proof.Machine.execCompSeal a v s
  | .fabricStructLive => Sys2Proof.Machine.execFabricStructLive s
  | .compStageDone => Sys2Proof.Machine.execCompStageDone s
  | .compQuiesce a v => Sys2Proof.Machine.execCompQuiesce a v s
  | .compQuiesceDone => Sys2Proof.Machine.execCompQuiesceDone s
  | .compCommit a v => Sys2Proof.Machine.execCompCommit a v s
  | .compCommitDone => Sys2Proof.Machine.execCompCommitDone s
  | .compRelease a v => Sys2Proof.Machine.execCompRelease a v s
  | .compDiscard a v => Sys2Proof.Machine.execCompDiscard a v s
  | .fabricTransactionIssue ep r => Sys2Proof.Machine.execFabricTransactionIssue ep r s
  | .fabricTransactionArrival id => Sys2Proof.Machine.execFabricTransactionArrival id s
  | .fabricResponse id => Sys2Proof.Machine.execFabricResponse id s
  | .fabricTimeout id => Sys2Proof.Machine.execFabricTimeout id s
  | .linkWordReceive sp port lane idx w crc => Sys2Proof.Machine.execLinkWordReceive sp port lane idx w crc s
  | .fabErrInject a v => Sys2Proof.Machine.execFabErrInject a v s
  | .wordDecode c => Sys2Proof.Machine.execWordDecode c s
  | .move c m dst => Sys2Proof.Machine.execMove c m dst s
  | .unitResult c unit => Sys2Proof.Machine.execUnitResult c unit s
  | .tAdd c u m => Sys2Proof.Machine.execTAdd c u m s
  | .tSub c u m => Sys2Proof.Machine.execTSub c u m s
  | .tAnd c u m => Sys2Proof.Machine.execTAnd c u m s
  | .tOr c u m => Sys2Proof.Machine.execTOr c u m s
  | .tXor c u m => Sys2Proof.Machine.execTXor c u m s
  | .tAndn c u m => Sys2Proof.Machine.execTAndn c u m s
  | .tShl c u m => Sys2Proof.Machine.execTShl c u m s
  | .tShr c u m => Sys2Proof.Machine.execTShr c u m s
  | .tSar c u m => Sys2Proof.Machine.execTSar c u m s
  | .tRor c u m => Sys2Proof.Machine.execTRor c u m s
  | .tMin c u m => Sys2Proof.Machine.execTMin c u m s
  | .tMax c u m => Sys2Proof.Machine.execTMax c u m s
  | .tCmpeq c u m => Sys2Proof.Machine.execTCmpeq c u m s
  | .tCmpne c u m => Sys2Proof.Machine.execTCmpne c u m s
  | .tCmplt c u m => Sys2Proof.Machine.execTCmplt c u m s
  | .tCmpge c u m => Sys2Proof.Machine.execTCmpge c u m s
  | .tCmpltu c u m => Sys2Proof.Machine.execTCmpltu c u m s
  | .tCmpgeu c u m => Sys2Proof.Machine.execTCmpgeu c u m s
  | .tMinu c u m => Sys2Proof.Machine.execTMinu c u m s
  | .tMaxu c u m => Sys2Proof.Machine.execTMaxu c u m s
  | .tTst c u m => Sys2Proof.Machine.execTTst c u m s
  | .tExtract c m => Sys2Proof.Machine.execTExtract c m s
  | .tExtracts c m => Sys2Proof.Machine.execTExtracts c m s
  | .tInsert c m => Sys2Proof.Machine.execTInsert c m s
  | .tClz c m => Sys2Proof.Machine.execTClz c m s
  | .tCtz c m => Sys2Proof.Machine.execTCtz c m s
  | .tPopc c m => Sys2Proof.Machine.execTPopc c m s
  | .tPerm c m => Sys2Proof.Machine.execTPerm c m s
  | .tMul c m => Sys2Proof.Machine.execTMul c m s
  | .tMulu c m => Sys2Proof.Machine.execTMulu c m s
  | .tMulsu c m => Sys2Proof.Machine.execTMulsu c m s
  | .tDiv c m => Sys2Proof.Machine.execTDiv c m s
  | .tDivu c m => Sys2Proof.Machine.execTDivu c m s
  | .tLd c m => Sys2Proof.Machine.execTLd c m s
  | .tSt c m => Sys2Proof.Machine.execTSt c m s
  | .tLdpi c m => Sys2Proof.Machine.execTLdpi c m s
  | .tStpi c m => Sys2Proof.Machine.execTStpi c m s
  | .tLr c m => Sys2Proof.Machine.execTLr c m s
  | .tSc c m => Sys2Proof.Machine.execTSc c m s
  | .tSwap c m => Sys2Proof.Machine.execTSwap c m s
  | .lsuTFadd c m => Sys2Proof.Machine.execLsuTFadd c m s
  | .tCas c m => Sys2Proof.Machine.execTCas c m s
  | .tBr c m => Sys2Proof.Machine.execTBr c m s
  | .tBri c m => Sys2Proof.Machine.execTBri c m s
  | .tCall c m => Sys2Proof.Machine.execTCall c m s
  | .tCalli c m => Sys2Proof.Machine.execTCalli c m s
  | .tRet c m => Sys2Proof.Machine.execTRet c m s
  | .tRsflush c m => Sys2Proof.Machine.execTRsflush c m s
  | .fpuTFadd c m => Sys2Proof.Machine.execFpuTFadd c m s
  | .tFsub c m => Sys2Proof.Machine.execTFsub c m s
  | .tFmul c m => Sys2Proof.Machine.execTFmul c m s
  | .tFma c m => Sys2Proof.Machine.execTFma c m s
  | .tFdiv c m => Sys2Proof.Machine.execTFdiv c m s
  | .tFsqrt c m => Sys2Proof.Machine.execTFsqrt c m s
  | .tFmin c m => Sys2Proof.Machine.execTFmin c m s
  | .tFmax c m => Sys2Proof.Machine.execTFmax c m s
  | .tFcvti c m => Sys2Proof.Machine.execTFcvti c m s
  | .tFcvtf c m => Sys2Proof.Machine.execTFcvtf c m s
  | .tFcvtp c m => Sys2Proof.Machine.execTFcvtp c m s
  | .tFcmpeq c m => Sys2Proof.Machine.execTFcmpeq c m s
  | .tFcmplt c m => Sys2Proof.Machine.execTFcmplt c m s
  | .tFcmple c m => Sys2Proof.Machine.execTFcmple c m s
  | .tFcmpun c m => Sys2Proof.Machine.execTFcmpun c m s
  | .fpuCsrWrite c m => Sys2Proof.Machine.execFpuCsrWrite c m s
  | .tVadd c m => Sys2Proof.Machine.execTVadd c m s
  | .tVsub c m => Sys2Proof.Machine.execTVsub c m s
  | .tVmul c m => Sys2Proof.Machine.execTVmul c m s
  | .tVfma c m => Sys2Proof.Machine.execTVfma c m s
  | .tVdot c m => Sys2Proof.Machine.execTVdot c m s
  | .tVperm c m => Sys2Proof.Machine.execTVperm c m s
  | .tVmin c m => Sys2Proof.Machine.execTVmin c m s
  | .tVmax c m => Sys2Proof.Machine.execTVmax c m s
  | .tVand c m => Sys2Proof.Machine.execTVand c m s
  | .tVor c m => Sys2Proof.Machine.execTVor c m s
  | .tVxor c m => Sys2Proof.Machine.execTVxor c m s
  | .tVsplat c m => Sys2Proof.Machine.execTVsplat c m s
  | .tVred c m => Sys2Proof.Machine.execTVred c m s
  | .tVgather c m => Sys2Proof.Machine.execTVgather c m s
  | .rcWrite c m => Sys2Proof.Machine.execRcWrite c m s
  | .tRep c m => Sys2Proof.Machine.execTRep c m s
  | .tLoop c m => Sys2Proof.Machine.execTLoop c m s
  | .tSaveLo c m => Sys2Proof.Machine.execTSaveLo c m s
  | .tSaveHi c m => Sys2Proof.Machine.execTSaveHi c m s
  | .tLoadLo c m => Sys2Proof.Machine.execTLoadLo c m s
  | .tLoadHi c m => Sys2Proof.Machine.execTLoadHi c m s
  | .tStm c m => Sys2Proof.Machine.execTStm c m s
  | .tLdm c m => Sys2Proof.Machine.execTLdm c m s
  | .tFeed8 c m => Sys2Proof.Machine.execTFeed8 c m s
  | .tFeed16 c m => Sys2Proof.Machine.execTFeed16 c m s
  | .tFeed32 c m => Sys2Proof.Machine.execTFeed32 c m s
  | .tInit c m => Sys2Proof.Machine.execTInit c m s
  | .chkValWrite c m => Sys2Proof.Machine.execChkValWrite c m s
  | .chkExpWrite c m => Sys2Proof.Machine.execChkExpWrite c m s
  | .tCmp c m => Sys2Proof.Machine.execTCmp c m s
  | .tAbort c m => Sys2Proof.Machine.execTAbort c m s
  | .trcStimulus c port m => Sys2Proof.Machine.execTrcStimulus c port m s
  | .tFenceS c m => Sys2Proof.Machine.execTFenceS c m s
  | .tFenceL c m => Sys2Proof.Machine.execTFenceL c m s
  | .tFenceF c m => Sys2Proof.Machine.execTFenceF c m s
  | .tFenceD c m => Sys2Proof.Machine.execTFenceD c m s
  | .barrierWaitEnd c => Sys2Proof.Machine.execBarrierWaitEnd c s
  | .tSrrd c m => Sys2Proof.Machine.execTSrrd c m s
  | .tSrwr c m => Sys2Proof.Machine.execTSrwr c m s
  | .sysTimeRead c m dst => Sys2Proof.Machine.execSysTimeRead c m dst s
  | .tReturn c m => Sys2Proof.Machine.execTReturn c m s
  | .tGate c k m => Sys2Proof.Machine.execTGate c k m s
  | .tSeal c m => Sys2Proof.Machine.execTSeal c m s
  | .tJobend c m => Sys2Proof.Machine.execTJobend c m s
  | .tWait c m => Sys2Proof.Machine.execTWait c m s
  | .tBreak c m => Sys2Proof.Machine.execTBreak c m s
  | .exceptionEntry c => Sys2Proof.Machine.execExceptionEntry c s
  | .interruptTaken c => Sys2Proof.Machine.execInterruptTaken c s
  | .preemptionTaken c => Sys2Proof.Machine.execPreemptionTaken c s
  | .niwWindowEnd c => Sys2Proof.Machine.execNiwWindowEnd c s
  | .icacheFillArrival c => Sys2Proof.Machine.execIcacheFillArrival c s
  | .dcacheFillArrival c => Sys2Proof.Machine.execDcacheFillArrival c s
  | .specFillArrival c line => Sys2Proof.Machine.execSpecFillArrival c line s
  | .deviceLoadAnswer c => Sys2Proof.Machine.execDeviceLoadAnswer c s
  | .storeBufferDrain c index => Sys2Proof.Machine.execStoreBufferDrain c index s
  | .savingClear tcb => Sys2Proof.Machine.execSavingClear tcb s
  | .taskSwitchIn c => Sys2Proof.Machine.execTaskSwitchIn c s
  | .groupLoadDone c grp => Sys2Proof.Machine.execGroupLoadDone c grp s
  | .schedEventArrival => Sys2Proof.Machine.execSchedEventArrival s
  | .fretOpen cl fret => Sys2Proof.Machine.execFretOpen cl fret s
  | .fretClose cl fret => Sys2Proof.Machine.execFretClose cl fret s
  | .hvEventArrival => Sys2Proof.Machine.execHvEventArrival s
  | .tcbReset a cl v => Sys2Proof.Machine.execTcbReset a cl v s
  | .tcbStart a cl v => Sys2Proof.Machine.execTcbStart a cl v s
  | .walkComplete c => Sys2Proof.Machine.execWalkComplete c s
  | .tlbInvVa c m => Sys2Proof.Machine.execTlbInvVa c m s
  | .tlbInvAsid c m => Sys2Proof.Machine.execTlbInvAsid c m s
  | .tlbInvCellL1 c m => Sys2Proof.Machine.execTlbInvCellL1 c m s
  | .tlbInvIpa c m => Sys2Proof.Machine.execTlbInvIpa c m s
  | .tlbInvCellL2 c m => Sys2Proof.Machine.execTlbInvCellL2 c m s
  | .tlbInvHost c m => Sys2Proof.Machine.execTlbInvHost c m s
  | .tlbInvDone c => Sys2Proof.Machine.execTlbInvDone c s
  | .cellS2Write c m => Sys2Proof.Machine.execCellS2Write c m s
  | .htRootWrite c m => Sys2Proof.Machine.execHtRootWrite c m s
  | .restart c m => Sys2Proof.Machine.execRestart c m s
  | .cellStopped c m => Sys2Proof.Machine.execCellStopped c m s
  | .inboundPcieRequest r => Sys2Proof.Machine.execInboundPcieRequest r s
  | .icInvLine c m => Sys2Proof.Machine.execIcInvLine c m s
  | .icInvAll c m => Sys2Proof.Machine.execIcInvAll c m s
  | .slcRequest r mt => Sys2Proof.Machine.execSlcRequest r mt s
  | .coherenceRequest line cl keepClean => Sys2Proof.Machine.execCoherenceRequest line cl keepClean s
  | .scratchAccess r => Sys2Proof.Machine.execScratchAccess r s
  | .cleanAddr a v => Sys2Proof.Machine.execCleanAddr a v s
  | .cleanInvAddr a v => Sys2Proof.Machine.execCleanInvAddr a v s
  | .cleanCell a v => Sys2Proof.Machine.execCleanCell a v s
  | .cleanInvCell a v => Sys2Proof.Machine.execCleanInvCell a v s
  | .cleanClass a v => Sys2Proof.Machine.execCleanClass a v s
  | .cleanInvClass a v => Sys2Proof.Machine.execCleanInvClass a v s
  | .remask a v => Sys2Proof.Machine.execRemask a v s
  | .mntSliceDone site wbOk => Sys2Proof.Machine.execMntSliceDone site wbOk s
  | .tokenGrant site => Sys2Proof.Machine.execTokenGrant site s
  | .slcErrInject a v => Sys2Proof.Machine.execSlcErrInject a v s
  | .hmcRequest hmc r => Sys2Proof.Machine.execHmcRequest hmc r s
  | .hmcCommandIssue hmc pc => Sys2Proof.Machine.execHmcCommandIssue hmc pc s
  | .hmcReadData hmc pc e => Sys2Proof.Machine.execHmcReadData hmc pc e s
  | .hbmParityError hmc pc ok => Sys2Proof.Machine.execHbmParityError hmc pc ok s
  | .trefiTick hmc pc => Sys2Proof.Machine.execTrefiTick hmc pc s
  | .refreshDone hmc pc => Sys2Proof.Machine.execRefreshDone hmc pc s
  | .hbmTempRead hmc temp => Sys2Proof.Machine.execHbmTempRead hmc temp s
  | .bootTraining a hmc v => Sys2Proof.Machine.execBootTraining a hmc v s
  | .retrain a hmc v => Sys2Proof.Machine.execRetrain a hmc v s
  | .scheduledTrainingStart hmc => Sys2Proof.Machine.execScheduledTrainingStart hmc s
  | .trainStepDone hmc ok lanes => Sys2Proof.Machine.execTrainStepDone hmc ok lanes s
  | .hmcErrInject a hmc v => Sys2Proof.Machine.execHmcErrInject a hmc v s
  | .timeRateWrite a v => Sys2Proof.Machine.execTimeRateWrite a v s
  | .timeStepWrite a v => Sys2Proof.Machine.execTimeStepWrite a v s
  | .timeRefLoss => Sys2Proof.Machine.execTimeRefLoss s
  | .holdoverExit => Sys2Proof.Machine.execHoldoverExit s
  | .timePllUnlock => Sys2Proof.Machine.execTimePllUnlock s
  | .ppsOutRise => Sys2Proof.Machine.execPpsOutRise s
  | .ppsOutFall => Sys2Proof.Machine.execPpsOutFall s
  | .ppsInEdge => Sys2Proof.Machine.execPpsInEdge s
  | .timerExpiry t => Sys2Proof.Machine.execTimerExpiry t s
  | .timerCtrlWrite a t v => Sys2Proof.Machine.execTimerCtrlWrite a t v s
  | .timerCmpWrite a t v => Sys2Proof.Machine.execTimerCmpWrite a t v s
  | .jobReleasePeriodic j => Sys2Proof.Machine.execJobReleasePeriodic j s
  | .jobCloseArrival => Sys2Proof.Machine.execJobCloseArrival s
  | .deadlineExpiry j => Sys2Proof.Machine.execDeadlineExpiry j s
  | .budgetExhaustion j => Sys2Proof.Machine.execBudgetExhaustion j s
  | .wdKick a v => Sys2Proof.Machine.execWdKick a v s
  | .wdExpired cell => Sys2Proof.Machine.execWdExpired cell s
  | .devWdKick a v => Sys2Proof.Machine.execDevWdKick a v s
  | .devWatchdog => Sys2Proof.Machine.execDevWatchdog s
  | .devWdLock a v => Sys2Proof.Machine.execDevWdLock a v s
  | .faultRecordArrival => Sys2Proof.Machine.execFaultRecordArrival s
  | .faultRecordStore => Sys2Proof.Machine.execFaultRecordStore s
  | .ringEnWrite a v => Sys2Proof.Machine.execRingEnWrite a v s
  | .ringTailWrite a v => Sys2Proof.Machine.execRingTailWrite a v s
  | .blockRelease a v => Sys2Proof.Machine.execBlockRelease a v s
  | .blockDiscard a v => Sys2Proof.Machine.execBlockDiscard a v s
  | .fltSafeCmd a v => Sys2Proof.Machine.execFltSafeCmd a v s
  | .safeRelease a v => Sys2Proof.Machine.execSafeRelease a v s
  | .fwFault a v => Sys2Proof.Machine.execFwFault a v s
  | .extSafeNFall => Sys2Proof.Machine.execExtSafeNFall s
  | .extSafe => Sys2Proof.Machine.execExtSafe s
  | .lockstepMismatch pair => Sys2Proof.Machine.execLockstepMismatch pair s
  | .ethFrameReceive port f fcsOk => Sys2Proof.Machine.execEthFrameReceive port f fcsOk s
  | .frerResetTimeout f => Sys2Proof.Machine.execFrerResetTimeout f s
  | .rxHdrWriteDone e => Sys2Proof.Machine.execRxHdrWriteDone e s
  | .ringConsWrite a kind index v => Sys2Proof.Machine.execRingConsWrite a kind index v s
  | .ringEnable a kind index v => Sys2Proof.Machine.execRingEnable a kind index v s
  | .egressHdrReport n => Sys2Proof.Machine.execEgressHdrReport n s
  | .portTransmitStart port => Sys2Proof.Machine.execPortTransmitStart port s
  | .portTransmitEnd port => Sys2Proof.Machine.execPortTransmitEnd port s
  | .gateListEntry port => Sys2Proof.Machine.execGateListEntry port s
  | .streamFreshExpiry n => Sys2Proof.Machine.execStreamFreshExpiry n s
  | .safeFrameInstant n => Sys2Proof.Machine.execSafeFrameInstant n s
  | .ethLinkDown port => Sys2Proof.Machine.execEthLinkDown port s
  | .canxlFrameReceive ch f => Sys2Proof.Machine.execCanxlFrameReceive ch f s
  | .canxlBusOff ch => Sys2Proof.Machine.execCanxlBusOff ch s
  | .canxlBusOffRecovery ch => Sys2Proof.Machine.execCanxlBusOffRecovery ch s
  | .hostTxCommit a v => Sys2Proof.Machine.execHostTxCommit a v s
  | .pwrVoteAssert a v => Sys2Proof.Machine.execPwrVoteAssert a v s
  | .pwrVoteWithdraw a v => Sys2Proof.Machine.execPwrVoteWithdraw a v s
  | .hvVoteWrite a v => Sys2Proof.Machine.execHvVoteWrite a v s
  | .targetPsWrite a v => Sys2Proof.Machine.execTargetPsWrite a v s
  | .domainEntryQuiet d => Sys2Proof.Machine.execDomainEntryQuiet d s
  | .domainEntryFenced d => Sys2Proof.Machine.execDomainEntryFenced d s
  | .domainEntryCommit d => Sys2Proof.Machine.execDomainEntryCommit d s
  | .domainEntryDone d => Sys2Proof.Machine.execDomainEntryDone d s
  | .entryAbortDone d => Sys2Proof.Machine.execEntryAbortDone d s
  | .domainWakeDone d => Sys2Proof.Machine.execDomainWakeDone d s
  | .thermalSample sensor temp => Sys2Proof.Machine.execThermalSample sensor temp s
  | .thermalStepTimer d => Sys2Proof.Machine.execThermalStepTimer d s
  | .pmicEcho => Sys2Proof.Machine.execPmicEcho s
  | .pwrPmicFail => Sys2Proof.Machine.execPwrPmicFail s
  | .railOutOfRange => Sys2Proof.Machine.execRailOutOfRange s
  | .powerOnReset => Sys2Proof.Machine.execPowerOnReset s
  | .porstNAssert => Sys2Proof.Machine.execPorstNAssert s
  | .porstNRelease straps => Sys2Proof.Machine.execPorstNRelease straps s
  | .warmN straps => Sys2Proof.Machine.execWarmN straps s
  | .bootResetCmd a v => Sys2Proof.Machine.execBootResetCmd a v s
  | .bootLcCmd a v => Sys2Proof.Machine.execBootLcCmd a v s
  | .bootRollbackSet a v => Sys2Proof.Machine.execBootRollbackSet a v s
  | .checkHmac a v => Sys2Proof.Machine.execCheckHmac a v s
  | .checkEcdsa a v => Sys2Proof.Machine.execCheckEcdsa a v s
  | .unlock a v => Sys2Proof.Machine.execUnlock a v s
  | .kgCheckDone region => Sys2Proof.Machine.execKgCheckDone region s
  | .coreRelease a v => Sys2Proof.Machine.execCoreRelease a v s
  | .coreReset a v => Sys2Proof.Machine.execCoreReset a v s
  | .bootMailboxInWrite a v => Sys2Proof.Machine.execBootMailboxInWrite a v s
  | .bootMailboxOutWrite a v => Sys2Proof.Machine.execBootMailboxOutWrite a v s
  | .bootSourceTimeout => Sys2Proof.Machine.execBootSourceTimeout s
  | .bootFrame f => Sys2Proof.Machine.execBootFrame f s
  | .pcieDoorbellWrite a v => Sys2Proof.Machine.execPcieDoorbellWrite a v s
  | .helloFrame => Sys2Proof.Machine.execHelloFrame s
  | .beginFrame f => Sys2Proof.Machine.execBeginFrame f s
  | .dataFrame f => Sys2Proof.Machine.execDataFrame f s
  | .endFrame f => Sys2Proof.Machine.execEndFrame f s
  | .dbgregUpdate scan => Sys2Proof.Machine.execDbgregUpdate scan s
  | .dbgBegin a v => Sys2Proof.Machine.execDbgBegin a v s
  | .dbgCertCheckDone => Sys2Proof.Machine.execDbgCertCheckDone s
  | .dbgRespond a v => Sys2Proof.Machine.execDbgRespond a v s
  | .dbgRespondCheckDone => Sys2Proof.Machine.execDbgRespondCheckDone s
  | .dbgRespondTimeout => Sys2Proof.Machine.execDbgRespondTimeout s
  | .dbgLockoutEnd => Sys2Proof.Machine.execDbgLockoutEnd s
  | .closeSession a v => Sys2Proof.Machine.execCloseSession a v s
  | .dbgHvLimitWrite a v => Sys2Proof.Machine.execDbgHvLimitWrite a v s
  | .dbgCellHalt a v => Sys2Proof.Machine.execDbgCellHalt a v s
  | .dbgCellResume a v => Sys2Proof.Machine.execDbgCellResume a v s
  | .dbgCtiPulse a v => Sys2Proof.Machine.execDbgCtiPulse a v s
  | .coreStop c => Sys2Proof.Machine.execCoreStop c s
  | .dbgCoreStep a v => Sys2Proof.Machine.execDbgCoreStep a v s
  | .dbgCoreHalt a v => Sys2Proof.Machine.execDbgCoreHalt a v s
  | .dbgCoreResume a v => Sys2Proof.Machine.execDbgCoreResume a v s
  | .dbgCoreAcc a v => Sys2Proof.Machine.execDbgCoreAcc a v s
  | .dbgBusRead a v => Sys2Proof.Machine.execDbgBusRead a v s
  | .dbgBusWrite a v => Sys2Proof.Machine.execDbgBusWrite a v s
  | .traceEnable a v => Sys2Proof.Machine.execTraceEnable a v s
  | .bifurWrite a v => Sys2Proof.Machine.execBifurWrite a v s
  | .pcieLinkChange port e => Sys2Proof.Machine.execPcieLinkChange port e s
  | .dmaStart a v => Sys2Proof.Machine.execDmaStart a v s
  | .dmaDescriptorDone ch => Sys2Proof.Machine.execDmaDescriptorDone ch s
  | .gpioEdge pin level => Sys2Proof.Machine.execGpioEdge pin level s
  | .uartRxEvent index e => Sys2Proof.Machine.execUartRxEvent index e s
  | .i3cTransferDone e => Sys2Proof.Machine.execI3cTransferDone e s
  | .xspiCommandDone index => Sys2Proof.Machine.execXspiCommandDone index s
  | .ufsCompletion => Sys2Proof.Machine.execUfsCompletion s
  | .extSafeNRise => Sys2Proof.Machine.execExtSafeNRise s
  | .ethLinkUp port => Sys2Proof.Machine.execEthLinkUp port s
  | .refOk => Sys2Proof.Machine.execRefOk s
  | .powerOnResetEnd => Sys2Proof.Machine.execPowerOnResetEnd s
  | .updateIr ir => Sys2Proof.Machine.execUpdateIr ir s
  | .blockEntryFreed e => Sys2Proof.Machine.execBlockEntryFreed e s
  | .dataPop a pa => Sys2Proof.Machine.execDataPop a pa s

end Sys2Proof.Machine
end

