-- ==== Sys2Proof/Machine/Idle.lean ====
section
/-! DEFINITION. What the device does when no command waits: a nanosecond of the timebase passes (R299) and the trace path
takes a value (R437). -/
namespace Sys2Proof.Machine

/-- One idle step. -/
def idle (s : State) : State := traceStep { s with now := s.now + 1 }

end Sys2Proof.Machine
end

