-- ==== Sys2Proof/WellFormed.lean ====
section
/-! DEFINITION. The commands a sender can present: initiators that R58 lists, slots that a word can hold (R94, R95),
register addresses inside register space (R479), requests of a length the fabric carries (R61), and numbers of units the
device has. A meaning is defined on every term; a term refused here stands for nothing outside. -/
namespace Sys2Proof

/-- Endpoint and unit of an initiator ID (R58). -/
def initiatorOk (i : InitId) : Bool :=
  let e := i.toNat / 8
  let u := i.toNat % 8
  e ≤ 0x0F || (e ≤ 0x1F && u ≤ 1) || ((e == 0x60 || e == 0x61) && u ≤ 1) || (e == 0x62 && u == 0) ||
    (e == 0x63 && u ≤ 3) || (e == 0x64 && u ≤ 1)

/-- Is the initiator a core: unit of a cluster, or a Mladette pair (R58)? -/
def isCoreInit (i : InitId) : Bool := i.toNat / 8 ≤ 0x0F || (i.toNat / 8 == 0x63 && i.toNat % 8 ≤ 1)

/-- Only the debug bus master sets the peek attribute (R433). -/
def peekOk (i : InitId) (peek : Bool) : Bool := !peek || i.toNat == 0x64 * 8 + 1

/-- An access: a listed initiator; a privilege level only of a core; the peek attribute only of the debug bus master. -/
def Access.wf (a : Access) : Bool := initiatorOk a.init && (isCoreInit a.init || a.level == 0) && peekOk a.init a.peek

/-- A register address: an aligned register of the register space (R4, R479). -/
def regAddrOk (pa : BitVec 44) : Bool := pa.toNat % 8 == 0 && 0xF8000000000 ≤ pa.toNat

/-- A slot of a word (R94, R95): a long word has one slot, and no slot B. -/
def Slot.wf (m : Slot) : Bool := !m.long || (m.pos == .only && !m.slotB)

/-- A request of the fabric or of a slice (R58, R61, R122): 1 to 64 bytes inside one aligned 64-byte line, with as many
data as it writes, an atomic naturally aligned. -/
def Req.wf (r : Req) : Bool :=
  initiatorOk r.init && (isCoreInit r.init || r.level == 0) && peekOk r.init r.peek &&
  1 ≤ r.size && r.addr.toNat % 64 + r.size ≤ 64 &&
  (match r.kind with
   | .read | .fetch => r.data.isEmpty
   | .write => r.data.length == r.size
   | .swap | .fadd | .cas | .sc => r.data.length == r.size && (r.size == 1 || r.size == 2 || r.size == 4 || r.size == 8) && r.addr.toNat % r.size == 0
   | .lr => r.data.isEmpty && (r.size == 1 || r.size == 2 || r.size == 4 || r.size == 8) && r.addr.toNat % r.size == 0)

/-- An inbound PCIe memory request (R444): its bytes if it writes. -/
def PcieReq.wf (r : PcieReq) : Bool := 1 ≤ r.len && r.len ≤ 4096 && (if r.write then r.data.length == r.len else r.data.isEmpty)

/-- A received Ethernet frame without its FCS: its two addresses and a type at least. -/
def etherOk (f : List Byte) : Bool := 14 ≤ f.length

/-- Is the command one that a sender can present? -/
def Instr.wf : Instr → Bool
  | .registerWrite a pa _ _ | .rcRead a pa _ | .expertEnWrite a pa _ _ | .opAbortRequest a pa _ _ | .dataPop a pa =>
    a.wf && regAddrOk pa
  | .compStart a _ | .compSeal a _ | .compQuiesce a _ | .compCommit a _ | .compRelease a _ | .compDiscard a _
  | .fabErrInject a _ | .tcbReset a _ _ | .tcbStart a _ _ | .cleanAddr a _ | .cleanInvAddr a _ | .cleanCell a _
  | .cleanInvCell a _ | .cleanClass a _ | .cleanInvClass a _ | .remask a _ | .slcErrInject a _ | .timeRateWrite a _
  | .timeStepWrite a _ | .timerCtrlWrite a _ _ | .timerCmpWrite a _ _ | .wdKick a _ | .devWdKick a _ | .devWdLock a _
  | .ringEnWrite a _ | .ringTailWrite a _ | .blockRelease a _ | .blockDiscard a _ | .fltSafeCmd a _ | .safeRelease a _
  | .fwFault a _ | .hostTxCommit a _ | .pwrVoteAssert a _ | .pwrVoteWithdraw a _ | .hvVoteWrite a _ | .targetPsWrite a _
  | .bootResetCmd a _ | .bootLcCmd a _ | .bootRollbackSet a _ | .checkHmac a _ | .checkEcdsa a _ | .unlock a _
  | .coreRelease a _ | .coreReset a _ | .bootMailboxInWrite a _ | .bootMailboxOutWrite a _ | .pcieDoorbellWrite a _
  | .dbgBegin a _ | .dbgRespond a _ | .closeSession a _ | .dbgHvLimitWrite a _ | .dbgCellHalt a _ | .dbgCellResume a _
  | .dbgCtiPulse a _ | .dbgCoreStep a _ | .dbgCoreHalt a _ | .dbgCoreResume a _ | .dbgCoreAcc a _ | .dbgBusRead a _
  | .dbgBusWrite a _ | .traceEnable a _ | .bifurWrite a _ | .dmaStart a _ => a.wf
  | .bootTraining a _ _ | .retrain a _ _ | .hmcErrInject a _ _ => a.wf
  | .ringConsWrite a k i _ | .ringEnable a k i _ =>
    a.wf && i.toNat < (if k = 0 then 3072 else if k = 1 then 4096 else 2)
  | .supplyLower _ | .psChangeDone _ | .compCheckDone | .compValidateDone | .compSourcePoison | .compApplyDone
  | .fabricStructLive | .compStageDone | .compQuiesceDone | .compCommitDone => true
  | .canarySample _ _ => true
  | .fabricTransactionIssue ep r => match r with | some r => r.wf && r.init.toNat / 8 == ep.toNat | none => ep.toNat ≤ 0x1F || (0x60 ≤ ep.toNat && ep.toNat ≤ 0x64)
  | .fabricTransactionArrival _ | .fabricResponse _ | .fabricTimeout _ => true
  | .linkWordReceive _ port _ _ _ _ => decide (port.toNat < 12)
  | .wordDecode _ | .unitResult _ _ | .barrierWaitEnd _ | .exceptionEntry _ | .interruptTaken _ | .preemptionTaken _
  | .niwWindowEnd _ | .icacheFillArrival _ | .dcacheFillArrival _ | .specFillArrival _ _ | .deviceLoadAnswer _
  | .storeBufferDrain _ _ | .savingClear _ | .taskSwitchIn _ | .groupLoadDone _ _ | .schedEventArrival | .hvEventArrival
  | .walkComplete _ | .tlbInvDone _ | .coreStop _ => true
  | .fretOpen _ _ | .fretClose _ _ => true
  | .move _ m _ | .sysTimeRead _ m _ | .tGate _ _ m | .trcStimulus _ _ m => m.wf
  | .tAdd _ _ m | .tSub _ _ m | .tAnd _ _ m | .tOr _ _ m | .tXor _ _ m | .tAndn _ _ m | .tShl _ _ m | .tShr _ _ m
  | .tSar _ _ m | .tRor _ _ m | .tMin _ _ m | .tMax _ _ m | .tCmpeq _ _ m | .tCmpne _ _ m | .tCmplt _ _ m
  | .tCmpge _ _ m | .tCmpltu _ _ m | .tCmpgeu _ _ m | .tMinu _ _ m | .tMaxu _ _ m | .tTst _ _ m => m.wf
  | .tExtract _ m | .tExtracts _ m | .tInsert _ m | .tClz _ m | .tCtz _ m | .tPopc _ m | .tPerm _ m | .tMul _ m
  | .tMulu _ m | .tMulsu _ m | .tDiv _ m | .tDivu _ m | .tLd _ m | .tSt _ m | .tLdpi _ m | .tStpi _ m | .tLr _ m
  | .tSc _ m | .tSwap _ m | .lsuTFadd _ m | .tCas _ m | .tBr _ m | .tBri _ m | .tCall _ m | .tCalli _ m | .tRet _ m
  | .tRsflush _ m | .fpuTFadd _ m | .tFsub _ m | .tFmul _ m | .tFma _ m | .tFdiv _ m | .tFsqrt _ m | .tFmin _ m
  | .tFmax _ m | .tFcvti _ m | .tFcvtf _ m | .tFcvtp _ m | .tFcmpeq _ m | .tFcmplt _ m | .tFcmple _ m | .tFcmpun _ m
  | .fpuCsrWrite _ m | .tVadd _ m | .tVsub _ m | .tVmul _ m | .tVfma _ m | .tVdot _ m | .tVperm _ m | .tVmin _ m
  | .tVmax _ m | .tVand _ m | .tVor _ m | .tVxor _ m | .tVsplat _ m | .tVred _ m | .tVgather _ m | .rcWrite _ m
  | .tRep _ m | .tLoop _ m | .tSaveLo _ m | .tSaveHi _ m | .tLoadLo _ m | .tLoadHi _ m | .tStm _ m | .tLdm _ m
  | .tFeed8 _ m | .tFeed16 _ m | .tFeed32 _ m | .tInit _ m | .chkValWrite _ m | .chkExpWrite _ m | .tCmp _ m
  | .tAbort _ m | .tFenceS _ m | .tFenceL _ m | .tFenceF _ m | .tFenceD _ m | .tSrrd _ m | .tSrwr _ m | .tReturn _ m
  | .tSeal _ m | .tJobend _ m | .tWait _ m | .tBreak _ m | .tlbInvVa _ m | .tlbInvAsid _ m | .tlbInvCellL1 _ m
  | .tlbInvIpa _ m | .tlbInvCellL2 _ m | .tlbInvHost _ m | .cellS2Write _ m | .htRootWrite _ m | .restart _ m
  | .cellStopped _ m | .icInvLine _ m | .icInvAll _ m => m.wf
  | .inboundPcieRequest r => r.wf
  | .slcRequest r mt => r.wf && mt < 4
  | .coherenceRequest _ _ _ | .mntSliceDone _ _ | .tokenGrant _ => true
  | .scratchAccess r => r.wf && 0xF0000000000 ≤ r.addr.toNat && r.addr.toNat < 0xF0002000000
  | .hmcRequest _ r => r.wf && r.addr.toNat < 0x03000000000
  | .hmcCommandIssue _ _ | .hmcReadData _ _ _ | .hbmParityError _ _ _ | .trefiTick _ _ | .refreshDone _ _
  | .hbmTempRead _ _ | .scheduledTrainingStart _ | .trainStepDone _ _ _ => true
  | .timeRefLoss | .holdoverExit | .timePllUnlock | .ppsOutRise | .ppsOutFall | .ppsInEdge | .timerExpiry _
  | .jobReleasePeriodic _ | .jobCloseArrival | .deadlineExpiry _ | .budgetExhaustion _ | .wdExpired _ | .devWatchdog => true
  | .faultRecordArrival | .faultRecordStore | .extSafeNFall | .extSafe | .lockstepMismatch _ => true
  | .ethFrameReceive _ f _ => etherOk f
  | .canxlFrameReceive _ f => 12 ≤ f.length && f.length ≤ 2060
  | .frerResetTimeout _ | .egressHdrReport _ | .portTransmitStart _ | .portTransmitEnd _ | .gateListEntry _
  | .streamFreshExpiry _ | .safeFrameInstant _ | .ethLinkDown _ | .canxlBusOff _ | .canxlBusOffRecovery _ | .ethLinkUp _ => true
  | .rxHdrWriteDone e => e.toNat < 3072
  | .domainEntryQuiet _ | .domainEntryFenced _ | .domainEntryCommit _ | .domainEntryDone _ | .entryAbortDone _
  | .domainWakeDone _ | .thermalSample _ _ | .thermalStepTimer _ | .pmicEcho | .pwrPmicFail | .railOutOfRange => true
  | .powerOnReset | .porstNAssert | .porstNRelease _ | .warmN _ | .kgCheckDone _ | .bootSourceTimeout | .helloFrame
  | .powerOnResetEnd => true
  | .bootFrame f | .beginFrame f | .dataFrame f | .endFrame f => etherOk f
  | .dbgregUpdate _ | .dbgCertCheckDone | .dbgRespondCheckDone | .dbgRespondTimeout | .dbgLockoutEnd => true
  | .pcieLinkChange _ _ | .dmaDescriptorDone _ | .gpioEdge _ _ | .uartRxEvent _ _ | .i3cTransferDone _
  | .xspiCommandDone _ | .ufsCompletion | .extSafeNRise | .refOk | .updateIr _ => true
  | .blockEntryFreed _ => true

end Sys2Proof
end

