-- ==== Sys2Proof/Safety.lean ====
section
/-! DEFINITION. The terms that claims use: what a safe state of the device is, when a core performs a slot straight away,
and what the word it belongs to leaves behind when nothing is left to be done. -/
namespace Sys2Proof.Machine

/-! ### Safe states -/

/-- What every step keeps: memory stays in its canonical form, and only commands that a sender can present wait. -/
def Inv (s : State) : Prop := Memory.wf s.mem = true ∧ ∀ i ∈ s.pending, i.wf = true

/-- Memory after the bytes of some lines are written, in their order. -/
def memAfter (ws : List (Nat × List Byte)) (m : List Host.Cell) : List Host.Cell := ws.foldl (fun m w => cellsPut w.1 w.2 m) m

/-! ### A slot performed straight away -/

/-- The registers of a core as a word that begins finds them (R102). -/
def opened (x : Ctx) : Ctx := { x with after := [], faults := [], doneUnits := [] }

/-- A core that has begun a word: what it held before is kept beside (R104). -/
def openCore (k : Core) : Core := { k with pre := some (opened k.ctx), ctx := opened k.ctx }

/-- A core between two words, with nothing in flight, nothing pending and the next word predicted straight on. -/
structure Straight (k : Core) : Prop where
  runs : k.mode = .run
  noExc : k.exc = none
  between : k.pre = none
  noFlights : k.ctx.flights = []
  noTraps : k.ctx.traps = []
  noPoison : k.ctx.poison = []
  noGroups : k.ctx.pendGroups = 0
  noRepeat : k.ctx.rep = false
  noSpec : k.spec = []
  noStep : k.stepOne = false
  queue : k.dq = [] ∨ ∃ d t, k.dq = d :: t ∧ d.addr = k.pc ∧ d.exc = none ∧ d.pred = some (k.pc + 8) ∧ d.taken = false

/-- The encoding of the slot is legal for the core and its level (R93, R98, R113). -/
def SlotLegal (c : Nat) (k : Core) (m : Slot) (dst : Nat) : Prop :=
  match m.src with
  | .imm _ => portReason (isS c) true 0 dst m.ext.toNat = none ∧ portPriv k.level.toNat true 0 dst = none
  | .port a => portReason (isS c) false a.toNat dst m.ext.toNat = none ∧ portPriv k.level.toNat false a.toNat dst = none

/-- A legal slot whose guard holds and whose source is an immediate or a register or port whose read has no side effect
(R99, R136, R140). -/
def SlotOk (c : Nat) (k : Core) (m : Slot) (dst : Nat) : Prop :=
  SlotLegal c k m dst ∧ guardTrue k.ctx m.guard = true ∧
  match m.src with
  | .imm _ => True
  | .port a => a.toNat ≠ 371 ∧ ¬ (353 ≤ a.toNat ∧ a.toNat ≤ 356)

/-- Core `c` performs the slot now. -/
def Ready (s : State) (c : CoreId) (m : Slot) (dst : Nat) : Prop :=
  Straight (getCore s c.val) ∧ s.flt.safe = false ∧ SlotOk c.val (getCore s c.val) m dst

/-- The value that the slot moves (R83, R94). -/
def moved (s : State) (c : CoreId) (m : Slot) : VWord :=
  match m.src with
  | .imm v => v.setWidth 256
  | .port a => readAddr c.val (getCore s c.val) (getCore s c.val).ctx a.toNat
/-- Its low 64 bits, which a 64-bit port takes (R89). -/
def moved64 (s : State) (c : CoreId) (m : Slot) : Word := (moved s c m).setWidth 64
/-- The registers of core `c` as its word found them. -/
def regsOf (s : State) (c : CoreId) : Ctx := opened (getCore s c.val).ctx
/-- The 64-bit value of an operand port of core `c`. -/
def operand (s : State) (c : CoreId) (a : Nat) : Word := (look 0 a (getCore s c.val).ctx.ports).setWidth 64

/-- A core that goes on at `t` after a word that leaves the registers `x`, with no word decoded ahead: fetch goes on there,
with the fetched words that lie there (R144, R145). -/
def wordTo (k : Core) (x : Ctx) (t : Word) : Core :=
  wordClosed (trimQueue { k with ctx := { opened x with mprog := none }, pc := t, fetchPc := t, decRep := false })

/-- A core after a word with nothing left to be done: it stands at the next word, and the queue has lost the word (R142,
R144). -/
def wordOver (k : Core) (x : Ctx) : Core :=
  if k.dq = [] then wordTo k x (k.pc + 8)
  else wordClosed { k with ctx := { opened x with mprog := none }, pc := k.pc + 8, dq := k.dq.tail }

/-- A slot that leaves the registers `x` and no effect for the end of its word: as the first of two slots it leaves the word
open, as the only or last slot it ends the word. Only core `c` changes. -/
def slotDone (s : State) (c : CoreId) (m : Slot) (x : Ctx) : State :=
  let k := getCore s c.val
  setCore s c.val (if m.pos = .first then { k with pre := some (opened k.ctx), ctx := x } else wordOver k x)

/-- A slot that starts a long operation: the word waits for it (R111). -/
def slotLong (s : State) (c : CoreId) (m : Slot) (x : Ctx) : State :=
  let k := getCore s c.val
  setCore s c.val { k with pre := some (opened k.ctx), ctx := x, mode := if m.pos = .first then k.mode else .waitLong }

/-- The first slot of a word that leaves an effect for the end of the word. -/
def slotLeaves (s : State) (c : CoreId) (m : Slot) (x : Ctx) (a : After) : State :=
  let k := getCore s c.val
  setCore s c.val { k with pre := some (opened k.ctx), ctx := { x with after := [(m.slotB, m.long, a)] } }

/-- The core, the slot and the DST of a command that performs a slot of a word. -/
def slotRow : Instr → Option (CoreId × Slot × Nat)
  | .move c m d => if isTrigger d.toNat then none else some (c, m, d.toNat)
  | .sysTimeRead c m d => if isTrigger d.toNat then none else some (c, { m with src := .port 371 }, d.toNat)
  | .tAdd c u m => some (c, m, 120 + 32 * u.val)
  | .tSub c u m => some (c, m, 121 + 32 * u.val)
  | .tAnd c u m => some (c, m, 122 + 32 * u.val)
  | .tOr c u m => some (c, m, 123 + 32 * u.val)
  | .tXor c u m => some (c, m, 124 + 32 * u.val)
  | .tAndn c u m => some (c, m, 125 + 32 * u.val)
  | .tShl c u m => some (c, m, 126 + 32 * u.val)
  | .tShr c u m => some (c, m, 127 + 32 * u.val)
  | .tSar c u m => some (c, m, 128 + 32 * u.val)
  | .tRor c u m => some (c, m, 129 + 32 * u.val)
  | .tMin c u m => some (c, m, 130 + 32 * u.val)
  | .tMax c u m => some (c, m, 131 + 32 * u.val)
  | .tCmpeq c u m => some (c, m, 132 + 32 * u.val)
  | .tCmpne c u m => some (c, m, 133 + 32 * u.val)
  | .tCmplt c u m => some (c, m, 134 + 32 * u.val)
  | .tCmpge c u m => some (c, m, 135 + 32 * u.val)
  | .tCmpltu c u m => some (c, m, 136 + 32 * u.val)
  | .tCmpgeu c u m => some (c, m, 137 + 32 * u.val)
  | .tMinu c u m => some (c, m, 138 + 32 * u.val)
  | .tMaxu c u m => some (c, m, 139 + 32 * u.val)
  | .tTst c u m => some (c, m, 140 + 32 * u.val)
  | .tExtract c m => some (c, m, 180) | .tExtracts c m => some (c, m, 181) | .tInsert c m => some (c, m, 182)
  | .tClz c m => some (c, m, 183) | .tCtz c m => some (c, m, 184) | .tPopc c m => some (c, m, 185) | .tPerm c m => some (c, m, 186)
  | .tMul c m => some (c, m, 200) | .tMulu c m => some (c, m, 201) | .tMulsu c m => some (c, m, 202)
  | .tDiv c m => some (c, m, 216) | .tDivu c m => some (c, m, 217)
  | .tLd c m => some (c, m, 232) | .tSt c m => some (c, m, 233) | .tLdpi c m => some (c, m, 234) | .tStpi c m => some (c, m, 235)
  | .tLr c m => some (c, m, 236) | .tSc c m => some (c, m, 237) | .tSwap c m => some (c, m, 238) | .lsuTFadd c m => some (c, m, 239)
  | .tCas c m => some (c, m, 240)
  | .tBr c m => some (c, m, 264) | .tBri c m => some (c, m, 265) | .tCall c m => some (c, m, 266) | .tCalli c m => some (c, m, 267)
  | .tRet c m => some (c, m, 268) | .tRsflush c m => some (c, m, 269)
  | .fpuTFadd c m => some (c, m, 280) | .tFsub c m => some (c, m, 281) | .tFmul c m => some (c, m, 282) | .tFma c m => some (c, m, 283)
  | .tFdiv c m => some (c, m, 284) | .tFsqrt c m => some (c, m, 285) | .tFmin c m => some (c, m, 286) | .tFmax c m => some (c, m, 287)
  | .tFcvti c m => some (c, m, 288) | .tFcvtf c m => some (c, m, 289) | .tFcvtp c m => some (c, m, 290)
  | .tFcmpeq c m => some (c, m, 292) | .tFcmplt c m => some (c, m, 293) | .tFcmple c m => some (c, m, 294) | .tFcmpun c m => some (c, m, 295)
  | .fpuCsrWrite c m => some (c, m, 275)
  | .tVadd c m => some (c, m, 312) | .tVsub c m => some (c, m, 313) | .tVmul c m => some (c, m, 314) | .tVfma c m => some (c, m, 315)
  | .tVdot c m => some (c, m, 316) | .tVperm c m => some (c, m, 317) | .tVmin c m => some (c, m, 318) | .tVmax c m => some (c, m, 319)
  | .tVand c m => some (c, m, 320) | .tVor c m => some (c, m, 321) | .tVxor c m => some (c, m, 322) | .tVsplat c m => some (c, m, 323)
  | .tVred c m => some (c, m, 324) | .tVgather c m => some (c, m, 325)
  | .rcWrite c m => some (c, m, 336) | .tRep c m => some (c, m, 340) | .tLoop c m => some (c, m, 341)
  | .tSaveLo c m => some (c, m, 342) | .tSaveHi c m => some (c, m, 343) | .tLoadLo c m => some (c, m, 344) | .tLoadHi c m => some (c, m, 345)
  | .tStm c m => some (c, m, 346) | .tLdm c m => some (c, m, 347)
  | .chkValWrite c m => some (c, m, 353) | .chkExpWrite c m => some (c, m, 354)
  | .tFeed8 c m => some (c, m, 360) | .tFeed16 c m => some (c, m, 361) | .tFeed32 c m => some (c, m, 362) | .tInit c m => some (c, m, 363)
  | .tCmp c m => some (c, m, 364) | .tAbort c m => some (c, m, 365)
  | .trcStimulus c p m => some (c, m, 448 + p.toNat)
  | .tFenceF c m => some (c, m, 384) | .tFenceS c m => some (c, m, 385) | .tFenceL c m => some (c, m, 386) | .tFenceD c m => some (c, m, 387)
  | .tSrrd c m => some (c, m, 388)
  | .tSrwr c m | .tlbInvVa c m | .tlbInvAsid c m | .tlbInvCellL1 c m | .tlbInvIpa c m | .tlbInvCellL2 c m | .tlbInvHost c m
  | .cellS2Write c m | .htRootWrite c m | .restart c m | .cellStopped c m | .icInvLine c m | .icInvAll c m => some (c, m, 389)
  | .tReturn c m => some (c, m, 390) | .tGate c k m => some (c, m, 391 + k.val) | .tSeal c m => some (c, m, 394)
  | .tJobend c m => some (c, m, 395) | .tWait c m => some (c, m, 396) | .tBreak c m => some (c, m, 397)
  | _ => none

end Sys2Proof.Machine
end

