-- ==== Sys2Proof/Certificates/Slice0/Obligations.lean ====
section
/-! DEFINITION. The statements about the model, for the provers: what the commands do, from the numbered rules of the spec,
family by family; what they leave alone; what every step keeps. -/
open Sys2Proof Sys2Proof.Machine

/-! ### The integer units (R115 to R118) -/

/-- A row of an ALU without a compare: `f` of O and the value moved goes in flight to Q. -/
def aluRow (mk : CoreId → AluId → Slot → Instr) (port : Nat) (f : Word → Word → Word) : Prop :=
  ∀ (c : CoreId) (u : AluId) (m : Slot) (s : State), Ready s c m (port + 32 * u.val) →
    exec (mk c u m) s = .next (slotDone s c m { regsOf s c with
      flights := [{ unit := 112 + 32 * u.val, q := (f (operand s c (112 + 32 * u.val)) (moved64 s c m)).setWidth 256 }] })

/-- A compare row of an ALU: 1 or 0 goes in flight to Q and to the predicate that PTARGET, EXT 2:0, names. -/
def aluCompareRow (mk : CoreId → AluId → Slot → Instr) (port : Nat) (p : Word → Word → Bool) : Prop :=
  ∀ (c : CoreId) (u : AluId) (m : Slot) (s : State), Ready s c m (port + 32 * u.val) →
    exec (mk c u m) s = .next (slotDone s c m { regsOf s c with
      flights := [{ unit := 112 + 32 * u.val, q := if p (operand s c (112 + 32 * u.val)) (moved64 s c m) then 1 else 0,
                    pred := (m.ext.extractLsb' 0 3).toNat }] })

/-- A row of the BFU: `f` of O, P and the value moved goes in flight to Q. -/
def bfuRow (mk : CoreId → Slot → Instr) (port : Nat) (f : Word → Word → Word → Word) : Prop :=
  ∀ (c : CoreId) (m : Slot) (s : State), Ready s c m port →
    exec (mk c m) s = .next (slotDone s c m { regsOf s c with
      flights := [{ unit := 176, q := (f (operand s c 176) (operand s c 177) (moved64 s c m)).setWidth 256 }] })

/-- A row of MUL: the low half of the product goes in flight to Q and the high half to QH. -/
def mulRow (mk : CoreId → Slot → Instr) (port : Nat) (f : Word → Word → Int) : Prop :=
  ∀ (c : CoreId) (m : Slot) (s : State), Ready s c m port →
    exec (mk c m) s = .next (slotDone s c m { regsOf s c with
      flights := [{ unit := 192, q := (BitVec.ofInt 64 (f (operand s c 192) (moved64 s c m))).setWidth 256,
                    qh := BitVec.ofInt 64 (f (operand s c 192) (moved64 s c m) / 2 ^ 64) }] })

/-- A row of DIV: quotient and remainder go in flight to Q and QH, and the word waits for them. -/
def divRow (mk : CoreId → Slot → Instr) (port : Nat) (q r : Word → Word → Word) : Prop :=
  ∀ (c : CoreId) (m : Slot) (s : State), Ready s c m port →
    exec (mk c m) s = .next (slotLong s c m { regsOf s c with
      flights := [{ unit := 208, q := (q (operand s c 208) (moved64 s c m)).setWidth 256,
                    qh := r (operand s c 208) (moved64 s c m), long := true }] })

/-- The twenty-one ALU triggers compute Q, and the compares their predicate, from O and the value moved. On a core that
is ready for the slot (running, between words, nothing in flight, encoding legal, guard true), T_ADD, T_SUB, T_AND,
T_OR, T_XOR, T_ANDN, T_SHL, T_SHR, T_SAR, T_ROR, T_MIN, T_MAX, T_MINU and T_MAXU of ALU_0 and ALU_1 answer a next
state in which the result of their operation on O and the value moved is in flight to Q of that ALU, wrapping
modulo 2^64, shift amounts taken from bits 5:0 of the value. T_CMPEQ, T_CMPNE, T_CMPLT, T_CMPGE (signed), T_CMPLTU,
T_CMPGEU (unsigned) and T_TST (O AND v nonzero) send 1 or 0 to Q and to the predicate that bits 2:0 of EXT name. As
the first of two slots the word stays open; as the only or last slot it ends and the core stands 8 bytes further.
Nothing else of the device changes, memory included. (06_function_units.md R115, 05_sotaivo_isa_model.md R84,
05_sotaivo_isa_model.md R96) -/
def Obligations.AluTriggersComputeTheirResults : Prop :=
  aluRow .tAdd 120 (fun o v => BitVec.ofNat 64 (o.toNat + v.toNat)) ∧
  aluRow .tSub 121 (fun o v => BitVec.ofInt 64 (o.toInt - v.toInt)) ∧
  aluRow .tAnd 122 (fun o v => o &&& v) ∧ aluRow .tOr 123 (fun o v => o ||| v) ∧ aluRow .tXor 124 (fun o v => o ^^^ v) ∧
  aluRow .tAndn 125 (fun o v => o &&& ~~~v) ∧
  aluRow .tShl 126 (fun o v => o <<< (v.extractLsb' 0 6).toNat) ∧
  aluRow .tShr 127 (fun o v => o >>> (v.extractLsb' 0 6).toNat) ∧
  aluRow .tSar 128 (fun o v => o.sshiftRight (v.extractLsb' 0 6).toNat) ∧
  aluRow .tRor 129 (fun o v => (o >>> (v.extractLsb' 0 6).toNat) ||| (o <<< (64 - (v.extractLsb' 0 6).toNat))) ∧
  aluRow .tMin 130 (fun o v => if o.toInt ≤ v.toInt then o else v) ∧
  aluRow .tMax 131 (fun o v => if o.toInt ≤ v.toInt then v else o) ∧
  aluRow .tMinu 138 (fun o v => if o.toNat ≤ v.toNat then o else v) ∧
  aluRow .tMaxu 139 (fun o v => if o.toNat ≤ v.toNat then v else o) ∧
  aluCompareRow .tCmpeq 132 (fun o v => decide (o = v)) ∧ aluCompareRow .tCmpne 133 (fun o v => decide (o ≠ v)) ∧
  aluCompareRow .tCmplt 134 (fun o v => decide (o.toInt < v.toInt)) ∧
  aluCompareRow .tCmpge 135 (fun o v => decide (v.toInt ≤ o.toInt)) ∧
  aluCompareRow .tCmpltu 136 (fun o v => decide (o.toNat < v.toNat)) ∧
  aluCompareRow .tCmpgeu 137 (fun o v => decide (v.toNat ≤ o.toNat)) ∧
  aluCompareRow .tTst 140 (fun o v => decide (o &&& v ≠ 0))

/-- BFU, MUL and DIV triggers compute Q and QH from their operand ports and the value moved. On a core that is ready
for the slot, the seven BFU triggers answer a next state with their result in flight to Q. With POS = O[5:0] and
WIDTH = min(O[13:8] + 1, 64 - POS): T_EXTRACT gives the WIDTH bits of v from POS upward, zero-extended; T_EXTRACTS
the same sign-extended from the top bit of the field; T_INSERT gives P with those bits replaced by the low WIDTH
bits of v; T_CLZ and T_CTZ count leading and trailing zero bits, 64 for zero; T_POPC counts one bits; T_PERM gives
for each byte j the byte of v that O[4j+3:4j] selects, 0 for selectors 8 to 15. T_MUL, T_MULU and T_MULSU send bits
63:0 of the product of O and v, read as signed, unsigned, or signed by unsigned, to Q and bits 127:64 to QH. T_DIV
and T_DIVU send the quotient rounded toward zero to Q and the remainder with the sign of the dividend to QH, a
divisor of 0 giving all ones and O, and the most negative number divided by -1 giving itself and 0; the word waits
for this long operation once its last slot is transported. Nothing else changes. (06_function_units.md R116,
06_function_units.md R117, 06_function_units.md R118, 06_function_units.md R111) -/
def Obligations.BitFieldMultiplyAndDivideTriggers : Prop :=
  mulRow .tMul 200 (fun o v => o.toInt * v.toInt) ∧ mulRow .tMulu 201 (fun o v => (o.toNat : Int) * v.toNat) ∧
  mulRow .tMulsu 202 (fun o v => o.toInt * v.toNat) ∧
  divRow .tDiv 216 (fun o v => if v = 0 then BitVec.allOnes 64 else BitVec.ofInt 64 (o.toInt.tdiv v.toInt))
    (fun o v => if v = 0 then o else BitVec.ofInt 64 (o.toInt.tmod v.toInt)) ∧
  divRow .tDivu 217 (fun o v => if v = 0 then BitVec.allOnes 64 else BitVec.ofNat 64 (o.toNat / v.toNat))
    (fun o v => if v = 0 then o else BitVec.ofNat 64 (o.toNat % v.toNat)) ∧
  let pos := fun o : Word => (o.extractLsb' 0 6).toNat
  let width := fun o : Word => min ((o.extractLsb' 8 6).toNat + 1) (64 - pos o)
  let mask := fun o : Word => BitVec.ofNat 64 (2 ^ width o - 1)
  bfuRow .tExtract 180 (fun o _ v => (v >>> pos o) &&& mask o) ∧
  bfuRow .tExtracts 181 (fun o _ v => (v <<< (64 - width o - pos o)).sshiftRight (64 - width o)) ∧
  bfuRow .tInsert 182 (fun o p v => (p &&& ~~~(mask o <<< pos o)) ||| ((v &&& mask o) <<< pos o)) ∧
  bfuRow .tClz 183 (fun _ _ v => BitVec.ofNat 64 (((List.range 65).filter (fun n => v.toNat < 2 ^ (64 - n))).foldl max 0)) ∧
  bfuRow .tCtz 184 (fun _ _ v => BitVec.ofNat 64 (((List.range 65).filter (fun n => v.toNat % 2 ^ n = 0)).foldl max 0)) ∧
  bfuRow .tPopc 185 (fun _ _ v => BitVec.ofNat 64 ((List.range 64).filter (fun i => v.getLsbD i)).length) ∧
  bfuRow .tPerm 186 (fun o _ v => BitVec.ofNat 64 (((List.range 8).map (fun j =>
    let sel := (o.extractLsb' (4 * j) 4).toNat
    if sel < 8 then (v.extractLsb' (8 * sel) 8).toNat * 2 ^ (8 * j) else 0)).sum))

/-! ### The FPU and the vector unit (R125 to R129) -/

/-- The format that PREC, EXT bit 0, names, and the rounding mode and trap enables of CSR. -/
def precision (m : Slot) : FpFmt := if m.ext.getLsbD 0 then binary32 else binary64
def rounding (s : State) (c : CoreId) : Nat := ((getCore s c.val).ctx.csr.extractLsb' 0 3).toNat
def trapEnables (s : State) (c : CoreId) : BitVec 5 := (getCore s c.val).ctx.csr.extractLsb' 16 5

/-- An arithmetic row of the FPU: `f` of the format, the rounding mode, O, P and the value moved gives Q and flags. -/
def fpuRow (mk : CoreId → Slot → Instr) (port : Nat) (long : Bool) (f : FpFmt → Nat → Nat → Nat → Word → Nat × BitVec 5) : Prop :=
  ∀ (c : CoreId) (m : Slot) (s : State), Ready s c m port →
    let r := f (precision m) (rounding s c) (operand s c 272).toNat (operand s c 273).toNat (moved64 s c m)
    let x := { regsOf s c with flights := [{ unit := 272, q := BitVec.ofNat 256 r.1, flags := r.2, trap := trapEnables s c, long := long }] }
    exec (mk c m) s = .next (if long then slotLong s c m x else slotDone s c m x)

/-- A compare row of the FPU: 1 or 0 goes to Q and to the predicate that PTARGET, EXT 3:1, names. -/
def fpuCompareRow (mk : CoreId → Slot → Instr) (port : Nat) (f : FpFmt → Nat → Nat → Bool × BitVec 5) : Prop :=
  ∀ (c : CoreId) (m : Slot) (s : State), Ready s c m port →
    let r := f (precision m) (operand s c 272).toNat (moved64 s c m).toNat
    exec (mk c m) s = .next (slotDone s c m { regsOf s c with
      flights := [{ unit := 272, q := if r.1 then 1 else 0, pred := (m.ext.extractLsb' 1 3).toNat, flags := r.2, trap := trapEnables s c }] })

/-- The 256-bit value of a VEC operand port. -/
def vecOperand (s : State) (c : CoreId) (a : Nat) : VWord := look 0 a (getCore s c.val).ctx.ports
/-- Lane `i` of width `w` of a 256-bit value. -/
def lane (w i : Nat) (x : VWord) : Nat := x.toNat / 2 ^ (w * i) % 2 ^ w
/-- ELEM of a vector trigger, its lane width, and the format of its floating-point lanes. -/
def elem (m : Slot) : Nat := (m.ext.extractLsb' 0 3).toNat
def laneWidth (e : Nat) : Nat := [8, 16, 32, 64, 32, 64].getD e 64
def laneFormat (e : Nat) : FpFmt := if e = 4 then binary32 else binary64
/-- A VEC result in flight. -/
def vecFlight (s : State) (c : CoreId) (q : VWord) (fl : BitVec 5) : Ctx :=
  { regsOf s c with flights := [{ unit := 304, q := q, flags := fl, trap := trapEnables s c }] }

/-- A lane-by-lane row of VEC: `ii` on integer lanes, wrapping within the lane, `ff` on floating-point lanes; the flags are
those of every lane together. -/
def vecLaneRow (mk : CoreId → Slot → Instr) (port : Nat) (ii : Nat → Nat → Nat → Nat → Nat)
    (ff : FpFmt → Nat → Nat → Nat → Nat → Nat × BitVec 5) : Prop :=
  ∀ (c : CoreId) (m : Slot) (s : State), Ready s c m port →
    let e := elem m
    let w := laneWidth e
    let fp := fun i => ff (laneFormat e) (rounding s c) (lane w i (vecOperand s c 304)) (lane w i (moved s c m)) (lane w i (vecOperand s c 305))
    ∃ q fl, exec (mk c m) s = .next (slotDone s c m (vecFlight s c q fl)) ∧
      (∀ i, i < 256 / w → lane w i q =
        if e < 4 then ii w (lane w i (vecOperand s c 304)) (lane w i (moved s c m)) (lane w i (vecOperand s c 305)) % 2 ^ w
        else (fp i).1 % 2 ^ w) ∧
      (∀ j, fl.getLsbD j = true ↔ 4 ≤ e ∧ ∃ i, i < 256 / w ∧ (fp i).2.getLsbD j = true)

/-- A row of VEC that raises no flag: `f` of ELEM, O, P and the value moved. -/
def vecRow (mk : CoreId → Slot → Instr) (port : Nat) (f : Nat → VWord → VWord → VWord → VWord) : Prop :=
  ∀ (c : CoreId) (m : Slot) (s : State), Ready s c m port →
    exec (mk c m) s = .next (slotDone s c m (vecFlight s c (f (elem m) (vecOperand s c 304) (vecOperand s c 305) (moved s c m)) 0))

/-- A lane as a signed number. -/
def signedLane (w i : Nat) (x : VWord) : Int := (BitVec.ofNat w (lane w i x)).toInt
/-- A 256-bit value put together from lanes. -/
def ofLaneFn (w : Nat) (f : Nat → Nat) : VWord := BitVec.ofNat 256 (((List.range (256 / w)).map (fun i => f i % 2 ^ w * 2 ^ (w * i))).sum)

/-- The FPU arithmetic and conversion triggers round by CSR.RM and send result and flags to Q. On a core that is ready
for the slot, T_FADD, T_FSUB, T_FMUL, T_FMA, T_FMIN, T_FMAX, T_FCVTI, T_FCVTF and T_FCVTP answer a next state with
the IEEE 754-2019 result of O, P and the value moved, as the model's arithmetic computes it in the format of EXT
bit 0 and by the RM that CSR holds now, in flight to Q together with its flags and the TRAP bits that hold now.
T_FDIV and T_FSQRT do the same as long operations: their word waits. T_FCVTP converts from the other format.
Nothing else changes. (06_function_units.md R125, 06_function_units.md R126) -/
def Obligations.FpuTriggersComputeQAndFlags : Prop :=
  fpuRow .fpuTFadd 280 false (fun f rm o _ v => fpAdd f rm o v.toNat) ∧
  fpuRow .tFsub 281 false (fun f rm o _ v => fpSub f rm o v.toNat) ∧
  fpuRow .tFmul 282 false (fun f rm o _ v => fpMul f rm o v.toNat) ∧
  fpuRow .tFma 283 false (fun f rm o p v => fpFma f rm o v.toNat p) ∧
  fpuRow .tFdiv 284 true (fun f rm o _ v => fpDiv f rm o v.toNat) ∧
  fpuRow .tFsqrt 285 true (fun f rm _ _ v => fpSqrt f rm v.toNat) ∧
  fpuRow .tFmin 286 false (fun f _ o _ v => fpMinMax f false o v.toNat) ∧
  fpuRow .tFmax 287 false (fun f _ o _ v => fpMinMax f true o v.toNat) ∧
  fpuRow .tFcvti 288 false (fun f rm _ _ v => fpToInt f rm v.toNat) ∧
  fpuRow .tFcvtf 289 false (fun f rm _ _ v => fpFromInt f rm v) ∧
  fpuRow .tFcvtp 290 false (fun f rm _ _ v => fpConvert f (if f = binary32 then binary64 else binary32) rm v.toNat)

/-- NaN results are the default quiet NaN, and T_FCVTI saturates. In binary64, on a core that is ready for the slot and
whose O is a NaN (exponent all ones, fraction not zero), T_FADD, T_FSUB, T_FMUL, T_FMA and T_FDIV answer a next
state with 0x7FF8_0000_0000_0000 in flight to Q, and so does T_FSQRT of a NaN. T_FCVTI of a NaN gives 0, of
positive infinity 0x7FFF_FFFF_FFFF_FFFF and of negative infinity 0x8000_0000_0000_0000, each raising NV alone.
(06_function_units.md R125) -/
def Obligations.FpuNanAndConversionCorners : Prop :=
  let nan := fun x : Word => x.extractLsb' 52 11 = 0x7FF ∧ x.extractLsb' 0 52 ≠ 0
  (∀ (c : CoreId) (m : Slot) (s : State), m.ext = 0 →
    (∀ row ∈ [((.fpuTFadd c m : Instr), 280), (.tFsub c m, 281), (.tFmul c m, 282), (.tFma c m, 283)], Ready s c m row.2 → nan (operand s c 272) →
      ∃ fl, exec row.1 s = .next (slotDone s c m { regsOf s c with
        flights := [{ unit := 272, q := 0x7FF8000000000000, flags := fl, trap := trapEnables s c }] })) ∧
    (∀ row ∈ [((.tFdiv c m : Instr), 284, operand s c 272), (.tFsqrt c m, 285, moved64 s c m)], Ready s c m row.2.1 → nan row.2.2 →
      ∃ fl, exec row.1 s = .next (slotLong s c m { regsOf s c with
        flights := [{ unit := 272, q := 0x7FF8000000000000, flags := fl, trap := trapEnables s c, long := true }] })) ∧
    (Ready s c m 288 → ∀ q : VWord, (nan (moved64 s c m) ∧ q = 0) ∨ (moved64 s c m = 0x7FF0000000000000 ∧ q = 0x7FFFFFFFFFFFFFFF) ∨
        (moved64 s c m = 0xFFF0000000000000 ∧ q = 0x8000000000000000) →
      exec (.tFcvti c m) s = .next (slotDone s c m { regsOf s c with
        flights := [{ unit := 272, q := q, flags := 1, trap := trapEnables s c }] })))

/-- FPU compares write Q and a predicate, and a move into CSR writes it. On a core that is ready for the slot,
T_FCMPEQ, T_FCMPLT, T_FCMPLE and T_FCMPUN answer a next state with 1 or 0 in flight to Q and to the predicate that
EXT bits 3:1 name, and with the flags of the comparison. A move into FPU.CSR with RM of 0 to 4 writes TRAP, FLAGS
and RM and reads 0 in every reserved bit. With a reserved RM, as the slot that ends its word, it keeps the old RM,
writes the other fields and records REG_RESERVED_VALUE, class C, for the core and its cell. Nothing else changes.
(06_function_units.md R125, 06_function_units.md R126) -/
def Obligations.FpuComparesAndCsrWrites : Prop :=
  fpuCompareRow .tFcmpeq 292 fpCmpEq ∧ fpuCompareRow .tFcmplt 293 fpCmpLt ∧ fpuCompareRow .tFcmple 294 fpCmpLe ∧
  fpuCompareRow .tFcmpun 295 fpCmpUn ∧
  (∀ (c : CoreId) (m : Slot) (s : State), Ready s c m 275 →
    let v := moved64 s c m
    ((v.extractLsb' 0 3).toNat ≤ 4 →
      exec (.fpuCsrWrite c m) s = .next (slotDone s c m { regsOf s c with csr := v &&& 0x1F1F07 })) ∧
    (4 < (v.extractLsb' 0 3).toNat → m.pos ≠ .first →
      exec (.fpuCsrWrite c m) s = .next (raise
        (slotDone s c m { regsOf s c with csr := (v &&& 0x1F1F00) ||| ((getCore s c.val).ctx.csr &&& 7) })
        { code := 0x0003, cls := 0, source := coreSrc c.val 0, cell := coreCell (getCore s c.val) })))

/-- Lane i of a vector result comes from lane i of the operands alone. On an A-core that is ready for the slot, T_VADD,
T_VSUB, T_VMUL, T_VFMA, T_VMIN and T_VMAX answer a next state with a 256-bit result in flight to Q whose lane i is
the operation on lane i of O, of the value moved and of P: integer lanes of 8, 16, 32 and 64 bits wrap (minimum and
maximum are signed), floating-point lanes follow the FPU's arithmetic with the RM of CSR, and the flags raised are
those of every floating-point lane together. Nothing else changes. (06_function_units.md R128) -/
def Obligations.VectorLanesAreIndependent : Prop :=
  vecLaneRow .tVadd 312 (fun _ a b _ => a + b) (fun f rm a b _ => fpAdd f rm a b) ∧
  vecLaneRow .tVsub 313 (fun w a b _ => a + (2 ^ w - b)) (fun f rm a b _ => fpSub f rm a b) ∧
  vecLaneRow .tVmul 314 (fun _ a b _ => a * b) (fun f rm a b _ => fpMul f rm a b) ∧
  vecLaneRow .tVfma 315 (fun _ a b p => a * b + p) (fun f rm a b p => fpFma f rm a b p) ∧
  vecLaneRow .tVmin 318 (fun w a b _ => if (BitVec.ofNat w a).toInt < (BitVec.ofNat w b).toInt then a else b) (fun f _ a b _ => fpMinMax f false a b) ∧
  vecLaneRow .tVmax 319 (fun w a b _ => if (BitVec.ofNat w a).toInt < (BitVec.ofNat w b).toInt then b else a) (fun f _ a b _ => fpMinMax f true a b)

/-- Bitwise, permute, dot product, splat and reduction triggers of VEC. On an A-core that is ready for the slot:
T_VAND, T_VOR and T_VXOR work bit by bit; T_VPERM gives byte j the byte of O that bits 4:0 of byte j of v select, 0
where bit 7 is set; T_VDOT adds to each 32-bit lane of P the signed products of the bytes or halfwords of O and v
within it; T_VSPLAT copies lane 0 of v to every lane; T_VRED leaves in lane 0 the wrapping sum of integer lanes, or
the floating-point sum in the fixed tree of adjacent pairs, every addition rounded, and 0 elsewhere. Each answers a
next state with that value in flight to Q and changes nothing else. (06_function_units.md R128,
06_function_units.md R129) -/
def Obligations.VectorWholeValueTriggers : Prop :=
  vecRow .tVand 320 (fun _ o _ v => o &&& v) ∧ vecRow .tVor 321 (fun _ o _ v => o ||| v) ∧ vecRow .tVxor 322 (fun _ o _ v => o ^^^ v) ∧
  vecRow .tVperm 317 (fun _ o _ v => ofLaneFn 8 (fun j =>
    if 128 ≤ lane 8 j v then 0 else lane 8 (lane 8 j v % 32) o)) ∧
  vecRow .tVdot 316 (fun e o p v =>
    let w := laneWidth e
    let n := 32 / w
    ofLaneFn 32 (fun i => (BitVec.ofInt 32 (signedLane 32 i p +
      ((List.range n).map (fun j => signedLane w (n * i + j) o * signedLane w (n * i + j) v)).sum)).toNat)) ∧
  vecRow .tVsplat 323 (fun e _ _ v => ofLaneFn (laneWidth e) (fun _ => lane (laneWidth e) 0 v)) ∧
  (∀ (c : CoreId) (m : Slot) (s : State), Ready s c m 324 →
    let e := elem m
    let w := laneWidth e
    let l := fun i => lane w i (moved s c m)
    let add := fun a b => (fpAdd (laneFormat e) (rounding s c) a b).1
    ∃ q fl, exec (.tVred c m) s = .next (slotDone s c m (vecFlight s c q fl)) ∧
      q = BitVec.ofNat 256 (
        if e = 5 then add (add (l 0) (l 1)) (add (l 2) (l 3))
        else if e = 4 then add (add (add (l 0) (l 1)) (add (l 2) (l 3))) (add (add (l 4) (l 5)) (add (l 6) (l 7)))
        else ((List.range (256 / w)).map l).sum % 2 ^ w))

/-! ### Slots, moves and triggers of a core (chapters 05 to 07) -/

/-- The registers of core `c` as its word found them, a plain write apart. -/
def lo (v : VWord) : Word := v.setWidth 64

/-- What a plain move into a register, predicate or operand port leaves (R83, R87 to R89, R92, R131, R188). -/
def written (x : Ctx) (d : Nat) (v : VWord) : Ctx :=
  if d < 64 then { x with g := put d (lo v) x.g, dirty := x.dirty ||| BitVec.ofNat 6 (2 ^ (d / 16)) }
  else if d < 96 then { x with v := put (d - 64) v x.v, dirty := x.dirty ||| (if d < 80 then 16 else 32) }
  else if d = 96 then { x with p := v.setWidth 8 &&& 0xFE }
  else if d ≤ 103 then { x with p := (x.p &&& ~~~(BitVec.ofNat 8 (2 ^ (d - 96)))) ||| (if v.getLsbD 0 then BitVec.ofNat 8 (2 ^ (d - 96)) else 0) }
  else if d = 336 then { x with rc := BitVec.ofNat 13 (min (lo v).toNat 4096) }
  else if d = 225 then
    { x with ports := put 225 v x.ports, dirty := x.dirty ||| (if look 0 225 x.ports >>> 64 = v >>> 64 then 0 else 16) }
  else if d = 304 ∨ d = 305 then { x with ports := put d v x.ports, dirty := x.dirty ||| 16 }
  else { x with ports := put d ((lo v).setWidth 256) x.ports }

/-- The effect that the first slot of a word leaves for the word's end. -/
def latches (mk : CoreId → Slot → Instr) (port : Nat) (f : State → CoreId → Slot → After) : Prop :=
  ∀ (c : CoreId) (m : Slot) (s : State), Ready s c m port → m.pos = .first →
    exec (mk c m) s = .next (slotLeaves s c m (regsOf s c) (f s c m))
/-- The same of an LSU trigger: base, value moved, store data, EXT. -/
def latchesLsu (mk : CoreId → Slot → Instr) (port : Nat) (op : LsuOp) : Prop :=
  latches mk port (fun s c m => .lsu op (operand s c 224) (moved s c m) (look 0 225 (getCore s c.val).ctx.ports) m.ext)
/-- Is the branch's target taken from a port? -/
def fromPort (m : Slot) : Bool := match m.src with | .imm _ => false | .port _ => true

/-- A slot whose guard is false writes nothing, triggers nothing and raises nothing. GUARD 0 always holds, 1 to 7 hold
when that predicate is 1, 8 never holds, 9 to 15 hold when p1 to p7 is 0. For every command that performs a slot
(every move and trigger row): on a core between words with nothing in flight, a legal slot whose guard does not
hold leaves every register, port and predicate as it was; the word stays open, or ends with the core 8 bytes
further; nothing else of the device changes. (R99) -/
def Obligations.FalseGuardsHaveNoEffect : Prop :=
  (∀ (x : Ctx) (g : BitVec 4), guardTrue x g =
    if g.toNat = 0 then true else if g.toNat < 8 then x.p.getLsbD g.toNat
    else if g.toNat = 8 then false else !x.p.getLsbD (g.toNat - 8)) ∧
  (∀ (i : Instr) (c : CoreId) (m : Slot) (d : Nat) (s : State), slotRow i = some (c, m, d) → Straight (getCore s c.val) →
    s.flt.safe = false → SlotLegal c.val (getCore s c.val) m d → guardTrue (getCore s c.val).ctx m.guard = false →
    exec i s = .next (slotDone s c m (regsOf s c)))

/-- An illegal or privileged slot leaves its word unperformed and its exception to be entered. For every command that
performs a slot: on a core between words that awaits no memory answer, when the slot, guard true or false, ends its
word and names an illegal address or EXT, the word is unperformed and ILLEGAL_WORD (class 1) with its REASON and
ADDR waits for entry; when the slot is legal but names a port above the current level, PRIV_MOVE (class 4) with the
required level does. The registers are those before the word; nothing else of the device changes.
(05_sotaivo_isa_model.md R93, 05_sotaivo_isa_model.md R98, 06_function_units.md R113, 05_sotaivo_isa_model.md R104) -/
def Obligations.IllegalAndPrivilegedSlotsRaise : Prop :=
  ∀ (i : Instr) (c : CoreId) (m : Slot) (d : Nat) (s : State), slotRow i = some (c, m, d) → Straight (getCore s c.val) →
    m.pos ≠ .first → (getCore s c.val).rdTxn = none →
    let k := getCore s c.val
    let imm : Bool := match m.src with | .imm _ => true | .port _ => false
    let a := match m.src with | .imm _ => 0 | .port a => a.toNat
    let raised := fun (cls : Nat) (r : Nat × Nat) =>
      setCore s c.val { dropFailed k with ctx := opened k.ctx, rdAns := none, rdInv := false, rdParts := [], walk := none, exc := some (decExc cls (r.1 + 256 * r.2) m.slotB m.long k.pc) }
    (∀ r, portReason (isS c.val) imm a d m.ext.toNat = some r → exec i s = .next (raised 1 r)) ∧
    (∀ r, portReason (isS c.val) imm a d m.ext.toNat = none → portPriv k.level.toNat imm a d = some r → exec i s = .next (raised 4 r))

/-- A core that does not run words, or that has an exception to enter, is not changed by a slot. For every command that
performs a slot: while its core is held, free, locked up, stopped, in safe state or waiting for memory, a long
operation or a barrier, or while an exception waits to be entered there, the command changes nothing at all.
(07_pipeline_and_branches.md R152, 06_function_units.md R109, 08_privilege_and_exceptions.md R174) -/
def Obligations.StoppedCoresIgnoreSlots : Prop :=
  ∀ (i : Instr) (c : CoreId) (m : Slot) (d : Nat) (s : State), slotRow i = some (c, m, d) →
    ((getCore s c.val).mode ≠ .run ∨ (getCore s c.val).exc ≠ none) → exec i s = .next s

/-- A plain move writes its register, predicate or port; RC is cut at 4,096. On a core that is ready for the slot, a
MOVE into a general register writes its low 64 bits, into a vector register all 256, into PALL the predicates p1 to
p7, into one predicate its bit 0, into an operand port the port; it sets the DIRTY bit of the register group
written, and of VA for the VEC ports and for a change of LSU.P above bit 63. RC_WRITE, and a MOVE into RC, write
the smaller of the value and 4,096. The moves into FPU.CSR and the CHK ports have claims of their own. Nothing else
changes. (05_sotaivo_isa_model.md R83, 05_sotaivo_isa_model.md R89, 06_function_units.md R131,
09_contexts_and_scheduler.md R188) -/
def Obligations.MovesWriteTheirDestination : Prop :=
  (∀ (c : CoreId) (m : Slot) (d : BitVec 9) (s : State), isTrigger d.toNat = false → d.toNat ∉ [275, 352, 353, 354] → Ready s c m d.toNat →
    exec (.move c m d) s = .next (slotDone s c m (written (regsOf s c) d.toNat (moved s c m)))) ∧
  (∀ (c : CoreId) (m : Slot) (s : State), Ready s c m 336 →
    exec (.rcWrite c m) s = .next (slotDone s c m { regsOf s c with rc := BitVec.ofNat 13 (min (moved64 s c m).toNat 4096) }))

/-- A trigger in the first slot of a word latches its operands for the end of the word. On a core that is ready for the
slot, a trigger of the LSU, of a gather, of the BRU, of repeat and loop, of context movement, of CHK, of a stimulus
port, of a fence or of SYS in the first of two slots keeps its operation with the operands as they stand (base,
value moved and store data; branch target from the word's own address or the value; register number and value) for
the end of the word, and changes nothing else: no memory access, no flow, no system register before the word ends.
(05_sotaivo_isa_model.md R102, 06_function_units.md R110, 06_function_units.md R119, 06_function_units.md R124,
05_sotaivo_isa_model.md R105) -/
def Obligations.FirstSlotsLatchTheirOperation : Prop :=
  latchesLsu .tLd 232 .ld ∧ latchesLsu .tSt 233 .st ∧ latchesLsu .tLdpi 234 .ldpi ∧ latchesLsu .tStpi 235 .stpi ∧
  latchesLsu .tLr 236 .lr ∧ latchesLsu .tSc 237 .sc ∧ latchesLsu .tSwap 238 .swap ∧ latchesLsu .lsuTFadd 239 .fadd ∧
  latchesLsu .tCas 240 .cas ∧
  latches .tVgather 325 (fun s c m => .lsu .gather (operand s c 304) (moved s c m) 0 m.ext) ∧
  latches .tBr 264 (fun s c m => .branch ((getCore s c.val).pc + moved64 s c m) (fromPort m) false) ∧
  latches .tBri 265 (fun s c m => .branch (moved64 s c m) (fromPort m) false) ∧
  latches .tCall 266 (fun s c m => .call ((getCore s c.val).pc + moved64 s c m) (fromPort m)) ∧
  latches .tCalli 267 (fun s c m => .call (moved64 s c m) (fromPort m)) ∧
  latches .tRet 268 (fun s c m => .branch (moved64 s c m) (fromPort m) true) ∧
  latches .tRsflush 269 (fun _ _ _ => .rsflush) ∧
  latches .tRep 340 (fun s c m => .rep (moved64 s c m).toNat) ∧
  latches .tLoop 341 (fun s c m => .loop ((getCore s c.val).pc + moved64 s c m)) ∧
  latches .tSaveLo 342 (fun s c _ => .ctxSave false (operand s c 337)) ∧ latches .tSaveHi 343 (fun s c _ => .ctxSave true (operand s c 337)) ∧
  latches .tLoadLo 344 (fun s c m => .ctxLoad false ((moved64 s c m).getLsbD 0) (operand s c 337)) ∧
  latches .tLoadHi 345 (fun s c m => .ctxLoad true ((moved64 s c m).getLsbD 0) (operand s c 337)) ∧
  latches .tStm 346 (fun s c m => .multi false (operand s c 337) ((moved64 s c m).setWidth 16)) ∧
  latches .tLdm 347 (fun s c m => .multi true (operand s c 337) ((moved64 s c m).setWidth 16)) ∧
  latches .tFeed8 360 (fun s c m => .chk 0 1 (moved64 s c m)) ∧ latches .tFeed16 361 (fun s c m => .chk 0 2 (moved64 s c m)) ∧
  latches .tFeed32 362 (fun s c m => .chk 0 4 (moved64 s c m)) ∧ latches .tInit 363 (fun s c m => .chk 1 0 (moved64 s c m)) ∧
  latches .tCmp 364 (fun s c m => .chk 4 0 (moved64 s c m)) ∧ latches .tAbort 365 (fun s c m => .chk 5 0 (moved64 s c m)) ∧
  (∀ p : BitVec 6, latches (fun c m => .trcStimulus c p m) (448 + p.toNat) (fun s c m => .trc p.toNat (moved64 s c m))) ∧
  latches .tFenceF 384 (fun _ _ _ => .fence .f) ∧ latches .tFenceS 385 (fun _ _ _ => .fence .s) ∧
  latches .tFenceL 386 (fun _ _ _ => .fence .l) ∧ latches .tFenceD 387 (fun _ _ _ => .fence .d) ∧
  latches .tSrrd 388 (fun s c m => .srrd (moved64 s c m)) ∧ latches .tSrwr 389 (fun s c m => .srwr (operand s c 368) (moved64 s c m)) ∧
  latches .tReturn 390 (fun _ _ _ => .ret) ∧
  (∀ k : Fin 3, latches (fun c m => .tGate c k m) (391 + k.val) (fun s c m => .gate k.val (moved64 s c m))) ∧
  latches .tSeal 394 (fun s c m => .seal (moved64 s c m)) ∧ latches .tJobend 395 (fun _ _ _ => .jobend) ∧
  latches .tWait 396 (fun _ _ _ => .wait) ∧ latches .tBreak 397 (fun _ _ _ => .brk)

/-! ### Words with an effect at their end -/

/-- The state in which the operation of a word is checked and performed: its one trigger transported, `a` what it left
(R104, R105). -/
def atEnd (s : State) (c : CoreId) (m : Slot) (a : After) : State :=
  setCore s c.val { openCore (getCore s c.val) with ctx := { regsOf s c with after := [(m.slotB, m.long, a)] } }
/-- Core `c` performs the slot now and its word ends with it. -/
def Ends (s : State) (c : CoreId) (m : Slot) (port : Nat) : Prop := Ready s c m port ∧ m.pos ≠ .first
/-- The same with no word decoded ahead. -/
def EndsEmpty (s : State) (c : CoreId) (m : Slot) (port : Nat) : Prop := Ends s c m port ∧ (getCore s c.val).dq = []
/-- The word of core `c` is unperformed and an exception of class `cls` for address `a` waits: nothing else changes. -/
def Raises (i : Instr) (s : State) (c : CoreId) (cls : Nat) (a : Word) : Prop :=
  ∃ e : Exc, e.cls = cls ∧ e.pc = (getCore s c.val).pc ∧ e.addr = a ∧
    exec i s = .next (setCore s c.val { dropFailed (getCore s c.val) with ctx := regsOf s c, rdAns := none, rdInv := false, rdParts := [], walk := none, exc := some e })

/-- A branch row: it goes to `target`; an indirect one and a return enter the target history, an indirect branch or call of an A-core the target
table; a call sets LINK; a misaligned target raises ALIGN for the branch word. -/
def branchRow (mk : CoreId → Slot → Instr) (port : Nat) (call ret : Bool) (target : Word → Word → Word) : Prop :=
  ∀ (c : CoreId) (m : Slot) (s : State), EndsEmpty s c m port →
    let k := getCore s c.val
    let t := target k.pc (moved64 s c m)
    let x := if call then { regsOf s c with link := k.pc + 8 } else regsOf s c
    (t.toNat % 8 = 0 → exec (mk c m) s = .next (setCore s c.val { wordTo k x t with
      hist := if fromPort m || ret then (t :: k.hist).take 8 else k.hist
      itt := if fromPort m && !ret && !isS c.val then put (ittIndexOf k.hist) (ittTag k.pc, t &&& 0xFFFFFFFFFFF8) k.itt else k.itt })) ∧
    (t.toNat % 8 ≠ 0 → k.rdTxn = none → Raises (mk c m) s c 0x08 t)

/-- Branches, calls and returns leave the word for their target, and a misaligned target raises ALIGN. On a core that
is ready for the slot with no word decoded ahead, a branch trigger that ends its word goes on at its target: T_BR
and T_CALL at the word's address plus v, T_BRI, T_CALLI and T_RET at v. Calls set LINK to the word's address plus
8. A target from a port, and every return, enters the history, and bits 47:3 of the target of an indirect branch or
call of an A-core its target table. T_RSFLUSH empties the return stack and does not change the flow. A target with
bits 2:0 nonzero leaves the word unperformed with ALIGN (class 8) to be entered. Nothing else of the device
changes. (06_function_units.md R124, 05_sotaivo_isa_model.md R105, 07_pipeline_and_branches.md R148) -/
def Obligations.BranchesGoToTheirTarget : Prop :=
  branchRow .tBr 264 false false (fun pc v => pc + v) ∧ branchRow .tBri 265 false false (fun _ v => v) ∧
  branchRow .tCall 266 true false (fun pc v => pc + v) ∧ branchRow .tCalli 267 true false (fun _ v => v) ∧
  branchRow .tRet 268 false true (fun _ v => v) ∧
  (∀ (c : CoreId) (m : Slot) (s : State), Ends s c m 269 →
    exec (.tRsflush c m) s = .next (setCore s c.val { wordOver (getCore s c.val) (regsOf s c) with retStack := [] }))

/-- T_REP starts or skips a repeat, and T_LOOP counts RC down and branches while it is at least 2. On a core that is
ready for the slot with no word decoded ahead: T_REP of N that ends its word sets RC to min(N, 4,096), starts a
repeat of the next word when N is not 0, and for N = 0 skips the next word. T_LOOP with RC of at least 2 and an
aligned target lowers RC by 1 and goes to its word's address plus v; with RC of 0 or 1 it writes 0 to RC and goes
on. A taken target that is misaligned raises ALIGN. Nothing else of the device changes. (06_function_units.md R132,
06_function_units.md R135) -/
def Obligations.RepeatAndLoopCountDown : Prop :=
  ∀ (c : CoreId) (m : Slot) (s : State),
    let k := getCore s c.val
    let v := moved64 s c m
    (EndsEmpty s c m 340 → exec (.tRep c m) s = .next (setCore s c.val
      (wordTo k { regsOf s c with rc := BitVec.ofNat 13 (min v.toNat 4096), rep := decide (v ≠ 0) } (if v = 0 then k.pc + 16 else k.pc + 8)))) ∧
    (EndsEmpty s c m 341 → 2 ≤ k.ctx.rc.toNat → (k.pc + v).toNat % 8 = 0 →
      exec (.tLoop c m) s = .next (setCore s c.val (wordTo k { regsOf s c with rc := k.ctx.rc - 1 } (k.pc + v)))) ∧
    (Ends s c m 341 → k.ctx.rc.toNat < 2 →
      exec (.tLoop c m) s = .next (setCore s c.val (wordOver k { regsOf s c with rc := 0 }))) ∧
    (EndsEmpty s c m 341 → 2 ≤ k.ctx.rc.toNat → (k.pc + v).toNat % 8 ≠ 0 → k.rdTxn = none → Raises (.tLoop c m) s c 0x08 (k.pc + v))

/-- An LSU operation of a slot with its operands. -/
def lsuAt (s : State) (c : CoreId) (m : Slot) (op : LsuOp) : Lsu :=
  { op := op, o := operand s c 224, v := moved s c m, p := look 0 225 (getCore s c.val).ctx.ports, ext := m.ext, slotB := m.slotB, long := m.long }
/-- The state at the end of its word. -/
def lsuEnd (s : State) (c : CoreId) (m : Slot) (op : LsuOp) : State :=
  atEnd s c m (.lsu op (operand s c 224) (moved s c m) (look 0 225 (getCore s c.val).ctx.ports) m.ext)
/-- The store-buffer entry of a store's bytes. -/
def entryOf (s : State) (c : CoreId) (m : Slot) (va : Word) (pa mt : Nat) (d : List Byte) (linked : Bool) : SbEntry :=
  { cell := coreCell (getCore s c.val), level := (getCore s c.val).level, mt := effType c.val pa mt, va := va, pa := pa, data := d,
    linked := linked, barrier := (getCore s c.val).sfence.contains (coreCell (getCore s c.val)), noAlloc := decide (m.ext.toNat / 8 = 2) }
/-- A store row: the checked access enters the store buffer as one entry, or as the linked pair of a split store. -/
def storeRow (mk : CoreId → Slot → Instr) (port : Nat) (op : LsuOp) (post : Bool) : Prop :=
  ∀ (c : CoreId) (m : Slot) (s : State), Ends s c m port →
    let k := getCore s c.val
    let a := lsuAt s c m op
    let e := lsuEnd s c m op
    let n := if m.ext.toNat / 8 = 1 then 32 else 2 ^ (m.ext.toNat % 4)
    let x := if post then { regsOf s c with ports := put 224 ((operand s c 224 + moved64 s c m).setWidth 256) (regsOf s c).ports } else regsOf s c
    let data := natLe n a.p.toNat
    let fenced := k.sfence.filter (fun y => y ≠ coreCell k)
    k.blocked = [] →
    (∀ va pa mt ps, checkAcc e c.val a false 0 = .ok ps → checkAcc e c.val a true 0 = .ok [(va, n, pa, mt)] → k.sbuf.length < sbSize c.val →
      exec (mk c m) s = .next (setCore s c.val (wordOver { k with sbuf := k.sbuf ++ [entryOf s c m va pa mt data false], sfence := fenced } x))) ∧
    (∀ va pa mt vb pb mu i ps, i < n → checkAcc e c.val a false 0 = .ok ps →
      checkAcc e c.val a true 0 = .ok [(va, i, pa, mt), (vb, n - i, pb, mu)] → k.sbuf.length + 1 < sbSize c.val →
      exec (mk c m) s = .next (setCore s c.val (wordOver { k with
        sbuf := k.sbuf ++ [entryOf s c m va pa mt (data.take i) true, entryOf s c m vb pb mu (data.drop i) false], sfence := fenced } x)))

/-- A store enters the store buffer with its translated address and bytes, a split one as a linked pair. On a core that
is ready for the slot, T_ST or T_STPI that ends its word, passes its checks and finds room puts the low SIZE bytes
of P (32 for the vector variant), least significant first, into the store buffer at the physical address and with
the memory type that translation gave, the two halves of an access across an 8-byte boundary as a linked pair;
T_STPI then adds v to O. The word ends. Memory, every other core and every other register are unchanged.
(06_function_units.md R119, 11_memory_ordering.md R247, 07_pipeline_and_branches.md R155) -/
def Obligations.StoresEnterTheStoreBuffer : Prop :=
  storeRow .tSt 233 .st false ∧ storeRow .tStpi 235 .stpi true

/-- The value of a load of `n` bytes: zero-extended, or sign-extended to 64 bits by SX. -/
def extended (n : Nat) (sx : Bool) (d : List Byte) : VWord :=
  if sx && decide (n < 8) && (BitVec.ofNat (8 * n) (leNat d)).msb then (BitVec.ofInt 64 (BitVec.ofNat (8 * n) (leNat d)).toInt).setWidth 256
  else BitVec.ofNat 256 (leNat d)
/-- A load row on a line that L1 holds: Q takes the value, through the port's interlock. -/
def loadRow (mk : CoreId → Slot → Instr) (port : Nat) (op : LsuOp) (post lr : Bool) : Prop :=
  ∀ (c : CoreId) (m : Slot) (s : State) (va : Word) (n pa mt : Nat), Ends s c m port →
    let k := getCore s c.val
    let a := lsuAt s c m op
    n = (if m.ext.toNat / 8 = 1 then 32 else 2 ^ (m.ext.toNat % 4)) →
    k.rdTxn = none → k.rdParts = [] → (∀ e ∈ k.sbuf, sbOverlap e pa n = false) →
    checkAcc (lsuEnd s c m op) c.val a false 0 = .ok [(va, n, pa, mt)] → 2 ≤ effType c.val pa mt → hasLine k (pa / 64) = true →
    ∃ t k', exec (mk c m) s = .next t ∧ getCore t c.val = k' ∧ k'.pc = k.pc + 8 ∧ k'.mode = .run ∧ k'.sbuf.length = k.sbuf.length ∧
      k'.ctx = { regsOf s c with
        mprog := none
        ports := if post then put 224 ((operand s c 224 + moved64 s c m).setWidth 256) (regsOf s c).ports else (regsOf s c).ports
        flights := [{ unit := 224, q := extended n (m.ext.getLsbD 2) (rdBytes s pa n), poison := if poisonedAt s pa n then some (a.addr 0) else none }] } ∧
      k'.resv = (if lr then some { line := pa / 64, size := n, scratch := false } else k.resv) ∧ t.mem = s.mem ∧ t.poison = s.poison

/-- A load of a line in L1 brings its bytes to Q, zero- or sign-extended; T_LR takes its reservation. On a core that is
ready for the slot, T_LD, T_LDPI or T_LR that ends its word, whose one aligned access of cached memory passes its
checks, meets no entry of the store buffer and finds its line in L1, answers a next state with the SIZE bytes at
its physical address (32 for the vector variant) in flight to Q, sign-extended by SX, marked with the load address
if they are poisoned. T_LDPI adds v to O, and T_LR takes the reservation of the line with the size. Memory and
poison are unchanged. (06_function_units.md R119, 06_function_units.md R123, 07_pipeline_and_branches.md R152,
15_faults_and_recovery.md R329) -/
def Obligations.LoadsTakeTheBytesOfTheirLine : Prop :=
  loadRow .tLd 232 .ld false false ∧ loadRow .tLdpi 234 .ldpi true false ∧ loadRow .tLr 236 .lr false true

/-- An atomic row on a line that L1 holds writable: the new bytes replace the old, which go to Q. -/
def atomicRow (mk : CoreId → Slot → Instr) (port : Nat) (op : LsuOp) (new : List Byte → Word → Word → Nat → List Byte) : Prop :=
  ∀ (c : CoreId) (m : Slot) (s : State) (va : Word) (n pa mt : Nat), Ends s c m port →
    let k := getCore s c.val
    let a := lsuAt s c m op
    let e := lsuEnd s c m op
    n = 2 ^ (m.ext.toNat % 4) → k.rdTxn = none → k.rdParts = [] → (∀ b ∈ k.sbuf, sbOverlap b pa n = false) → fencedStores k = false →
    checkAcc e c.val a false 0 = .ok [(va, n, pa, mt)] → lookup e c.val k.level.toNat (a.addr 0).toNat .rmw true = .ok pa mt →
    2 ≤ effType c.val pa mt → hasExcl k (pa / 64) = true → refusedAt s pa n = none →
    let old := rdBytes s pa n
    ∃ t k', exec (mk c m) s = .next t ∧ getCore t c.val = k' ∧ k'.pc = k.pc + 8 ∧ k'.mode = .run ∧
      k'.ctx.flights = [{ unit := 224, q := BitVec.ofNat 256 (leNat old), poison := if poisonedAt s pa n then some (a.addr 0) else none }] ∧
      (Memory.wf s.mem = true → ∀ b, rdByte t b = if pa ≤ b ∧ b < pa + n then (new old (moved64 s c m) (lo a.p) n).getD (b - pa) 0 else rdByte s b)

/-- T_SWAP, T_FADD and T_CAS answer the old value and write the new one; T_SC writes only under its reservation. On a
core that is ready for the slot, an atomic that ends its word, passes its checks, waits for no store before a
FENCE.S of its cell and finds its line writable in L1 sends the old value of its SIZE bytes, zero-extended, to Q
and writes: T_SWAP v, T_FADD old plus v modulo the size, T_CAS P if the old value equals the low SIZE bytes of v
and nothing otherwise; every byte outside stays as it was. T_SC with no reservation of its line and size writes
nothing, sends 1 to Q and changes only its core; under its reservation it writes the low SIZE bytes of P, sends 0
to Q and gives up the reservation. (06_function_units.md R122, 06_function_units.md R123) -/
def Obligations.AtomicsReplaceTheOldValue : Prop :=
  atomicRow .tSwap 238 .swap (fun _ v _ n => natLe n v.toNat) ∧
  atomicRow .lsuTFadd 239 .fadd (fun old v _ n => natLe n (leNat old + v.toNat)) ∧
  atomicRow .tCas 240 .cas (fun old v p n => if leNat old = v.toNat % 2 ^ (8 * n) then natLe n p.toNat else old) ∧
  (∀ (c : CoreId) (m : Slot) (s : State) (va : Word) (n pa mt : Nat), Ends s c m 237 →
    let k := getCore s c.val
    let a := lsuAt s c m .sc
    let e := lsuEnd s c m .sc
    n = 2 ^ (m.ext.toNat % 4) → k.rdTxn = none → k.rdParts = [] → checkAcc e c.val a false 0 = .ok [(va, n, pa, mt)] →
    (resvHolds k pa n = false → exec (.tSc c m) s = .next (setCore s c.val (wordOver { k with resv := none }
      { regsOf s c with flights := [{ unit := 224, q := 1 }] }))) ∧
    (resvHolds k pa n = true → (∀ b ∈ k.sbuf, sbOverlap b pa n = false) → fencedStores k = false → lookup e c.val k.level.toNat (a.addr 0).toNat .store true = .ok pa mt →
      2 ≤ effType c.val pa mt → hasExcl k (pa / 64) = true → refusedAt s pa n = none →
      ∃ t k', exec (.tSc c m) s = .next t ∧ getCore t c.val = k' ∧ k'.pc = k.pc + 8 ∧ k'.resv = none ∧
        k'.ctx.flights = [{ unit := 224, q := 0 }] ∧
        (Memory.wf s.mem = true → ∀ b, rdByte t b = if pa ≤ b ∧ b < pa + n then (natLe n (lo a.p).toNat).getD (b - pa) 0 else rdByte s b)))

/-- Words of the check-value unit feed, initialise, set and compare the context that SEL names. On a core that is ready
for the slot, that serves the context SEL names (its running cell owns it, or the core is an S-core) and whose CHK
is free, a word that ends: T_FEED8, T_FEED16 and T_FEED32 put the low 1, 2 or 4 bytes of v before the context,
BUSY; T_INIT on an A-core sets VAL to the initial value, DONE; CHK_VAL_WRITE sets VAL to v cut to WIDTH bits, DONE;
CHK_EXP_WRITE sets EXP and its byte parity; T_CMP with sound parity ends DONE when the final value equals EXP and
in ERROR with cause 1 when not and TRAP is clear; T_ABORT with nothing in progress changes nothing. Each
UNIT_RESULT of CHK feeds one byte of every feed under way. Nothing else changes. (17_check_value_units.md R370,
17_check_value_units.md R373, 17_check_value_units.md R377, 06_function_units.md R136) -/
def Obligations.ChkWordsChangeTheirContext : Prop :=
  (∀ (c : CoreId) (m : Slot) (s : State),
    let k := getCore s c.val
    let i := k.ctx.sel.toNat
    let x := getChk k i
    let v := moved64 s c m
    let out := fun y : ChkCtx => Host.Outcome.next (setCore s c.val (wordOver { k with chk := put i y k.chk } (regsOf s c)))
    ownsChk c.val k x = true → (∀ e ∈ k.chk, e.2.feeding = []) →
    (Ends s c m 360 → exec (.tFeed8 c m) s = out { x with feeding := natLe 1 v.toNat, st := { st := 1, progress := x.st.progress } }) ∧
    (Ends s c m 361 → exec (.tFeed16 c m) s = out { x with feeding := natLe 2 v.toNat, st := { st := 1, progress := x.st.progress } }) ∧
    (Ends s c m 362 → exec (.tFeed32 c m) s = out { x with feeding := natLe 4 v.toNat, st := { st := 1, progress := x.st.progress } }) ∧
    (Ends s c m 363 → isS c.val = false → exec (.tInit c m) s = out { x with val := x.init, st := { st := 2 } }) ∧
    (Ends s c m 353 → exec (.chkValWrite c m) s = out { x with val := BitVec.ofNat 64 (v.toNat % 2 ^ x.width), st := { st := 2 } }) ∧
    (Ends s c m 354 → exec (.chkExpWrite c m) s = out { x with exp := v, par := parityOf v }) ∧
    (Ends s c m 364 → parityOf x.exp = x.par →
      (chkFinal x = x.exp.toNat % 2 ^ x.width → exec (.tCmp c m) s = out { x with st := { st := 2, progress := x.st.progress } }) ∧
      (chkFinal x ≠ x.exp.toNat % 2 ^ x.width → x.trap = false →
        exec (.tCmp c m) s = out { x with st := { st := 4, progress := x.st.progress }, cause := 1 })) ∧
    (Ends s c m 365 → exec (.tAbort c m) s = out x)) ∧
  (∀ (c : CoreId) (s : State), exec (.unitResult c 352) s =
    .next (setCore s c.val { getCore s c.val with chk := (getCore s c.val).chk.map (fun e => (e.1, feedStep e.2)) }))

/-- Barriers with nothing to wait for, T_JOBEND, stimulus ports and T_BREAK end their word with their effect. On a core
that is ready for the slot and whose streams are not blocked, a word that ends: T_FENCE_S and T_FENCE_L complete at
once, and T_FENCE_S sets a barrier before the stores of its cell that follow; with an empty store buffer T_FENCE_F
completes, and with no device access of the cell outstanding either T_FENCE_D does. T_JOBEND sends the close of the
task's open job with the current time. A stimulus word joins the core's queue, stamped, when trace and the port are
enabled for it at the granted level and fewer than 16 wait there, and is without effect while trace is off. T_BREAK
of a core whose cell does not halt on breakpoints leaves class BREAKPOINT (0x12) for the next word, its address the
word's. (11_memory_ordering.md R250, 14_time_and_deadlines.md R310, 20_debug_and_trace.md R436,
20_debug_and_trace.md R427) -/
def Obligations.FencesAndHintsEndTheirWord : Prop :=
  ∀ (c : CoreId) (m : Slot) (s : State),
    let k := getCore s c.val
    let ended := wordOver k (regsOf s c)
    (k.blocked = [] →
      (Ends s c m 385 → exec (.tFenceS c m) s = .next (setCore s c.val { ended with sfence := coreCell k :: k.sfence.filter (fun y => y ≠ coreCell k) })) ∧
      (Ends s c m 386 → exec (.tFenceL c m) s = .next (setCore s c.val ended)) ∧
      (Ends s c m 384 → k.sbuf = [] → exec (.tFenceF c m) s = .next (setCore s c.val ended)) ∧
      (Ends s c m 387 → k.sbuf = [] → deviceOut s c.val (coreCell k) = false → k.hold = none →
        exec (.tFenceD c m) s = .next (setCore s c.val ended))) ∧
    (Ends s c m 395 → ∀ t j, k.task = some t → (getTcb s t).job = some j →
      exec (.tJobend c m) s = .next (setCore { s with time := { s.time with closes := s.time.closes ++ [(j, s.now)] } } c.val ended)) ∧
    (∀ p : BitVec 6, Ends s c m (448 + p.toNat) →
      (bit (stored s .dbgTrcCtrl 0xF8000070088) 0 = false → exec (.trcStimulus c p m) s = .next (setCore s c.val ended)) ∧
      (bit (stored s .dbgTrcCtrl 0xF8000070088) 0 = true → s.dbg.auth = .opened → s.dbg.level = 3 → (isS c.val = true ∨ k.cell ≠ none) →
        bit (look 0 c.val s.dbg.stmMask) p.toNat = true → k.stim.length < 16 →
        exec (.trcStimulus c p m) s = .next (setCore s c.val { ended with stim := k.stim ++ [(p.toNat, moved64 s c m, s.now)] }))) ∧
    (Ends s c m 397 → (isS c.val = true ∨ ∀ x, k.cell = some x → breakHalt s x = false) →
      exec (.tBreak c m) s = .next (setCore s c.val { ended with
        exc := some { cls := 0x12, base := 1, addr := k.pc, pc := k.pc + 8, slotB := m.slotB, long := m.long } }))

/-- T_SRRD and T_SRWR reach the system registers of the current level, and PERM names any other number. On a core that
is ready for the slot, a word that ends: T_SRRD of a register that exists at the current level brings its value to
SYS.Q; T_SRWR of the translation roots and of the descriptor table bases writes their writable bits, and a write of
HT_ROOT2 or HT_ROOT3 drops the core's host translations of that level. A number that is unassigned or of a higher
level raises PERM (class 9), naming the number. A read of SYS.TIME moves the timebase and remembers it. Nothing
else changes. (06_function_units.md R139, 06_function_units.md R140, 08_privilege_and_exceptions.md R169,
10_cells_and_translation.md R233) -/
def Obligations.SystemRegisterWords : Prop :=
  ∀ (c : CoreId) (m : Slot) (s : State),
    let k := getCore s c.val
    let v := moved64 s c m
    let n := operand s c 368
    let ended := wordOver k (regsOf s c)
    let out := fun k' : Core => Host.Outcome.next (setCore s c.val k')
    (Ends s c m 388 → srOk c.val k.level.toNat v = true →
      exec (.tSrrd c m) s = out (wordOver k { regsOf s c with ports := put 370 ((srRead s c.val v.toNat).setWidth 256) (regsOf s c).ports })) ∧
    (Ends s c m 388 → srOk c.val k.level.toNat v = false → k.rdTxn = none →
      ∃ e : Exc, e.cls = 9 ∧ e.detail = v.setWidth 32 ∧ e.pc = k.pc ∧
        exec (.tSrrd c m) s = out { dropFailed k with ctx := regsOf s c, rdAns := none, rdInv := false, rdParts := [], walk := none, exc := some e }) ∧
    (Ends s c m 389 → srOk c.val k.level.toNat n = true →
      (n = 0x011 → exec (.tSrwr c m) s = out { ended with dtb1 := v &&& 0xFFFFFFFFFFFFE000 }) ∧
      (n = 0x012 → exec (.tSrwr c m) s = out { ended with dtb2 := v &&& 0xFFFFFFFFFFFFE000 }) ∧
      (n = 0x013 → exec (.tSrwr c m) s = out { ended with dtb3 := v &&& 0xFFFFFFFFFFFFE000 }) ∧
      (n = 0x020 → exec (.tSrwr c m) s = out { ended with s1Root := v &&& 0xFFFF0FFFFFFFF003 }) ∧
      (n = 0x030 → exec (.tSrwr c m) s = out { ended with cellSel := v.setWidth 12 })) ∧
    (Ends s c m 389 → srOk c.val k.level.toNat n = false → k.rdTxn = none →
      ∃ e : Exc, e.cls = 9 ∧ e.detail = n.setWidth 32 ∧ e.pc = k.pc ∧
        exec (.tSrwr c m) s = out { dropFailed k with ctx := regsOf s c, rdAns := none, rdInv := false, rdParts := [], walk := none, exc := some e }) ∧
    (Ends s c m 389 →
      (n ≠ 0x025 → srOk c.val k.level.toNat 0x024 = true → exec (.htRootWrite c m) s =
        out { ended with htRoot2 := v &&& 0x0FFFFFFFF003, tlb := k.tlb.filter (fun t => decide (t.host ≠ 2)) }) ∧
      (n = 0x025 → srOk c.val k.level.toNat 0x025 = true → exec (.htRootWrite c m) s =
        out { ended with htRoot3 := v &&& 0x0FFFFFFFF003, tlb := k.tlb.filter (fun t => decide (t.host ≠ 3)) })) ∧
    (∀ d : BitVec 9, isTrigger d.toNat = false → d.toNat ∉ [275, 352, 353, 354] → Straight k → s.flt.safe = false →
      SlotLegal c.val k { m with src := .port 371 } d.toNat → guardTrue k.ctx m.guard = true →
      exec (.sysTimeRead c m d) s = .next (setCore (slotDone s c m (written (regsOf s c) d.toNat (s.now.setWidth 256))) c.val
        { getCore (slotDone s c m (written (regsOf s c) d.toNat (s.now.setWidth 256))) c.val with lastTime := s.now }))

/-- TLB_INV, CELL_S2, CELL_CMD and IC_INV act on every TLB, the selected cell and the instruction cache. On a core that
is ready for the slot at level L2 or above, a word that ends. With an empty store buffer each of the six TLB_INV
rows drops from the TLBs of all cores every entry it names (VA and ASID of the running cell, its ASID, the whole
cell; IPA of the selected cell, the whole selected cell, these also from the IOTLB; the core's host regime) and the
word waits for the invalidation. CELL_S2_WRITE, of a cell not locked, sets its stage-2 root and drops its
translations everywhere. RESTART makes a FAULTED cell with no pending fault, block or slow domain ACTIVE, RESULT 0.
CELL_STOPPED makes an ACTIVE cell that is no safety cell FAULTED with fault 0x0405 and RESULT 0. IC_INV_ALL empties
the L1 instruction cache and IC_INV_LINE drops the line the address translates to, and fetched words are fetched
again. Memory is unchanged by all of them. (10_cells_and_translation.md R232, 10_cells_and_translation.md R233,
10_cells_and_translation.md R215, 10_cells_and_translation.md R216, 12_caches_and_onchip_memory.md R267) -/
def Obligations.TranslationAndCellRegisterWords : Prop :=
  ∀ (c : CoreId) (m : Slot) (s : State), Ends s c m 389 → 2 ≤ (getCore s c.val).level.toNat → isS c.val = false →
    let k := getCore s c.val
    let v := moved64 s c m
    let sel := k.cellSel.toNat
    let cell := k.cell.getD 4096
    let page := (v.extractLsb' 12 36).toNat * 4096
    let asid := (v.extractLsb' 48 16).toNat
    let drops := fun (i : Instr) (io : Bool) (p : TlbEntry → Bool) => ∃ t, exec i s = .next t ∧
      (getCore t c.val).mode = .waitLong ∧ (getCore t c.val).invWait = true ∧ t.mem = s.mem ∧
      (∀ j e, e ∈ (getCore t j).tlb ↔ e ∈ (getCore s j).tlb ∧ p e = false) ∧
      t.iommu.iotlb = if io then s.iommu.iotlb.filter (fun e => !p e) else s.iommu.iotlb
    (k.sbuf = [] → k.invWait = false →
      drops (.tlbInvVa c m) false (fun e => ofCell cell e && e.asid = asid && covers e.va e.log2 page) ∧
      drops (.tlbInvAsid c m) false (fun e => ofCell cell e && e.asid = asid) ∧
      drops (.tlbInvCellL1 c m) false (ofCell cell) ∧
      drops (.tlbInvIpa c m) true (fun e => ofCell sel e && covers e.ipa e.log2 page) ∧
      drops (.tlbInvCellL2 c m) true (ofCell sel) ∧
      drops (.tlbInvHost c m) false (fun e => e.host = k.level.toNat)) ∧
    (s2Locked s sel = false → ∃ t, exec (.cellS2Write c m) s = .next t ∧ (getCell t sel).s2 = v &&& 0x0FFFFFFFF003 ∧
      (∀ j e, e ∈ (getCore t j).tlb ↔ e ∈ (getCore s j).tlb ∧ ofCell sel e = false) ∧ t.mem = s.mem ∧ (getCore t c.val).pc = k.pc + 8) ∧
    (cellState s sel = .faulted → kPending s sel = false → cellBlocked s sel = false → cellBelowFloor s sel = false →
      ∃ t, exec (.restart c m) s = .next t ∧ cellState t sel = .active ∧ (getCore t c.val).cellResult = 0 ∧ t.mem = s.mem) ∧
    (cellState s sel = .active → (s.comp.isSealed && isSafety s.comp.live sel) = false →
      ∃ t, exec (.cellStopped c m) s = .next t ∧ cellState t sel = .faulted ∧ (getCore t c.val).cellResult = 0 ∧ t.mem = s.mem ∧
        ∃ f ∈ t.flt.raised, f.code = 0x0405 ∧ f.cell = some (BitVec.ofNat 12 sel)) ∧
    (k.dq = [] → exec (.icInvAll c m) s = .next (setCore s c.val { wordOver k (regsOf s c) with l1i := [], fq := [], group := none })) ∧
    (k.dq = [] → ∀ pa mt, probe s c.val k.level.toNat ((v.extractLsb' 6 42).toNat * 64) .load = .ok (pa, mt) →
      exec (.icInvLine c m) s = .next (setCore s c.val { wordOver k (regsOf s c) with l1i := drop' (pa / 64) k.l1i, fq := [], group := none }))

/-- T_RETURN restores the saved context of the level, gates raise their class, T_WAIT consumes or waits. On a core that
is ready for the slot, a word that ends. T_RETURN with a valid, aligned save set that names no higher level, of an
S-core, of a core with a task or to a level above L1, takes PC, LEVEL, the repeat flag, SP and multiple-transfer
progress from it, makes it invalid, closes the window and squashes what was decoded or predicted; to L1 or L0 on an
A-core without a task and with none READY it restores PC and LEVEL and the core is free (the model's choice, log
entry 16); one that fails its checks leaves the word unperformed with ILLEGAL_RETURN (0x0E), addressed by the word.
T_GATE1, 2 and 3 complete and leave the class that bits 7:0 of v name, or 0x13, 0x14, 0x15 when they are below
0x40, for entry from base level 1, 2, 3 with v as its address and the next word to return to. T_WAIT of a RUNNING
task with a pending event consumes one. (08_privilege_and_exceptions.md R180, 08_privilege_and_exceptions.md R182,
09_contexts_and_scheduler.md R205) -/
def Obligations.ReturnsGatesAndWaits : Prop :=
  ∀ (c : CoreId) (m : Slot) (s : State),
    let k := getCore s c.val
    let ended := wordOver k (regsOf s c)
    let l := k.level.toNat
    let x := saveSet k l
    let spr : Nat := if isS c.val then 15 else 63
    (Ends s c m 390 → x.valid = true → fld x.status 1 0 ≤ l → x.pc.toNat % 8 = 0 →
      (isS c.val = true ∨ k.task ≠ none ∨ 1 < fld x.status 1 0) →
      let rep : Bool := x.status.getLsbD 3
      let done : Bool := rep && decide (k.ctx.rc = 0)
      ∃ t k', exec (.tReturn c m) s = .next t ∧ t = setCore s c.val k' ∧
        k'.pc = (if done then x.pc + 8 else x.pc) ∧ k'.level = BitVec.ofNat 2 (fld x.status 1 0) ∧ k'.window = 0 ∧ k'.mode = .run ∧ k'.exc = none ∧ k'.pre = none ∧
        k'.dq = [] ∧ k'.spec = [] ∧ k'.itt = [] ∧ k'.hist = [] ∧ k'.fetchPc = k'.pc ∧
        k'.ctx = { regsOf s c with
          g := put spr x.sp (regsOf s c).g, dirty := (regsOf s c).dirty ||| (if isS c.val then 1 else 8), rep := rep && !done
          mprog := if x.mprog.getLsbD 16 then some (x.mprog.setWidth 16) else none } ∧
        (∀ j, 1 ≤ j → j ≤ 3 → saveSet k' j = if j = l ∨ (l = 0 ∧ j = 3) then { x with valid := false } else saveSet k j)) ∧
    (Ends s c m 390 → x.valid = true → fld x.status 1 0 ≤ 1 → fld x.status 1 0 ≤ l → x.pc.toNat % 8 = 0 →
      isS c.val = false → k.task = none → k.preempt = none → s.sched.ready = [] →
      ∃ k', exec (.tReturn c m) s = .next (setCore s c.val k') ∧ k'.mode = .free ∧ k'.level = BitVec.ofNat 2 (fld x.status 1 0) ∧
        k'.pc = (if x.status.getLsbD 3 ∧ k.ctx.rc = 0 then x.pc + 8 else x.pc) ∧ k'.task = none) ∧
    (Ends s c m 390 → (x.valid = false ∨ l < fld x.status 1 0 ∨ x.pc.toNat % 8 ≠ 0) → k.rdTxn = none → Raises (.tReturn c m) s c 0x0E k.pc) ∧
    (∀ i : Fin 3, Ends s c m (391 + i.val) →
      let v := moved64 s c m
      exec (.tGate c i m) s = .next (setCore s c.val { ended with
        exc := some { cls := if v.toNat % 256 < 0x40 then 0x13 + i.val else v.toNat % 256, base := i.val + 1, addr := v, pc := k.pc + 8, slotB := m.slotB, long := m.long } })) ∧
    (∀ t, Ends s c m 396 → k.task = some t → (getTcb s t).state = .running → k.discard = false → 0 < (getTcb s t).pending →
      exec (.tWait c m) s = .next (updTcb (setCore s c.val ended) t (fun x => { x with pending := x.pending - 1 })))

/-- A core whose word, with the effect `a`, waits for a long operation (R111). -/
def waitingOn (s : State) (c : CoreId) (m : Slot) (a : After) : State :=
  setCore s c.val { openCore (getCore s c.val) with ctx := { regsOf s c with after := [(m.slotB, m.long, a)] }, mode := .waitLong }
/-- What an explicit save of a half writes into node `n` at `a`: PC, LEVEL and REP of the save set of the level, or its SP as g63 (R199). -/
def savedLines (s : State) (c : CoreId) (hi : Bool) (a : Nat) : List (Nat × List Byte) :=
  let k := getCore s c.val
  let x := saveSet k k.level.toNat
  saveLines k (regsOf s c) hi a (k.cell.getD 0) (k.task.getD 0) true (if hi ∨ k.nodeHi ≤ 1 then 0 else k.nodeHi) (fld x.status 1 0) x.pc.toNat
    (x.status.getLsbD 3) k.hold (if hi then some x.sp else none)
/-- The rows whose words wait, with the condition under which they are performed. -/
def waits (mk : CoreId → Slot → Instr) (port : Nat) (ok : State → CoreId → Slot → Prop) (f : State → CoreId → Slot → After) : Prop :=
  ∀ (c : CoreId) (m : Slot) (s : State), Ends s c m port → ok s c m → exec (mk c m) s = .next (waitingOn s c m (f s c m))

/-- Words of half-context moves, store and load multiple and T_SEAL wait for their unit; bad operands raise. On a core
that is ready for the slot, a word that ends with a save or load of a half-context, a store or load multiple or a
seal whose operand passes its checks changes nothing but that it waits, with its operation, for the unit's result:
a save names a node of the running cell's pool, or 0 with a node free; a load names a node whose lines are sound
and its own; a multiple has an aligned base; a seal names a level from 1 to the current one (3 on an S-core). A
save with number 0 and an empty pool raises SAVE_EXHAUSTED (0x0D), a number outside the pool PERM (9) with CTX.O, a
misaligned multiple ALIGN (8), and a seal of another level PERM. (06_function_units.md R111,
09_contexts_and_scheduler.md R200, 09_contexts_and_scheduler.md R201, 09_contexts_and_scheduler.md R203,
08_privilege_and_exceptions.md R172) -/
def Obligations.LongWordsWaitForTheirUnit : Prop :=
  waits .tSaveLo 342 (fun s c m => ctxSaveExc s c.val false (operand s c 337) m.slotB m.long = none) (fun s c _ => .ctxSave false (operand s c 337)) ∧
  waits .tSaveHi 343 (fun s c m => ctxSaveExc s c.val true (operand s c 337) m.slotB m.long = none) (fun s c _ => .ctxSave true (operand s c 337)) ∧
  waits .tLoadLo 344 (fun s c m => ctxLoadExc s c.val false ((moved64 s c m).getLsbD 0) (operand s c 337) m.slotB m.long = none)
    (fun s c m => .ctxLoad false ((moved64 s c m).getLsbD 0) (operand s c 337)) ∧
  waits .tLoadHi 345 (fun s c m => ctxLoadExc s c.val true ((moved64 s c m).getLsbD 0) (operand s c 337) m.slotB m.long = none)
    (fun s c m => .ctxLoad true ((moved64 s c m).getLsbD 0) (operand s c 337)) ∧
  waits .tStm 346 (fun s c _ => (operand s c 337).toNat % 8 = 0) (fun s c m => .multi false (operand s c 337) ((moved64 s c m).setWidth 16)) ∧
  waits .tLdm 347 (fun s c _ => (operand s c 337).toNat % 8 = 0) (fun s c m => .multi true (operand s c 337) ((moved64 s c m).setWidth 16)) ∧
  waits .tSeal 394 (fun s c m => 1 ≤ (moved64 s c m).toNat ∧ (moved64 s c m).toNat ≤ (getCore s c.val).level.toNat ∧
      (isS c.val = false ∨ moved64 s c m = 3)) (fun s c m => .seal (moved64 s c m)) ∧
  (∀ (c : CoreId) (m : Slot) (s : State), (getCore s c.val).rdTxn = none →
    let o := operand s c 337
    let cell := (getCore s c.val).cell.getD 0
    let pc := (getCore s c.val).pc
    (Ends s c m 342 → o.toNat % 65536 = 0 → poolHead s cell false = none → Raises (.tSaveLo c m) s c 0x0D pc) ∧
    (Ends s c m 343 → o.toNat % 65536 = 0 → poolHead s cell true = none → Raises (.tSaveHi c m) s c 0x0D pc) ∧
    (Ends s c m 342 → poolCount s.comp.live cell false < o.toNat % 65536 → Raises (.tSaveLo c m) s c 9 o) ∧
    (Ends s c m 345 → (o.toNat % 65536 = 0 ∨ poolCount s.comp.live cell true < o.toNat % 65536) → Raises (.tLoadHi c m) s c 9 o) ∧
    (Ends s c m 346 → o.toNat % 8 ≠ 0 → Raises (.tStm c m) s c 8 o) ∧
    (Ends s c m 347 → o.toNat % 8 ≠ 0 → Raises (.tLdm c m) s c 8 o) ∧
    (Ends s c m 394 → (moved64 s c m = 0 ∨ 4 ≤ (moved64 s c m).toNat ∨ (getCore s c.val).level.toNat < (moved64 s c m).toNat) → Raises (.tSeal c m) s c 9 pc))

/-- A unit's result performs the save, transfer or seal that its word waits for. For a word that waits as its trigger
left it, with no restore pending. UNIT_RESULT of CTX performs a save into a named node of the cell's pool: the
node's lines of that half set out in order as writes of the core on stream 15, SAVING is set, memory is unchanged
until they are performed, the node is the half's source, CTX.Q takes its number and the core goes on with the next
word. With no tag error planted, a load that is not eager makes the node the source, leaves the groups that its
INFO says valid pending, and puts the saved PC into the save set of the level (lower half) or loads GD at once but
for g63 (upper half). For a multiple, each result performs the access of the lowest register left, at the base plus
8 for each lower register named: a store of an accepted address joins the store buffer, and the word waits on while
registers are left, remembering those done. UNIT_RESULT of SYS performs a seal of a table whose descriptors all
pass and fit the store: the level's table is the valid descriptors in order and SYS.Q reads 0; otherwise tables are
unchanged and SYS.Q names the lowest failing INDEX and its CODE. (09_contexts_and_scheduler.md R199,
09_contexts_and_scheduler.md R191, 09_contexts_and_scheduler.md R200, 09_contexts_and_scheduler.md R203,
08_privilege_and_exceptions.md R171, 08_privilege_and_exceptions.md R172) -/
def Obligations.UnitResultsCompleteWaitingWords : Prop :=
  ∀ (c : CoreId) (m : Slot) (s : State), Straight (getCore s c.val) → s.flt.safe = false → m.pos ≠ .first →
    let k := getCore s c.val
    (∀ hi a o, k.hold = none → ctxNum o ≠ 0 → ctxNode s k hi (ctxNum o) = some a →
      ∃ t k', exec (.unitResult c 336) (waitingOn s c m (.ctxSave hi o)) = .next t ∧ k' = getCore t c.val ∧ k'.pc = k.pc + 8 ∧ k'.mode = .run ∧
        t.mem = s.mem ∧ t.fab.waiting.take s.fab.waiting.length = s.fab.waiting ∧ (getTcb t (savingTcb k)).saving = true ∧
        (t.fab.waiting.drop s.fab.waiting.length).map (fun x => (x.addr, x.data)) = savedLines s c hi a ∧
        (∀ x ∈ t.fab.waiting.drop s.fab.waiting.length, x.init = coreInit c.val ∧ x.stream = 15 ∧ x.kind = .write) ∧
        (if hi then k'.nodeHi else k'.nodeLo) = a ∧ (if hi then k'.nodeLo else k'.nodeHi) = (if hi then k.nodeLo else k.nodeHi) ∧
        k'.ctx.g = k.ctx.g ∧ k'.ctx.v = k.ctx.v ∧ look 0 338 k'.ctx.ports = BitVec.ofNat 256 (ctxNum o)) ∧
    (∀ o mask i rest va pa mt, multiLeft mask (k.ctx.mprog.getD 0) = i :: rest → rest ≠ [] → k.blocked = [] →
      let w := waitingOn s c m (.multi false o mask)
      (∃ ps, checkAcc w c.val (multiAcc k false o mask i m.slotB m.long) false 0 = .ok ps) →
      checkAcc w c.val (multiAcc k false o mask i m.slotB m.long) true 0 = .ok [(va, 8, pa, mt)] → k.sbuf.length < sbSize c.val →
      ∃ t k', exec (.unitResult c 336) w = .next t ∧ k' = getCore t c.val ∧ t.mem = s.mem ∧ k'.mode = .waitLong ∧ k'.pc = k.pc ∧
        k'.ctx.mprog = some (k.ctx.mprog.getD 0 ||| BitVec.ofNat 16 (2 ^ i)) ∧
        k'.sbuf = k.sbuf.map (fun e => { e with fresh := false }) ++
          [{ entryOf s c m va pa mt (natLe 8 (look 0 i k.ctx.g).toNat) false with fresh := false, noAlloc := false }]) ∧
    (∀ hi o a, isS c.val = false → a ≠ 0 → s.cache.badTags = [] → s.cache.badL2Tags = [] → ctxLoadExc s c.val hi false o m.slotB m.long = none → ctxNode s k hi (ctxNum o) = some a →
      loadEager s k false = false → ctxLoadWaits s c.val hi o = false →
      ∃ t k', exec (.unitResult c 336) (waitingOn s c m (.ctxLoad hi false o)) = .next t ∧ k' = getCore t c.val ∧ t.mem = s.mem ∧
        k'.pc = k.pc + 8 ∧ k'.mode = .run ∧ (if hi then k'.nodeHi else k'.nodeLo) = a ∧
        k'.ctx.pendGroups = BitVec.ofNat 6 (rdNat s (a + 8) 8 / 2 ^ 32 % 64 &&& (if hi then 0x34 else 3)) ∧
        (saveSet k' k.level.toNat).valid = true ∧ (hi = false → (saveSet k' k.level.toNat).pc = BitVec.ofNat 64 (rdNat s (a + 0x20) 8)) ∧
        (hi = true → look 0 63 k'.ctx.g = look 0 63 k.ctx.g)) ∧
    (∀ v, 1 ≤ v.toNat → v.toNat ≤ k.level.toNat → v.toNat ≤ 3 → (isS c.val = false ∨ v = 3) →
      let l := v.toNat
      let w := waitingOn s c m (.seal v)
      let r := sealTable s c.val l
      ∃ t, exec (.unitResult c 368) w = .next t ∧ (getCore t c.val).pc = k.pc + 8 ∧ t.mem = s.mem ∧
        look 0 370 (getCore t c.val).ctx.ports = r.2.setWidth 256 ∧ (∀ j cls, descOf t c.val j cls = descOf r.1 c.val j cls))

/-- A seal takes every valid descriptor, or names the lowest failing index and leaves all tables. For a table base that
is a multiple of 8,192 whose two pages translate for a load: when none of the 256 descriptors fails a check and the
valid ones fit the store, sealing level l gives the level, for each index, the descriptor in memory when it is
valid and none when it is not, and answers 0; when descriptor i is the lowest that fails, with code r, and the
valid ones before it fit, it answers r plus 256 times i and changes nothing; a base that is not aligned answers 1.
(08_privilege_and_exceptions.md R171, 08_privilege_and_exceptions.md R172, 08_privilege_and_exceptions.md R488) -/
def Obligations.SealChecksEveryDescriptor : Prop :=
  ∀ (s : State) (c : CoreId) (l : Nat), 1 ≤ l → l ≤ 3 → (isS c.val = true → l = 3) →
    let k := getCore s c.val
    let b := (dtbOf k l).toNat
    let valid := fun (n : Nat) (at' : Nat → Nat) => ((List.range n).filter (fun i => (descAt s (at' i)).isSome)).length
    let room := 8192 - storeUsed s c.val + ((tableOf s c.val l).map List.length).getD 0
    (b % 8192 ≠ 0 → sealTable s c.val l = (s, 1)) ∧
    (∀ p0 m0 p1 m1, b % 8192 = 0 → probe s c.val l b .load = .ok (p0, m0) → probe s c.val l (b + 4096) .load = .ok (p1, m1) →
      let at' := fun i => (if i < 128 then p0 else p1) + 32 * (i % 128)
      ((∀ i, i < 256 → descFails s c.val l i (at' i) = none) → valid 256 at' ≤ room → (l = 1 → k.cell ≠ none) →
        (sealTable s c.val l).2 = 0 ∧
        ∀ i, descOf (sealTable s c.val l).1 c.val l i = if i < 256 then descAt s (at' i) else none) ∧
      (∀ i r, i < 256 → descFails s c.val l i (at' i) = some r → (∀ j, j < i → descFails s c.val l j (at' j) = none) → valid i at' ≤ room →
        sealTable s c.val l = (s, BitVec.ofNat 64 (r + 256 * i))))

/-- A result in flight reaches Q, QH, its predicate, the sticky flags and the trap marks. UNIT_RESULT of a unit other
than CHK on a core between words whose oldest result of that unit is f: Q takes its value, QH of MUL and DIV its
second value, the predicate that PTARGET names its bit 0, FPU.CSR its flags as sticky bits; flags that trap mark Q
and the predicate, others clear the marks; a VEC result sets VA dirty. A word that waits for a division or square
root completes with it: its ports take the result and the core goes on with the next word. With nothing in flight
nothing changes. (05_sotaivo_isa_model.md R85, 06_function_units.md R117, 06_function_units.md R118,
06_function_units.md R126, 06_function_units.md R127) -/
def Obligations.UnitResultsReachTheirPorts : Prop :=
  (∀ (c : CoreId) (s : State) (u : BitVec 9) (f : Flight),
    let k := getCore s c.val
    let qa := u.toNat + 2
    let tr := f.flags &&& f.trap
    u ≠ 352 → u ≠ 224 → k.mode = .run → k.pre = none → f.unit = u.toNat → f.poison = none → f.pred < 8 → k.ctx.pendGroups = 0 →
    k.ctx.flights.find? (fun g => g.unit = u.toNat) = some f →
    let p1 := put qa f.q k.ctx.ports
    let drop := fun (a : Nat) (t : Tbl (BitVec 5)) => t.filter (fun e => e.1 ≠ a)
    ∃ x : Ctx, exec (.unitResult c u) s = .next (setCore s c.val { k with ctx := x }) ∧
      x.flights = k.ctx.flights.erase f ∧ x.g = k.ctx.g ∧ x.v = k.ctx.v ∧ x.rc = k.ctx.rc ∧ x.link = k.ctx.link ∧
      x.ports = (if u = 192 ∨ u = 208 then put (u.toNat + 3) (f.qh.setWidth 256) p1 else p1) ∧
      x.p = (if f.pred = 0 then k.ctx.p else (k.ctx.p &&& ~~~(BitVec.ofNat 8 (2 ^ f.pred))) ||| (if f.q.getLsbD 0 then BitVec.ofNat 8 (2 ^ f.pred) else 0)) ∧
      x.csr = k.ctx.csr ||| (f.flags.setWidth 64 <<< 8) ∧
      x.dirty = (if u = 304 then k.ctx.dirty ||| 16 else k.ctx.dirty) ∧
      x.traps = (if tr = 0 then drop qa (if f.pred = 0 then k.ctx.traps else drop (96 + f.pred) k.ctx.traps)
        else put qa tr (if f.pred = 0 then k.ctx.traps else put (96 + f.pred) tr k.ctx.traps))) ∧
  (∀ (c : CoreId) (s : State) (u : BitVec 9), u ≠ 352 → (getCore s c.val).mode = .run → (getCore s c.val).pre = none →
    (∀ f ∈ (getCore s c.val).ctx.flights, f.unit ≠ u.toNat) → exec (.unitResult c u) s = .next (setCore s c.val (getCore s c.val))) ∧
  (∀ (c : CoreId) (m : Slot) (s : State) (f : Flight), Straight (getCore s c.val) → s.flt.safe = false → m.pos ≠ .first →
    f.unit = 208 ∨ f.unit = 272 → f.long = true → f.pred = 0 → f.flags = 0 → f.poison = none →
    exec (.unitResult c (BitVec.ofNat 9 f.unit)) (slotLong s c m { regsOf s c with flights := [f] }) =
      .next (setCore s c.val (wordOver (getCore s c.val) { regsOf s c with
        ports := if f.unit = 208 then put 211 (f.qh.setWidth 256) (put 210 f.q (regsOf s c).ports) else put 274 f.q (regsOf s c).ports })))

/-- What WORD_DECODE makes of a fetch group whose bytes `bs` were read at `pa` in the state `s1`: its first word is checked and
queued with its prediction or its exception, its other word stays fetched (R98, R104, R144). -/
def decodesFrom (s s1 : State) (c : CoreId) (pa : Nat) (bs : List Byte) : Prop :=
  let k := getCore s1 c.val
  let w := BitVec.ofNat 64 (leNat (bs.take 8))
  let rest := (groupWords s1 pa k.pc bs).drop 1
  let checked := decodeExc (isS c.val) k.level.toNat (k.decRep || k.ctx.rep) w k.pc
  (checked = none → (∀ x ∈ slotsOf w, branchTrig x.dst = false ∧ x.dst ≠ 341 ∧ x.dst ≠ 340 ∧ x.dst ≠ 232) →
    exec (.wordDecode c) s = .next (setCore s1 c.val { k with
      dq := [{ addr := k.pc, word := w, pred := some (k.pc + 8) }], fq := rest, fetchPc := k.pc + 8, decRep := false })) ∧
  (∀ e, checked = some e → exec (.wordDecode c) s = .next (setCore s1 c.val { k with
      dq := [{ addr := k.pc, word := w, exc := some e }], fq := rest, fetchPc := k.pc, decRep := false }))

/-- WORD_DECODE fetches the next group, checks its word and queues it with its prediction or its exception. On a core
that runs with empty queues and no exception, WORD_DECODE translates the next word's address. A refused translation
queues INSTR_ACCESS or INSTR_XLATE for it; a line that L1 lacks starts a fill, of a line that the cluster's L2
lacks by a fetch of the line on stream 0; of the aligned 16-byte group read from a line in L1, which becomes the
most recently used, or from boot ROM or the pair's SRAM, the first word, if its bytes are sound, is checked: one
that passes the decode checks and holds no branch, loop, repeat or immediate-offset load is queued with the next
address predicted; one that fails them is queued with its exception; the other word stays fetched. A short word
with bit 0 set is ILLEGAL_WORD with REASON 1, whatever else it holds. ICACHE_FILL_ARRIVAL on an S-core installs the
64 bytes of the line and ends the fill; SPEC_FILL_ARRIVAL marks its line's answered entries as arrived. Nothing
else changes. (05_sotaivo_isa_model.md R98, 05_sotaivo_isa_model.md R104, 07_pipeline_and_branches.md R144,
07_pipeline_and_branches.md R145, 07_pipeline_and_branches.md R162) -/
def Obligations.WordsAreFetchedAndChecked : Prop :=
  (∀ (c : CoreId) (s : State) (pa mt : Nat),
    let k := getCore s c.val
    k.mode = .run → k.exc = none → k.dq = [] → k.fq = [] → k.pre = none →
    (∀ f, lookup s c.val k.level.toNat k.pc.toNat .fetch false = .fault f →
      ∃ e : Exc, e.cls = (if f.perm then 5 else 6) ∧ e.addr = k.pc ∧ e.pc = k.pc ∧
        exec (.wordDecode c) s = .next (setCore s c.val { k with dq := [{ addr := k.pc, word := 0, exc := some e }], fetchPc := k.pc, decRep := false })) ∧
    (lookup s c.val k.level.toNat k.pc.toNat .fetch false = .ok pa mt → pa % 16 ≤ 8 →
      (2 ≤ effType c.val pa mt → (∀ e ∈ k.l1i, e.1 ≠ pa / 64) → k.spec = [] → k.group = none → (∀ f ∈ k.fills, f.line ≠ pa / 64) →
        let f : Fill := { line := pa / 64, fetch := true, cell := coreCell k, na := !(allocL1 s c.val (coreCell k) pa mt false) }
        ((isS c.val = true ∨ (f.na = false ∧ hasL2 s (cluOf c.val) (pa / 64) = true)) →
          exec (.wordDecode c) s = .next (setCore s c.val { k with fills := k.fills ++ [f] })) ∧
        (isS c.val = false → (f.na = true ∨ hasL2 s (cluOf c.val) (pa / 64) = false) →
          ∃ x : Txn, x.init = coreInit c.val ∧ x.stream = 0 ∧ x.kind = .fetch ∧ x.addr = 64 * (pa / 64) ∧ x.size = 64 ∧ x.cell = coreCell k ∧
            exec (.wordDecode c) s = .next (setCore { s with fab := { s.fab with waiting := s.fab.waiting ++ [x], nextId := s.fab.nextId + 1 } } c.val
              { k with fills := k.fills ++ [{ f with txn := some s.fab.nextId }] }))) ∧
      (∀ e, 2 ≤ effType c.val pa mt → k.l1i.find? (fun x => x.1 = pa / 64) = some e → e.2.length = 64 → poisonedAt s pa 8 = false →
        decodesFrom s (setCore s c.val { k with l1i := e :: k.l1i.filter (fun x => x.1 ≠ pa / 64) }) c pa ((e.2.drop (pa % 64)).take (16 - pa % 16))) ∧
      (effType c.val pa mt < 2 → (regionOf pa = .rom ∨ ∃ n, regionOf pa = .sram n) → answers s c.val pa = true → poisonedAt s pa 8 = false →
        decodesFrom s s c pa (busBytes s pa (16 - pa % 16))))) ∧
  (∀ (small : Bool) (lvl : Nat) (rep : Bool) (w pc : Word), w.getLsbD 63 = true → w.getLsbD 0 = true →
    decodeExc small lvl rep w pc = some { cls := 1, base := 1, fields := 1, addr := pc, pc := pc }) ∧
  (∀ (c : CoreId) (s : State) (line : Nat) (x : Option CellId), isS c.val = true → (getCore s c.val).fills = [{ line := line, fetch := true, cell := x }] →
    (getCore s c.val).l1i = [] →
    exec (.icacheFillArrival c) s = .next (setCore s c.val { getCore s c.val with fills := [], l1i := [(line, rdBytes s (64 * line) 64)] })) ∧
  (∀ (c : CoreId) (line : BitVec 38) (s : State), (∀ l ∈ (getCore s c.val).spec, l.keep = false) →
    exec (.specFillArrival c line) s = .next (setCore s c.val { getCore s c.val with
      spec := (getCore s c.val).spec.map (fun l => if l.line = line.toNat ∧ l.txn = none then { l with arrived := true } else l) }))

/-- Core `c` after entry by the exception `e` to level `l` through descriptor `d` (R178, R179): what it saves, where it goes on. -/
def entered (s : State) (c : CoreId) (e : Exc) (l : Nat) (d : Desc) (passed : Bool) (k' : Core) : Prop :=
  let k := getCore s c.val
  let spr : Nat := if isS c.val then 15 else 63
  let set := saveSet k' l
  k'.pc = d.handler ∧ k'.level = BitVec.ofNat 2 l ∧ k'.mode = .run ∧ k'.exc = none ∧ k'.pre = none ∧ k'.resv = none ∧ k'.dq = [] ∧
  k'.spec = k.spec.filter (fun y => y.keep) ∧ k'.itt = [] ∧ k'.hist = [] ∧
  look 0 spr k'.ctx.g = d.sp ∧ (∀ r, r ≠ spr → look 0 r k'.ctx.g = look 0 r k.ctx.g) ∧ k'.ctx.v = k.ctx.v ∧ k'.ctx.ports = k.ctx.ports ∧
  k'.ctx.p = k.ctx.p ∧ k'.ctx.rc = k.ctx.rc ∧ k'.ctx.link = k.ctx.link ∧ k'.ctx.csr = k.ctx.csr ∧ k'.ctx.rep = false ∧
  set.valid = true ∧ set.pc = e.pc ∧ set.cls = BitVec.ofNat 64 e.cls ∧ set.addr = e.addr ∧ set.sp = look 0 spr k.ctx.g ∧
  set.synd.toNat = (if e.slotB then 1 else 0) + (if e.long then 2 else 0) + (if passed then 16 else 0) + e.fields.toNat * 256 + e.detail.toNat * 2 ^ 32 ∧
  set.status.toNat % 16 = k.level.toNat + (if k.window = 0 then 4 else 0) + (if k.ctx.rep then 8 else 0) ∧
  set.status.toNat / 65536 = (if isS c.val then 0 else k.cell.getD 0 % 4096) ∧
  (∀ j, 1 ≤ j → j ≤ 3 → j ≠ l → saveSet k' j = saveSet k j)

/-- Entry saves PC, status, class, syndrome, address and SP, and goes on at the handler at its level. On a core that
runs with nothing in flight and no restore pending: EXCEPTION_ENTRY delivers the pending exception at the higher of
its base and the current level when that level has a valid descriptor and a free save set; without a descriptor
there, at the level above if that one has both, with PASSED set; with neither at any level the core locks up and
LOCKUP (0x0301) is raised. Entry fills the level's save set, takes handler and SP from the descriptor, clears the
reservation and the repeat flag, squashes what was decoded or predicted and changes no other register, port or save
set. INTERRUPT_TAKEN does the same for the one class held at the core once the window is closed, on a core whose
cluster takes steps, at the lowest level from its base that has a descriptor, and the class is no longer held.
NIW_WINDOW_END closes the window. Memory is unchanged. (08_privilege_and_exceptions.md R174,
08_privilege_and_exceptions.md R175, 08_privilege_and_exceptions.md R176, 08_privilege_and_exceptions.md R177,
08_privilege_and_exceptions.md R178, 08_privilege_and_exceptions.md R179, 08_privilege_and_exceptions.md R186) -/
def Obligations.ExceptionEntrySavesAndGoesToTheHandler : Prop :=
  (∀ (c : CoreId) (s : State) (e : Exc),
    let k := getCore s c.val
    let t := max (baseOn c.val e.base) k.level.toNat
    k.mode = .run → k.pre = none → k.exc = some e → k.ctx.flights = [] → k.ctx.pendGroups = 0 → k.chk = [] → k.stepOne = false → e.sameLevel = false → 1 ≤ t →
    (∀ d, t ≤ 3 → descOf s c.val t e.cls = some d → (saveSet k t).valid = false →
      ∃ k', exec (.exceptionEntry c) s = .next (setCore s c.val k') ∧ entered s c e t d false k') ∧
    (∀ d, t ≤ 2 → descOf s c.val t e.cls = none → descOf s c.val (t + 1) e.cls = some d → (saveSet k (t + 1)).valid = false →
      ∃ k', exec (.exceptionEntry c) s = .next (setCore s c.val k') ∧ entered s c e (t + 1) d true k') ∧
    ((∀ l, t ≤ l → l ≤ 3 → descOf s c.val l e.cls = none ∨ (saveSet k l).valid = true) →
      ∃ u, exec (.exceptionEntry c) s = .next u ∧ getCore u c.val = { k with mode := .locked, resv := none, exc := none, pre := none, stopReq := false } ∧
        u.mem = s.mem ∧ ∃ f, u.flt.raised = s.flt.raised ++ [f] ∧ f.code = 0x0301 ∧ f.cls = (if isS c.val then 3 else 2))) ∧
  (∀ (c : CoreId) (s : State) (i : Irq) (l : Nat) (d : Desc),
    let k := getCore s c.val
    k.mode = .run → k.pre = none → k.exc = none → k.dq = [] → k.rdTxn = none → k.stepOne = false → k.invWait = false → k.window = 0 → k.ctx.flights = [] →
    k.ctx.pendGroups = 0 → k.chk = [] → (isS c.val = true ∨ domainSteps s (cluOf c.val) = true) → heldIrqs s c.val = [i] → k.irqs = [i] → i.cls ≠ 0x12 →
    max (baseOn c.val i.base) k.level.toNat ≤ l → 1 ≤ l → l ≤ 3 → descOf s c.val l i.cls = some d →
    (∀ j, 1 ≤ j → baseOn c.val i.base ≤ j → j < l → descOf s c.val j i.cls = none) → (saveSet k l).valid = false →
    ∃ k', exec (.interruptTaken c) s = .next (setCore s c.val k') ∧ k'.irqs = [] ∧
      entered s c { cls := i.cls, base := i.base, detail := i.detail, pc := k.pc } l d (decide (baseOn c.val i.base < l)) k') ∧
  (∀ (c : CoreId) (s : State), (getCore s c.val).mode = .run → exec (.niwWindowEnd c) s = .next (setCore s c.val { getCore s c.val with window := 0 }))

/-- Preemption saves the task and frees its core; a switch brings a fresh task to its entry. On a cluster that takes
steps: TASK_SWITCH_IN of a task never saved, whose context is on no other core, on a free A-core chosen for it,
gives the core an empty context at the task's entry, at L0 in its cell, running. PREEMPTION_TAKEN of a running task
at L0 or L1 that can be saved, with no interrupt held, leaves it READY, the core without it, and its save writes on
the way; in a no-interrupt window nothing happens. GROUP_LOAD_DONE of a pending group of a task whose lines the
fabric answers OK loads its registers from the node and ends the pending. SAVING_CLEAR ends SAVING once every save
write and awaited answer has come. CORE_STOP stops a core that a core halt asked to stop, its word unperformed.
None of the five stores anything. (09_contexts_and_scheduler.md R194, 09_contexts_and_scheduler.md R195,
09_contexts_and_scheduler.md R202, 09_contexts_and_scheduler.md R205, 09_contexts_and_scheduler.md R207,
20_debug_and_trace.md R423) -/
def Obligations.TasksComeAndGoOnTheirCore : Prop :=
  (∀ (c : CoreId) (s : State) (t : Nat),
    let k := getCore s c.val
    let x := getTcb s t
    isS c.val = false → k.preempt = some (some t) → k.task = none → k.mode = .free → x.saving = false → x.fresh = true →
    domainSteps s (cluOf c.val) = true → stillOn s t c.val = false →
    ∃ k', exec (.taskSwitchIn c) s = .next (setCore s c.val k') ∧ k'.task = some t ∧ k'.cell = some x.cell ∧ k'.level = 0 ∧ k'.pc = x.entryVa ∧
      k'.fetchPc = x.entryVa ∧ k'.mode = .run ∧ k'.preempt = none ∧ k'.ctx = {} ∧ k'.dq = [] ∧ (∀ y ∈ k'.spec, y.keep = true) ∧ k'.resv = none ∧ k'.hold = none ∧
      k'.s1Root = (getCell s x.cell).s1 ∧ (k.cell ≠ some x.cell → k'.itt = [] ∧ k'.retStack = [] ∧ k'.spec = [])) ∧
  (∀ (c : CoreId) (s s2 : State) (t : Nat),
    let k := getCore s c.val
    isS c.val = false → k.preempt = some none → k.task = some t → k.mode = .run → k.pre = none → k.exc = none → k.dq = [] → k.stopReq = false →
    k.rdTxn = none → k.invWait = false → k.walk = none → k.level.toNat ≤ 1 → (getTcb s t).state = .running →
    k.discard = false → domainSteps s (cluOf c.val) = true → heldIrqs s c.val = [] →
    (k.window ≠ 0 → (∀ y, k.cell = some y → cellState s y ≠ .faulted) → exec (.preemptionTaken c) s = .next s) ∧
    (k.window = 0 → k.sr1.valid = false →
      saveTask (updCore (abandonWord s c.val) c.val (fun k => finishChk { k with ctx := drainFlights k.ctx })) c.val t = .ok s2 →
      (∀ p, look [] p s2.sched.ready = []) → (getTcb s2 t).state = .running → coreOfTask s2 t = c.val → eligibleCores (putBack s2 c.val t) t = [] →
      ∃ u, exec (.preemptionTaken c) s = .next u ∧ (getTcb u t).state = .ready ∧ (getCore u c.val).task = none ∧ (getCore u c.val).mode = .free ∧
        u.fab.waiting = s2.fab.waiting ∧ u.mem = s2.mem)) ∧
  (∀ (c : CoreId) (g : Fin 6) (s : State) (t : Nat),
    let k := getCore s c.val
    let node := if g.val < 2 then k.nodeLo else k.nodeHi
    let r := ctxRead c.val (coreCell k) (groupLines s node [g.val]) s
    k.ctx.pendGroups.getLsbD g.val = true → k.task = some t → k.pre = none → r.2 = some true →
    ∃ x : Ctx, exec (.groupLoadDone c g) s = .next (setCore r.1 c.val { getCore r.1 c.val with ctx := x }) ∧ x.pendGroups = k.ctx.pendGroups &&& ~~~(BitVec.ofNat 6 (2 ^ g.val)) ∧
      (g.val < 4 → (∀ i, i < 16 → look 0 (16 * g.val + i) x.g = BitVec.ofNat 64 (rdNat r.1 (node + groupOff g.val + 8 * i) 8)) ∧
        (∀ r, r / 16 ≠ g.val → look 0 r x.g = look 0 r k.ctx.g) ∧ x.v = k.ctx.v ∧ x.ports = k.ctx.ports) ∧
      (4 ≤ g.val → (∀ i, i < 16 → look 0 (16 * (g.val - 4) + i) x.v = BitVec.ofNat 256 (rdNat r.1 (node + groupOff g.val + 32 * i) 32)) ∧ x.g = k.ctx.g)) ∧
  (∀ (tcb : BitVec 16) (s : State), let x := getTcb s tcb.toNat
    (x.saving = true → x.saves = 0 → x.holdOut = false →
      exec (.savingClear tcb) s = .next (updTcb s tcb.toNat (fun x => { x with saving := false }))) ∧
    ((x.saves ≠ 0 ∨ x.holdOut = true) → exec (.savingClear tcb) s = .next s)) ∧
  (∀ (c : CoreId) (s : State),
    let k := getCore s c.val
    k.stopReq = true → k.exc = none → k.rdTxn = none → k.mode = .run → k.ctx.flights = [] → c.val ∈ s.dbg.coreHalts →
    (∀ p, k.pre = some p → p.flights = []) →
    exec (.coreStop c) s = .next (setCore s c.val { dropFailed k with
      ctx := k.pre.getD k.ctx, pre := none, rdTxn := none, rdAns := none, rdInv := false, rdParts := [], walk := none, mode := .stopped, resv := none, stopReq := false }))

/-- A core whose word, with the effect `a`, waits in a mode. -/
def waitingIn (s : State) (c : CoreId) (m : Slot) (a : After) (w : CoreMode) (f : Core → Core) : State :=
  setCore s c.val (f { openCore (getCore s c.val) with ctx := { regsOf s c with after := [(m.slotB, m.long, a)] }, mode := w })

/-- Answers, walks, invalidations and barriers complete the word that waits, and store-buffer entries drain. For a word
that waits as it was left, on a core with nothing else in hand: DEVICE_LOAD_ANSWER with the answer of its one
device access brings the bytes, extended, to Q (marked as poison unless the status is OK) and ends the word;
BARRIER_WAIT_END with an empty store buffer and no blocked stream ends a full barrier; TLB_INV_DONE ends the
TLB_INV word once no walk is under way and no access that began before it is left. WALK_COMPLETE of a fetch with
empty queues installs the entry that the walk gives. STORE_BUFFER_DRAIN of the only entry, if it may drain: a
device or NORMAL_NC store goes to the source port on stream 2 or 1; one of a line held writable is written to
memory, changing no other byte, and leaves the buffer. DCACHE_FILL_ARRIVAL on an S-core that awaits no memory puts
the line into L1. (07_pipeline_and_branches.md R152, 07_pipeline_and_branches.md R158, 10_cells_and_translation.md
R225, 10_cells_and_translation.md R232, 11_memory_ordering.md R247, 11_memory_ordering.md R250) -/
def Obligations.ArrivalsCompleteWaitingWords : Prop :=
  (∀ (c : CoreId) (m : Slot) (s : State) (op : LsuOp) (txn : Txn) (st : BitVec 3) (d : List Byte) (va : Word) (n pa mt : Nat),
    Straight (getCore s c.val) → s.flt.safe = false → m.pos ≠ .first → op = .ld → (getCore s c.val).rdParts = [] →
    let k := getCore s c.val
    let a := lsuAt s c m op
    let w := waitingIn s c m (.lsu op a.o a.v a.p m.ext) .waitLsu (fun k => { k with rdTxn := some txn, rdAns := some (st, d) })
    n = (if m.ext.toNat / 8 = 1 then 32 else 2 ^ (m.ext.toNat % 4)) → checkAcc w c.val a false 0 = .ok [(va, n, pa, mt)] → effType c.val pa mt = 0 → d.length = n →
    exec (.deviceLoadAnswer c) w = .next (setCore s c.val (wordOver k { regsOf s c with
      flights := [{ unit := 224, q := extended n (m.ext.getLsbD 2) d, poison := if st = 0 then none else some (a.addr 0) }] }) |>
      fun t => setCore t c.val { getCore t c.val with rdTxn := none, rdAns := none, rdInv := false })) ∧
  (∀ (c : CoreId) (m : Slot) (s : State), Straight (getCore s c.val) → s.flt.safe = false → m.pos ≠ .first → (getCore s c.val).sbuf = [] →
    (getCore s c.val).blocked = [] →
    exec (.barrierWaitEnd c) (waitingIn s c m (.fence .f) .waitFence id) = .next (setCore s c.val (wordOver (getCore s c.val) (regsOf s c)))) ∧
  (∀ (c : CoreId) (m : Slot) (s : State) (v : Word), Straight (getCore s c.val) → s.flt.safe = false → m.pos ≠ .first →
    (∀ j ∈ listedCores s, (getCore s j).walk = none) → (getCore s c.val).walk = none → (getCore s c.val).invWait = false → oldDone s = true →
    1 ≤ fld v 3 0 → fld v 3 0 ≤ 6 → srOk c.val (getCore s c.val).level.toNat 0x028 = true →
    exec (.tlbInvDone c) (waitingIn s c m (.srwr 0x028 v) .waitLong (fun k => { k with invWait := true })) =
      .next (setCore s c.val (wordOver (getCore s c.val) (regsOf s c)))) ∧
  (∀ (c : CoreId) (s : State) (w : Walk) (t : TlbEntry) (q : Wk),
    let k := getCore s c.val
    k.walk = some w → w.fetch = true → k.dq = [] → k.fq = [] → walkFor s c.val k.level.toNat w.va.toNat .fetch false false = (q, .ok t) →
    ∃ u, exec (.walkComplete c) s = .next u ∧ u.mem = q.s.mem ∧ (getCore u c.val).walk = none ∧
      (getCore u c.val).tlb = installTlb { t with spec := false } q.tlb ∧ (getCore u c.val).pc = (getCore q.s c.val).pc) ∧
  (∀ (c : CoreId) (s : State) (e : SbEntry),
    let k := getCore s c.val
    k.sbuf = [e] → mayDrain s c.val 0 = true →
    (e.mt ≤ 1 → ∃ t : Txn, t.init = coreInit c.val ∧ t.stream = (if e.mt = 0 then 2 else 1) ∧ t.kind = .write ∧ t.addr = e.pa ∧ t.data = e.data ∧
      t.cell = e.cell ∧ t.id = s.fab.nextId ∧
      exec (.storeBufferDrain c 0) s = .next (setCore { s with fab := { s.fab with waiting := s.fab.waiting ++ [t], nextId := s.fab.nextId + 1 } }
        c.val { k with sbuf := [{ e with sent := true }] })) ∧
    (2 ≤ e.mt → refusedAt s e.pa e.data.length = none → hasExcl k (e.pa / 64) = true →
      ∃ u, exec (.storeBufferDrain c 0) s = .next u ∧ (getCore u c.val).sbuf = [] ∧
        (Memory.wf s.mem = true → ∀ x, rdByte u x = if e.pa ≤ x ∧ x < e.pa + e.data.length then e.data.getD (x - e.pa) 0 else rdByte s x))) ∧
  (∀ (c : CoreId) (s : State) (line : Nat), isS c.val = true → (getCore s c.val).mode = .run → (getCore s c.val).fills = [{ line := line }] →
    (getCore s c.val).l1d = [] →
    exec (.dcacheFillArrival c) s = .next (setCore s c.val { getCore s c.val with fills := [], l1d := [{ line := line, excl := true }] }))

/-- An arriving event makes its waiting task run, counts as pending, or is dropped; frets open and close.
SCHED_EVENT_ARRIVAL of an event that no change holds, for a task of a running cluster and releasing no job: a
WAITING task with an idle eligible core that runs no handler is RUNNING and chosen for it; a READY or RUNNING one
counts the event as pending, up to 255; a DORMANT one's event is dropped and counted. FRET_OPEN and FRET_CLOSE of a
fret whose instant has come, on a cluster that takes steps, with no task on its cores and none READY, record the
frets now open and change nothing else; before the instant nothing changes. HV_EVENT_ARRIVAL queues the class at
its enabled home cluster or counts it as merged with the one queued there; with no cluster enabled it waits at its
home cluster in the same way. (09_contexts_and_scheduler.md R205, 09_contexts_and_scheduler.md R206,
09_contexts_and_scheduler.md R208, 09_contexts_and_scheduler.md R210) -/
def Obligations.EventsReachTheirTasks : Prop :=
  (∀ (s : State) (m : EvMsg) (ms : List EvMsg), s.sched.evTasks = m :: ms →
    let x := getTcb s m.tcb
    let s0 := { s with sched := { s.sched with evTasks := ms } }
    heldCell s m.dest = false → clusterTakes s x.cluster = true → jobsOn s m = [] →
    (x.state = .dormant → exec .schedEventArrival s = .next (updClu s0 x.cluster (fun c => { c with dropped := satAdd c.dropped 1 }))) ∧
    ((x.state = .running ∨ x.state = .ready) → x.pending < 255 →
      exec .schedEventArrival s = .next (updTcb s0 m.tcb (fun x => { x with pending := x.pending + 1 }))) ∧
    (x.state = .waiting → ∀ c, idleCore s (eligibleCores s m.tcb) = some c → (getCore s c).task = none → inHandler (getCore s c) = false →
      ∃ u, exec .schedEventArrival s = .next u ∧ (getTcb u m.tcb).state = .running ∧ (getTcb u m.tcb).core = c % 8 ∧
        (getCore u c).preempt = some (some m.tcb) ∧ u.sched.evTasks = ms ∧ u.mem = s.mem)) ∧
  (∀ (s : State) (cl : CluId) (f : BitVec 10),
    let now := openNow s cl.val
    let was := (getClu s cl.val).openFrets
    let quiet := (∀ j, j < 8 → coreTask (getCore s (cl.val * 8 + j)) = none) ∧ (∀ p, p < 64 → look [] (cl.val * 64 + p) s.sched.ready = [])
    let changed := Host.Outcome.next (updClu s cl.val (fun c => { c with openFrets := now }))
    (domainSteps s cl.val = true → f.toNat ∈ now → f.toNat ∉ was → quiet → exec (.fretOpen cl f) s = changed) ∧
    (f.toNat ∉ now → exec (.fretOpen cl f) s = .next s) ∧
    (domainSteps s cl.val = true → f.toNat ∉ now → f.toNat ∈ was → quiet → exec (.fretClose cl f) s = changed) ∧
    (f.toNat ∈ now → exec (.fretClose cl f) s = .next s)) ∧
  (∀ (s : State) (m : HvMsg) (ms : List HvMsg), s.sched.evHv = m :: ms →
    let s0 := { s with sched := { s.sched with evHv := ms } }
    let q := (getClu s m.home).hvQueue
    (((getClu s m.home).hvEnable = true ∧ clusterTakes s m.home = true) ∨ ((getClu s m.home).hvEnable = false ∧ ∀ n, n < 16 → (getClu s n).hvEnable = false)) →
      ((∀ x ∈ q, x.cls ≠ m.cls ∨ x.detail ≠ m.detail) → exec .hvEventArrival s = .next (updClu s0 m.home (fun c => { c with hvQueue := c.hvQueue ++ [m] }))) ∧
      ((∃ x ∈ q, x.cls = m.cls ∧ x.detail = m.detail) → exec .hvEventArrival s = .next (updClu s0 m.home (fun c => { c with merged := satAdd c.merged 1 }))))

/-- TCB_RESET returns a task to DORMANT and frees its nodes, TCB_START makes it READY; safety tasks refuse. A command
for the TCB selected in a cluster. Of another cluster's task: RESULT 2 and nothing else. Of a task of a safety cell
that is not FAULTED: RESULT 1, and SCHED_REFUSED (0x0305) raised with the register's address and the accessor,
nothing else. Otherwise RESULT 0: RESET of a task on no core leaves it DORMANT with no pending event and its nodes
returned to the pools, and nothing else in memory changed where it has none; START of a DORMANT task whose cell is
not ACTIVE leaves it HELD with an empty context and nothing pending, and of one whose cell is ACTIVE and which no
core can take leaves it READY at the tail of its level, memory unchanged. (09_contexts_and_scheduler.md R193,
09_contexts_and_scheduler.md R205, 09_contexts_and_scheduler.md R213) -/
def Obligations.TcbCommandsResetAndStart : Prop :=
  ∀ (s : State) (a : Access) (cl : CluId) (v : Word),
    let t := (getClu s cl.val).tcbSel.toNat
    let x := getTcb s t
    let c := x.cluster * 8 + x.core
    let res := fun (u : State) (r : BitVec 2) => updClu u cl.val (fun c => { c with tcbResult := r })
    let pa := 0xF8000100000 + cl.val * 0x10000 + 0x38
    (x.cluster ≠ cl.val → exec (.tcbReset a cl v) s = .next (res s 2) ∧ exec (.tcbStart a cl v) s = .next (res s 2)) ∧
    (x.cluster = cl.val → s.comp.isSealed = true → isSafety s.comp.live x.cell = true → cellState s x.cell ≠ .faulted →
      ∀ i, i = .tcbReset a cl v ∨ i = .tcbStart a cl v →
      ∃ f : FaultMsg, f.code = 0x0305 ∧ f.init = some (a.init, 2) ∧ f.addr = some (BitVec.ofNat 64 pa, false) ∧ f.cell = a.cell ∧
        exec i s = .next { res s 1 with flt := { s.flt with raised := s.flt.raised ++ [f] } }) ∧
    (x.cluster = cl.val → (s.comp.isSealed = false ∨ isSafety s.comp.live x.cell = false ∨ cellState s x.cell = .faulted) →
      (x.state = .dormant → exec (.tcbReset a cl v) s = .next (res s 0)) ∧
      (x.state ≠ .dormant → (getCore s c).task ≠ some t → (∀ j, j < 8 → (getCore s (x.cluster * 8 + j)).preempt ≠ some (some t)) →
        ∃ u, exec (.tcbReset a cl v) s = .next u ∧ (getTcb u t).state = .dormant ∧ (getTcb u t).pending = 0 ∧ (getTcb u t).nodeLo = 0 ∧ (getTcb u t).nodeHi = 0 ∧
          (getTcb u t).fresh = true ∧ (getClu u cl.val).tcbResult = 0 ∧ (x.nodeLo = 0 → x.nodeHi = 0 → u.mem = s.mem ∧ u.cores = s.cores) ∧
          (∀ n, x.nodeLo ≠ 0 → nodeNum s x.cell false x.nodeLo = some n → n ∈ (getPool u x.cell false).returned)) ∧
      (x.state ≠ .dormant → exec (.tcbStart a cl v) s = .next (res s 0)) ∧
      (x.state = .dormant → cellState s x.cell ≠ .active →
        exec (.tcbStart a cl v) s = .next (res (updTcb s t (fun x => { x with fresh := true, pending := 0, state := .held, heldFrom := .ready })) 0)) ∧
      (x.state = .dormant → cellState s x.cell = .active → eligibleCores s t = [] →
        ∃ u, exec (.tcbStart a cl v) s = .next u ∧ (getTcb u t).state = .ready ∧ (getTcb u t).pending = 0 ∧ (getTcb u t).fresh = true ∧
          look [] (x.cluster * 64 + x.prio) u.sched.ready = look [] (x.cluster * 64 + x.prio) s.sched.ready ++ [t] ∧ (getClu u cl.val).tcbResult = 0 ∧ u.mem = s.mem))

/-- A transaction leaves its port, is performed at its target, and its answer reaches what waits for it.
FABRIC_TRANSACTION_ISSUE of a request of the endpoint, with no other waiting: a request to an address of no
endpoint is answered DECODE at the port, one to a fenced endpoint FENCED, one without Pass or path NO_PATH; any
other joins the transactions outstanding with its route, its Pass's or that of dimension order, the debug bus's on
no Pass; memory is unchanged. FABRIC_TRANSACTION_ARRIVAL of one that nothing earlier of its stream or Pass
precedes, by a whole way and whole, with no Pass to wait for, no tag error planted and its line not on a failed
channel alone: a read of HBM or scratch is answered with the bytes there, OK or POISON; a write to them whose pages
are not locked writes its bytes and no other, answered OK. FABRIC_RESPONSE of a core's awaited read hands over its
answer; one that comes late is counted and recorded LATE_RESPONSE. FABRIC_TIMEOUT does nothing before its limit,
and then answers the core's read with TIMEOUT. (04_lankor_fabric.md R62, 04_lankor_fabric.md R64,
04_lankor_fabric.md R75, 04_lankor_fabric.md R76, 23_address_map_and_register_index.md R478) -/
def Obligations.TransactionsAreIssuedPerformedAndAnswered : Prop :=
  (∀ (s : State) (ep : BitVec 7) (q : Req), initEp q.init = ep.toNat → s.fab.waiting = [] → s.fab.changing = false → q.kind = .read →
    let t : Txn := { txnOf q with id := s.fab.nextId, issued := s.now, limit := timeoutNow s }
    let out := fun (t' : Txn) (u : State) => exec (.fabricTransactionIssue ep (some q)) s = .next u ∧ u.fab.txns = s.fab.txns ++ [t'] ∧ u.fab.waiting = [] ∧
      u.fab.nextId = s.fab.nextId + 1 ∧ u.mem = s.mem ∧ u.cores = s.cores ∧ u.flt = s.flt
    (endpointOf q.addr.toNat = none → ∃ u, out { t with done := some (stDECODE, []), atPort := true } u) ∧
    (∀ d, endpointOf q.addr.toNat = some d →
      (d ∈ s.fab.fences → ∃ u, out { t with dst := d, done := some (stFENCED, []), atPort := true } u) ∧
      (d ∉ s.fab.fences → passFor s q.init q.cell d = none →
        (pathBoth s ep.toNat d = false → ∃ u, out { t with dst := d, done := some (stNOPATH, []), atPort := true } u) ∧
        (pathBoth s ep.toNat d = true → ∃ u, out { t with dst := d, route := orderPath (epSwitch ep.toNat) (epSwitch d), back := orderPath (epSwitch d) (epSwitch ep.toNat) } u)) ∧
      (∀ p, d ∉ s.fab.fences → passFor s q.init q.cell d = some p →
        (∃ u, out { t with dst := d, pass := some p.id, route := routeThere (some p) ep.toNat d, back := routeBack (some p) ep.toNat d } u) ∧ q.init ≠ dbgInit))) ∧
  (∀ (s : State) (id : Nat) (t : Txn), findTxn s id = some t → t.done = none → (∀ q ∈ earlier s t, q.done ≠ none) →
    cutThere s t = false → packetThere s t false = true → waitsForPass s t = false → deadLine s (t.addr / 64) = false → s.cache.badTags = [] → (regionOf t.addr = .hbm ∨ ∃ n, regionOf t.addr = .scratch n) →
    (t.kind = .read → s.cache.bad = [] → ∃ u, exec (.fabricTransactionArrival id) s = .next u ∧ u.mem = s.mem ∧
      findTxn u id = some { t with done := some (if poisonedAt s t.addr t.size then stPOISON else stOK, rdBytes s t.addr t.size) }) ∧
    (t.kind = .write → pageLocked s t.addr t.data.length = false → ∃ u, exec (.fabricTransactionArrival id) s = .next u ∧
      findTxn u id = some { t with done := some (stOK, []) } ∧
      (Memory.wf s.mem = true → ∀ x, rdByte u x = if t.addr ≤ x ∧ x < t.addr + t.data.length then t.data.getD (x - t.addr) 0 else rdByte s x))) ∧
  (∀ (s : State) (id : Nat) (t : Txn) (c : Nat) (q : Txn) (d : List Byte),
    let gone := { s with fab := { s.fab with txns := s.fab.txns.filter (fun q => q.id ≠ id), packets := s.fab.packets.filter (fun p => p.txn ≠ id) } }
    findTxn s id = some t → t.pass = none → earlier s t = [] → cutBack s t = false → packetThere s t true = true →
    (t.done = some (stOK, d) → t.late = false → t.purpose = .load c → (getCore s c).rdTxn = some q → q.id = id →
      exec (.fabricResponse id) s = .next (setCore gone c { getCore s c with rdAns := some (stOK, d) })) ∧
    (t.done = some (stOK, d) → t.late = true →
      ∃ f : FaultMsg, f.code = 0x0205 ∧ f.cell = t.cell ∧ f.init = some (t.init, t.stream) ∧
        exec (.fabricResponse id) s = .next { gone with fab := { gone.fab with late := satAdd s.fab.late 1 }, flt := { s.flt with raised := s.flt.raised ++ [f] } }) ∧
    (s.now.toNat < t.issued.toNat + t.limit * 500 → exec (.fabricTimeout id) s = .next s) ∧
    (t.done = none → t.atPort = false → t.late = false → t.issued.toNat + t.limit * 500 ≤ s.now.toNat → t.purpose = .load c → t.kind = .read →
      (getCore s c).rdTxn = some q → q.id = id →
      ∃ u d' f, exec (.fabricTimeout id) s = .next u ∧ (getCore u c).rdAns = some (stTIMEOUT, d') ∧ u.flt.raised = s.flt.raised ++ [f] ∧ f.code = 0x0202 ∧
        findTxn u id = some { t with late := true } ∧ u.mem = s.mem))

/-- Words pass their CRC or are replayed, the composed structure goes live whole, freed entries unblock.
LINK_WORD_RECEIVE on a link direction that is UP and not chosen for corruption, of a word of no packet: the next
word of a lane of the packet plane, with a sound CRC, is accepted and kept among the last 16; a word resent from
them is accepted if it is the awaited one, and discarded otherwise; with a wrong CRC and failures below the limit
the awaited one is counted as a CRC error and a replay; what the lane does not send does not arrive, and a link
that is not UP takes nothing. FAB_ERR_INJECT under expert control arms the corruption of its switch point, port and
lane; otherwise a change of it is refused with EXPERT_DENIED. FABRIC_STRUCT_LIVE waits until every transaction has
completed, then makes switch map, Passes and timeout of the composition live together. BLOCK_ENTRY_FREED of a
RELEASE of a core's stream frees the entry, unblocks the stream and lets the held stores go in their order.
(04_lankor_fabric.md R72, 04_lankor_fabric.md R73, 04_lankor_fabric.md R81, 15_faults_and_recovery.md R332) -/
def Obligations.LinksStructureAndBlocks : Prop :=
  (∀ (s : State) (sp : BitVec 6) (port : BitVec 4) (lane : BitVec 5) (idx : Nat) (w : LinkWord) (crc : Byte),
    let k := laneKey sp.toNat port.toNat lane.toNat
    let l := getLane s k
    let i := Instr.linkWordReceive sp port lane idx w crc
    let sound := crc8 (natLe 8 w.bits.toNat) = crc.toNat
    let held := fun (b : List LaneWord) => b.map (fun x => if x.idx = idx then { x with word := some w.bits } else x)
    let becomes := fun (l' : Lane) (d' : LinkDir) => ∃ u, exec i s = .next u ∧ getLane u k = l' ∧ getLink u sp.toNat port.toNat = d' ∧
      (∀ j, j ≠ k → getLane u j = getLane s j) ∧ u.mem = s.mem ∧ u.flt = s.flt
    let d := getLink s sp.toNat port.toNat
    (linkState s sp.toNat port.toNat ≠ 0 → exec i s = .next s) ∧
    (sendWord s sp.toNat port.toNat lane.toNat idx w.part = none → exec i s = .next s) ∧
    (linkState s sp.toNat port.toNat = 0 → injectArmed s sp.toNat port.toNat lane.toNat = false → w.part = none →
      (idx = l.sent → l.accepted = l.sent → l.fails = 0 → (∀ x ∈ l.buf, x.idx ≠ idx) → lane.toNat ∈ lanesFor s none sp.toNat port.toNat →
        (∀ p ∈ s.fab.packets, p.link = linkKey sp.toNat port.toNat → lane.toNat ∉ p.lanes) → sound →
        becomes { l with sent := idx + 1, accepted := idx + 1, last := w.bits, buf := held (keep16 l.buf { idx := idx, part := none }) } d) ∧
      (idx < l.sent → (∃ x ∈ l.buf, x.idx = idx ∧ x.part = none) → (∀ x ∈ l.buf, x.idx = idx → x.word = none ∨ x.word = some w.bits) →
        (sound → idx = l.accepted → l.fails = 0 → becomes { l with accepted := idx + 1, last := w.bits, buf := held l.buf } d) ∧
        (sound → idx ≠ l.accepted → becomes { l with buf := held l.buf } d) ∧
        (¬ sound → idx = l.accepted → l.fails < replayLimit s →
          becomes { l with fails := l.fails + 1 } { d with crcErr := satAdd d.crcErr 1, replays := satAdd d.replays 1 })))) ∧
  (∀ (s : State) (a : Access) (v : Word),
    let pa := 0xF8000020020
    (expertOn s pa = true → ∃ w : Word, exec (.fabErrInject a v) s = .next (store s pa w) ∧ w.getLsbD 14 = true ∧ fld w 13 9 = fld v 13 9 ∧ fld w 8 6 = fld v 8 6 ∧ fld w 5 0 = fld v 5 0) ∧
    (expertOn s pa = false → (stored s .fabErrInject pa).getLsbD 14 = false →
      ∃ f : FaultMsg, f.code = 0x0002 ∧ f.init = some (a.init, 2) ∧
        exec (.fabErrInject a v) s = .next { store s pa (stored s .fabErrInject pa) with flt := { s.flt with raised := s.flt.raised ++ [f] } })) ∧
  (∀ (s : State), (s.fab.changing = true → (∀ t ∈ s.fab.txns, t.late = true) →
      exec .fabricStructLive s = .next { s with fab := { s.fab with structLive := true, changing := false, swmap := switchMap s.comp.live, passes := passesOf s.comp.live, timeout := composedTimeout s.comp.live } }) ∧
    ((s.fab.changing = false ∨ ∃ t ∈ s.fab.txns, t.late = false) → exec .fabricStructLive s = .next s)) ∧
  (∀ (s : State) (e : BitVec 9) (c : CoreId),
    let b := getBlock s e.toNat
    b.valid = true → b.cmd = some true → b.init = coreInit c.val → exec (.blockEntryFreed e) s =
      .next (setCore { s with flt := { s.flt with blocks := put e.toNat { b with valid := false, cmd := none } s.flt.blocks } } c.val
        { getCore s c.val with
          blocked := (getCore s c.val).blocked.filter (fun x => !(x.stream = b.stream.toNat && x.cell == b.cell))
          sbuf := (getCore s c.val).sbuf.map (fun e => if !e.sent && e.cell == b.cell && e.mt == (if b.stream = 2 then 0 else 1) then { e with released := true } else e) }))

/-- Requests at an HBM slice or a scratch slice read and write the bytes of memory and nothing else of it. SLC_REQUEST
for an HBM address whose site is not fenced, and SCRATCH_ACCESS for a scratch address whose site is not fenced,
with no check error of data or tags pending and its line not on a FAILED channel alone: a read or fetch changes no
byte and no poison; a write outside locked pages writes its bytes and no other, and takes the poison of the units
it covers whole; a swap or fetch-and-add writes the new value of its size over the old. A T_LR marks the line for
its core at the slice that keeps it, and a T_SC of a core without the mark of that line changes no byte.
COHERENCE_REQUEST that keeps the line clean changes no byte and leaves no dirty or writable L1 copy of it in any
core; one that does not removes the line from the L2 and the L1 data caches of that cluster.
(12_caches_and_onchip_memory.md R261, 12_caches_and_onchip_memory.md R265, 12_caches_and_onchip_memory.md R270,
12_caches_and_onchip_memory.md R272, 06_function_units.md R123, 06_function_units.md R122,
15_faults_and_recovery.md R329) -/
def Obligations.AccessesAtTheSlices : Prop :=
  (∀ (s : State) (r : Req) (mt : Nat) (i : Instr),
    (i = .slcRequest r mt ∧ regionOf r.addr.toNat = .hbm ∧ (0x10 + homeSite r.addr.toNat) ∉ s.fab.fences) ∨
    (∃ n, i = .scratchAccess r ∧ regionOf r.addr.toNat = .scratch n ∧ (0x10 + n) ∉ s.fab.fences) →
    s.cache.bad = [] → s.cache.badTags = [] → deadLine s (r.addr.toNat / 64) = false →
    let pa := r.addr.toNat
    let n := r.size
    let writes := fun (bs : List Byte) => ∃ u, exec i s = .next u ∧ (Memory.wf s.mem = true → ∀ x, rdByte u x = if pa ≤ x ∧ x < pa + bs.length then bs.getD (x - pa) 0 else rdByte s x)
    (r.kind = .read ∨ r.kind = .fetch → ∃ u, exec i s = .next u ∧ u.mem = s.mem ∧ u.poison = s.poison) ∧
    (r.kind = .write → pageLocked s pa r.data.length = false → writes r.data ∧
      ∃ u, exec i s = .next u ∧ u.poison = s.poison.filter (fun w => !(decide (pa ≤ 8 * w) && decide (8 * w + 8 ≤ pa + r.data.length)))) ∧
    (r.kind = .swap → r.data.length = n → pageLocked s pa n = false → writes r.data) ∧
    (r.kind = .fadd → pageLocked s pa n = false → writes (natLe n (leNat (rdBytes s pa n) + leNat r.data))) ∧
    (∀ c : CoreId, r.kind = .lr → r.init = coreInit c.val → ∃ u, exec i s = .next u ∧ u.mem = s.mem ∧ (c.val, pa / 64) ∈ (getSite u (markSite pa)).marks) ∧
    (∀ c : CoreId, r.kind = .sc → r.init = coreInit c.val → pageLocked s pa n = false → (c.val, pa / 64) ∉ (getSite s (markSite pa)).marks →
      ∃ u, exec i s = .next u ∧ u.mem = s.mem)) ∧
  (∀ (s : State) (line : BitVec 38) (cl : CluId),
    (∃ u, exec (.coherenceRequest line cl true) s = .next u ∧ u.mem = s.mem ∧
      ∀ c, ∀ l ∈ (getCore u c).l1d, l.line = line.toNat → l.dirty = false ∧ l.excl = false) ∧
    (∃ u, exec (.coherenceRequest line cl false) s = .next u ∧ u.mem = s.mem ∧ (∀ l ∈ getL2 u cl.val, l.line ≠ line.toNat) ∧
      ∀ j, j < 8 → ∀ l ∈ (getCore u (8 * cl.val + j)).l1d, l.line ≠ line.toNat))

/-- The commands of cache maintenance with their OP. -/
def mntRows : List ((Access → Word → Instr) × Nat) :=
  [(.cleanAddr, 1), (.cleanInvAddr, 2), (.cleanCell, 3), (.cleanInvCell, 4), (.cleanClass, 5), (.cleanInvClass, 6), (.remask, 7)]

/-- Maintenance takes the tokens of its slices whole, cleans the matched lines, and gives the tokens back. Each of the
seven maintenance commands: bad arguments give RESULT 2 and a safety target RESULT 3, both with SLC_REFUSED
(0x0508) raised; a token of a named slice that is held gives RESULT 1 and starts nothing; otherwise RESULT 0 and
every named slice is held by the hypervisor with a new operation in progress. MNT_SLICE_DONE at a site that takes
steps, without a failed write-back or an abort, ends the slice's operation DONE, gives its token back, and leaves
no matched line dirty; where the operation invalidates, the matched lines are gone. TOKEN_GRANT of a free token
goes to a queued commit first, then to power, and else, with no training queued, leaves it free. SLC_ERR_INJECT
under expert control arms its target and site. Memory is unchanged by all of them. (12_caches_and_onchip_memory.md
R274, 12_caches_and_onchip_memory.md R275, 12_caches_and_onchip_memory.md R276, 12_caches_and_onchip_memory.md
R277, 12_caches_and_onchip_memory.md R278, 12_caches_and_onchip_memory.md R279) -/
def Obligations.MaintenanceTakesAndGivesTheTokens : Prop :=
  (∀ (p : (Access → Word → Instr) × Nat) (a : Access) (v : Word) (s : State), p ∈ mntRows →
    let i := p.1 a v
    let arg := look 0 0xF8000600010 s.regs
    let len := look 0 0xF8000600018 s.regs
    let mask := fld v 63 48
    let bad := mntBad s p.2 mask arg len
    let safety := mntSafety s p.2 arg len
    ∃ u, exec i s = .next u ∧ u.mem = s.mem ∧ fld (look 0 0xF8000600008 u.regs) 63 48 = mask ∧
      u.cache.mntResult = (if bad then 2 else if safety then 3 else if tokensFree s mask then 0 else 1) ∧
      ((bad || safety) = true → u.cache.sites = s.cache.sites ∧ ∃ f : FaultMsg, u.flt.raised = s.flt.raised ++ [f] ∧ f.code = 0x0508 ∧ f.init = some (a.init, 2)) ∧
      ((bad || safety) = false → u.flt.raised = s.flt.raised ∧
        (tokensFree s mask = false → u.cache.sites = s.cache.sites) ∧
        (tokensFree s mask = true → ∀ n, n < 16 → if mask.testBit n then
            (getSite u n).holder = .hyp ∧ (getSite u n).op = { st := 1 } ∧ (getSite u n).mnt = some { op := p.2, arg := arg, len := len } ∧ (getSite u n).cause = 0
          else (getSite u n).holder = (getSite s n).holder ∧ (getSite u n).op = (getSite s n).op))) ∧
  (∀ (n : Fin 16) (s : State) (m : Mnt), let x := getSite s n.val
    x.holder = .hyp → x.mnt = some m → x.op.abortReq = false → domainSteps s (16 + n.val) = true → (∀ k ∈ x.lines, wbFails s k.line = false) →
    ∃ u, exec (.mntSliceDone n true) s = .next u ∧ u.mem = s.mem ∧ (getSite u n.val).holder = .none ∧ (getSite u n.val).op.st = 2 ∧ (getSite u n.val).cause = 0 ∧
      (getSite u n.val).mnt = none ∧ ∀ l ∈ (getSite u n.val).lines, ∀ k ∈ x.lines, k.line = l.line → mntMatches s m k = true → mntInval m.op = false ∧ l.dirty = false) ∧
  (∀ (n : Fin 16) (s : State), let x := getSite s n.val
    (x.holder ≠ .none → exec (.tokenGrant n) s = .next s) ∧
    (x.holder = .none → x.qCommit = true → exec (.tokenGrant n) s = .next (updSite s n.val (fun x => { x with holder := .commit, qCommit := false }))) ∧
    (x.holder = .none → x.qCommit = false → x.qPower = true → exec (.tokenGrant n) s = .next (updSite s n.val (fun x => { x with holder := .power, qPower := false }))) ∧
    (x.holder = .none → x.qCommit = false → x.qPower = false → x.trainQueue = [] →
      exec (.tokenGrant n) s = .next (updSite s n.val (fun x => { x with qTrain := false })))) ∧
  (∀ (s : State) (a : Access) (v : Word), expertOn s 0xF8000600050 = true → fld v 5 4 ≤ 1 →
    ∃ w : Word, exec (.slcErrInject a v) s = .next (store s 0xF8000600050 w) ∧ w.getLsbD 9 = true ∧ fld w 8 8 = fld v 8 8 ∧ fld w 5 4 = fld v 5 4 ∧ fld w 3 0 = fld v 3 0)

/-- An HBM controller queues requests, issues them one by one, performs writes, retries reads and counts refresh. For a
channel that is READY. HMC_REQUEST of an address of the channel joins the queue of its pseudo-channel unless that
is full; a read whose bytes the newest queued write of its line holds is answered from it, OK; a FAILED channel
answers it with POISON. HMC_COMMAND_ISSUE on a pseudo-channel whose one request is a write under way performs it:
its bytes are written, no other byte changes, and OK goes out. HMC_READ_DATA of the one read under way answers the
bytes when they are clean; an uncorrectable first attempt is retried, a second answers POISON and raises HBM_UE
(0x0603). HBM_PARITY_ERROR of a read whose reissue succeeds is counted and raises HBM_RETRY (0x0602). TREFI_TICK
adds one to the debt, up to 8 (where reserved up to 2, or to what it was). REFRESH_DONE of a bank that is not the
last of its round adds it to the banks refreshed. HMC_ERR_INJECT under expert control arms its channel's injection.
(13_hbm_controller.md R283, 13_hbm_controller.md R285, 13_hbm_controller.md R287, 13_hbm_controller.md R290,
13_hbm_controller.md R292, 13_hbm_controller.md R296) -/
def Obligations.HbmRequestsReadAndWriteTheStack : Prop :=
  ∀ (s : State) (hmc : BitVec 6),
    let m := hmc.toNat
    let h := getHmc s m
    (∀ r : Req, let p := pcOf r.addr.toNat
      r.addr.toNat < hbmLimit → hmcOf r.addr.toNat = m →
      (h.state ≠ .failed → (getPc h p).queue.length < 64 → (r.kind = .write → bufferedWrites (getPc h p) < 32) → fromWrite (getPc h p) r = none →
        ∃ u, exec (.hmcRequest hmc r) s = .next u ∧ (getPc (getHmc u m) p).queue = (getPc h p).queue ++ [{ req := r, num := h.arrived }] ∧ (getHmc u m).arrived = h.arrived + 1 ∧
          (getHmc u m).answers = h.answers ∧ u.flt = s.flt ∧ u.mem = s.mem) ∧
      (∀ d, h.state ≠ .failed → fromWrite (getPc h p) r = some d → (getPc h p).queue.length < 64 → (∀ q ∈ h.pc0.queue ++ h.pc1.queue, q.ans = none ∧ q.num < h.arrived ∧ (q.req.init = r.init → q.req.stream ≠ r.stream)) →
        ∃ u, exec (.hmcRequest hmc r) s = .next u ∧ (getHmc u m).answers = h.answers ++ [{ req := r, status := stOK, data := d }] ∧ (getPc (getHmc u m) p).queue = (getPc h p).queue ∧ u.flt = s.flt ∧ u.mem = s.mem) ∧
      (h.state = .failed → h.pc0.queue = [] → h.pc1.queue = [] → ∃ u, exec (.hmcRequest hmc r) s = .next u ∧ (getPc (getHmc u m) p).queue = [] ∧
        (getHmc u m).answers = h.answers ++ [{ req := r, status := stPOISON, data := [] }] ∧ u.mem = s.mem)) ∧
    (∀ (pc : Fin 2) (q : HmcReq), (getPc h pc.val).queue = [q] → (getPc h (1 - pc.val)).queue = [] → q.issued = true → q.ans = none → q.tries ≤ 1 →
      (h.state = .ready → q.req.kind = .write → h.armed = false → ∃ u, exec (.hmcCommandIssue hmc pc) s = .next u ∧
        (getHmc u m).answers = h.answers ++ [{ req := q.req, status := stOK, data := [] }] ∧
        (Memory.wf s.mem = true → ∀ x, rdByte u x = if q.req.addr.toNat ≤ x ∧ x < q.req.addr.toNat + q.req.data.length then q.req.data.getD (x - q.req.addr.toNat) 0 else rdByte s x)) ∧
      (q.req.kind = .read →
        let bytes := rdBytes s q.req.addr.toNat q.req.size
        (∀ e, eccOf s q.req.addr.toNat q.req.size e = .clean → q.tries = 0 → ∃ u, exec (.hmcReadData hmc pc e) s = .next u ∧
          (getHmc u m).answers = h.answers ++ [{ req := q.req, status := stOK, data := bytes }] ∧ (getPc (getHmc u m) pc.val).queue = [] ∧
          u.flt = s.flt ∧ u.mem = s.mem) ∧
        (∀ e, eccOf s q.req.addr.toNat q.req.size e = .uncorrectable →
          (q.tries = 0 → exec (.hmcReadData hmc pc e) s = .next (updPc s m pc.val (fun x => { x with queue := [{ q with tries := 1 }] }))) ∧
          (q.tries = 1 → ∃ u f, exec (.hmcReadData hmc pc e) s = .next u ∧ (getHmc u m).answers = h.answers ++ [{ req := q.req, status := stPOISON, data := bytes }] ∧
            u.flt.raised = s.flt.raised ++ [f] ∧ f.code = 0x0603 ∧ (getHmc u m).ue = satAdd h.ue 1 ∧ u.mem = s.mem)) ∧
        (∃ u f, exec (.hbmParityError hmc pc true) s = .next u ∧ (getHmc u m).ce = satAdd h.ce 1 ∧ u.flt.raised = s.flt.raised ++ [f] ∧ f.code = 0x0602 ∧
          (getPc (getHmc u m) pc.val).queue = [{ q with reissues := q.reissues + 1 }] ∧ u.mem = s.mem))) ∧
    (∀ pc : Fin 2, let x := getPc h pc.val
      let own := (pcOwner s m pc.val).isSome
      (x.ref = .normal ∨ x.ref = .catchUp → ∃ u, exec (.trefiTick hmc pc) s = .next u ∧ u = updPc s m pc.val (fun _ => getPc (getHmc u m) pc.val) ∧
        (getPc (getHmc u m) pc.val).debt = min (x.debt + 1) (if own then max 2 x.debt else 8)) ∧
      (x.ref = .selfRefresh ∨ x.ref = .stopped → exec (.trefiTick hmc pc) s = .next s) ∧
      (∀ b rest, x.refreshing = b :: rest → (addSorted b x.banks).length < 64 →
        exec (.refreshDone hmc pc) s = .next (updPc s m pc.val (fun x => { x with refreshing := rest, banks := addSorted b x.banks }))) ∧
      (x.refreshing = [] → exec (.refreshDone hmc pc) s = .next s)) ∧
    (∀ (a : Access) (v : Word), expertOn s (0xF8000200000 + m * 0x10000 + 0x68) = true → fld v 5 4 ≤ 2 → ∃ u, exec (.hmcErrInject a hmc v) s = .next u ∧ (getHmc u m).armed = true ∧
      u.mem = s.mem ∧ u.flt = s.flt)

/-- Training starts for the right party, counts its steps, fails with its cause; temperature sets the band.
BOOT_TRAINING from a Mladette pair on an UNTRAINED or FAILED channel starts step 1 in TRAINING, RESULT 0; from
anyone else RESULT 2. RETRAIN from the hypervisor on a READY channel without an ACTIVE owner, its site's token
free, takes the token and starts step 3; an ACTIVE owner gives RESULT 3, a held token RESULT 1.
SCHEDULED_TRAINING_START of a due READY channel takes the free token and starts step 5, or queues when it is held.
TRAIN_STEP_DONE of a passed step that is not the last, no abort asked and no lane repaired, counts it and goes to
the next; a failed step 1 leaves the channel FAILED, in ERROR, cause 1, and raises TRAIN_FAIL (0x0607).
HBM_TEMP_READ sets the temperature and its band; 96 to 105 °C entered anew raises HBM_HOT (0x0608) and more raises
HBM_OVERTEMP (0x0609). (12_caches_and_onchip_memory.md R279, 13_hbm_controller.md R291, 13_hbm_controller.md R295,
13_hbm_controller.md R296, 13_hbm_controller.md R297) -/
def Obligations.HbmTrainingRunsItsSteps : Prop :=
  ∀ (s : State) (hmc : BitVec 6),
    let m := hmc.toNat
    let h := getHmc s m
    let res := fun (u : State) (x : BitVec 2) => updHmc u m (fun h => { h with result := x })
    (∀ (a : Access) (v : Word),
      (isMld a = false → exec (.bootTraining a hmc v) s = .next (res s 2)) ∧
      (isMld a = true → (h.state = .untrained ∨ h.state = .failed) → ∃ u, exec (.bootTraining a hmc v) s = .next u ∧ (getHmc u m).state = .training ∧
        (getHmc u m).step = 1 ∧ (getHmc u m).train = some .boot ∧ (getHmc u m).op = { st := 1 } ∧ (getHmc u m).result = 0 ∧ u.mem = s.mem) ∧
      (isMld a = true → h.state = .ready → exec (.bootTraining a hmc v) s = .next (res s 2)) ∧
      (isHyp a = false → exec (.retrain a hmc v) s = .next (res s 2)) ∧
      (isHyp a = true → activeOwner s m = true → exec (.retrain a hmc v) s = .next (res s 3)) ∧
      (isHyp a = true → activeOwner s m = false → h.state = .ready →
        (tokenFree (getSite s (m / 4)) = false → exec (.retrain a hmc v) s = .next (res s 1)) ∧
        (tokenFree (getSite s (m / 4)) = true → ∃ u, exec (.retrain a hmc v) s = .next u ∧ (getHmc u m).state = .training ∧ (getHmc u m).step = 3 ∧
          (getHmc u m).train = some .retrain ∧ (getHmc u m).result = 0 ∧ (getSite u (m / 4)).holder = .training ∧ u.mem = s.mem))) ∧
    (h.state = .ready → h.train = none → m % 4 ∉ (getSite s (m / 4)).trainQueue → h.due = true →
      (tokenFree (getSite s (m / 4)) = true → ∃ u, exec (.scheduledTrainingStart hmc) s = .next u ∧ (getHmc u m).state = .ready ∧ (getHmc u m).step = 5 ∧
        (getHmc u m).train = some .scheduled ∧ (getSite u (m / 4)).holder = .training) ∧
      (tokenFree (getSite s (m / 4)) = false → exec (.scheduledTrainingStart hmc) s =
        .next (updSite s (m / 4) (fun x => { x with qTrain := true, trainQueue := x.trainQueue ++ [m % 4] })))) ∧
    (∀ (k : Training) (lanes : BitVec 8), h.train = some k →
      (∀ n, nextStep k h.step = some n → h.op.abortReq = false → (h.step ≠ 2 ∨ lanes = 0) →
        exec (.trainStepDone hmc true lanes) s = .next (updHmc s m (fun h => { h with op := { h.op with progress := h.op.progress + 1 }, step := n }))) ∧
      (h.step = 1 → ∃ u, exec (.trainStepDone hmc false lanes) s = .next u ∧ (getHmc u m).state = .failed ∧ (getHmc u m).op.st = 4 ∧ (getHmc u m).cause = 1 ∧
        (getHmc u m).train = none ∧ (∃ f ∈ u.flt.raised, f.code = 0x0607) ∧ u.mem = s.mem)) ∧
    (∀ t : BitVec 8, ∃ u, exec (.hbmTempRead hmc t) s = .next u ∧ (getHmc u m).temp = t ∧
      (getHmc u m).band = (if t.toInt ≤ 85 then 0 else if t.toInt ≤ 95 then 1 else if t.toInt ≤ 105 then 2 else 3) ∧
      u.flt.raised.map (·.code) = s.flt.raised.map (·.code) ++
        (if 105 < t.toInt then [0x0609] else if 95 < t.toInt ∧ h.band ≠ 2 then [0x0608] else []) ∧ u.mem = s.mem)

/-- The timebase takes its step and rate only from the right parties, follows its reference, and paces PPS. TIME_STEP
adds its value to the counter before the first SEAL and is refused with LOCKED_WRITE (1) after it; TIME_RATE within
the limit is kept and a larger magnitude refused with RESERVED_VALUE (3); from another endpoint than CLU_0 to
CLU_15 and AON both are refused with TIME_DENIED (0x070B), changing nothing else. The loss of the reference enters
holdover and records TIME_REF_LOSS (0x0709); 1 ms after it is good again holdover ends; a PLL unlock records
TIME_PLL_UNLOCK (0x070A). PPS_OUT rises only while it is enabled and within WIDTH_MS after a multiple of 10⁹ plus
OFFSET_NS, and falls WIDTH_MS after it. PPS_IN latches the counter with VALID, and OVERFLOW when a stamp was there,
and raises event 32. (14_time_and_deadlines.md R299, 14_time_and_deadlines.md R300, 14_time_and_deadlines.md R301,
14_time_and_deadlines.md R303, 14_time_and_deadlines.md R323) -/
def Obligations.TimebaseReferenceAndPps : Prop :=
  ∀ (s : State),
    let t := s.time
    let set := fun (f : TimeSt → TimeSt) => { s with time := f s.time }
    let refused := fun (i : Instr) (a : Access) (code : Nat) => ∃ f : FaultMsg, f.code = code ∧ f.init = some (a.init, 2) ∧ f.cell = a.cell ∧
      exec i s = .next { s with flt := { s.flt with raised := s.flt.raised ++ [f] } }
    let faulted := fun (i : Instr) (u : State) (code : Nat) => ∃ f : FaultMsg, f.code = code ∧ exec i s = .next { u with flt := { s.flt with raised := s.flt.raised ++ [f] } }
    let party := fun (a : Access) => decide (a.init.toNat / 8 ≤ 15) || decide (a.init.toNat / 8 = 0x63)
    (∀ (a : Access) (v : Word),
      (party a = false → refused (.timeStepWrite a v) a 0x070B ∧ refused (.timeRateWrite a v) a 0x070B) ∧
      (party a = true → s.comp.isSealed = true → refused (.timeStepWrite a v) a 1) ∧
      (party a = true → s.comp.isSealed = false → exec (.timeStepWrite a v) s = .next { s with now := s.now + v }) ∧
      (party a = true → fld (stored s .timeCtrl 0xF8000030000) 23 16 * 256000 < (v.setWidth 32).toInt.natAbs → refused (.timeRateWrite a v) a 3) ∧
      (party a = true → (v.setWidth 32).toInt.natAbs ≤ fld (stored s .timeCtrl 0xF8000030000) 23 16 * 256000 →
        exec (.timeRateWrite a v) s = .next (store s 0xF8000030018 (v &&& 0xFFFFFFFF)))) ∧
    faulted .timeRefLoss (set (fun t => { t with holdover := true, refOk := false, goodSince := none })) 0x0709 ∧
    exec .refOk s = .next (set (fun t => { t with refOk := true, goodSince := some s.now, locked := t.locked || !t.holdover })) ∧
    (∀ g, t.goodSince = some g → t.holdover = true →
      (g.toNat + 1000000 ≤ s.now.toNat → exec .holdoverExit s = .next (set (fun t => { t with holdover := false, goodSince := none, locked := true }))) ∧
      (s.now.toNat < g.toNat + 1000000 → exec .holdoverExit s = .next s)) ∧
    faulted .timePllUnlock (set (fun t => { t with locked := false })) 0x070A ∧
    (∀ (k off w : Nat), off = fld (stored s .timePps 0xF8000030028) 63 32 → w = fld (stored s .timePps 0xF8000030028) 23 16 → off < 1000000000 → w ≤ 250 →
      (t.ppsOut = false → (stored s .timeCtrl 0xF8000030000).getLsbD 8 = true → k * 1000000000 + off ≤ s.now.toNat → s.now.toNat < k * 1000000000 + off + w * 1000000 →
        exec .ppsOutRise s = .next (set (fun t => { t with ppsOut := true, ppsRise := BitVec.ofNat 64 (k * 1000000000 + off) }))) ∧
      (t.ppsOut = true ∨ (stored s .timeCtrl 0xF8000030000).getLsbD 8 = false → exec .ppsOutRise s = .next s) ∧
      (t.ppsOut = true → t.ppsRise.toNat + w * 1000000 ≤ s.now.toNat → exec .ppsOutFall s = .next (set (fun t => { t with ppsOut := false }))) ∧
      (t.ppsOut = true → s.now.toNat < t.ppsRise.toNat + w * 1000000 → exec .ppsOutFall s = .next s)) ∧
    (s.comp.isSealed = false → s.now.toNat < 2 ^ 62 → exec .ppsInEdge s = .next { set (fun t => { t with
      ppsCap := s.now ||| 0x8000000000000000 ||| (if t.ppsCap.getLsbD 63 || t.ppsCap.getLsbD 62 then 0x4000000000000000 else 0) }) with
        sched := { s.sched with mld := s.sched.mld ++ [{ num := 32 }] } })

/-- A timer expires at its compare value, stamped with it; only its owner writes it; a late one fires at once. The
owner of timer n is the cell to which EVENT_ROUTE sends event 128 + n with TARGET 0, else the hypervisor.
TIMER_EXPIRY of an enabled timer whose compare value has come, while an owner cell is ACTIVE and the device outside
safe state, raises that event, stamped with the compare value, on its route: to its task, to the hypervisor, or to
Mladette firmware, or nowhere without a route; a one-shot timer (PERIODIC or PERIOD_NS 0) is disabled and a
periodic one's compare value advances by its period. Otherwise nothing happens. A write of TIME_TMR_CTRL_n or
TIME_TMR_CMP_n without the owner cell's ID is answered DECODE; with it, it sets mode, period and enable, or the
compare value; an enable, or a compare value, already past fires at once, stamped now, and a periodic timer then
passes over the expiries it skipped and counts them in MISSED. No other timer, no memory and no fault is touched by
an expiry. (14_time_and_deadlines.md R305, 14_time_and_deadlines.md R306, 14_time_and_deadlines.md R307,
03_composition_image.md R40, 03_composition_image.md R39) -/
def Obligations.TimersExpireAtTheirCompareValue : Prop :=
  ∀ (s : State) (n : BitVec 8),
    let e := 128 + n.toNat
    let x := getTimer s n.toNat
    let own := timerOwner s n.toNat
    let runs := ∀ c, own = some c → cellState s c = .active ∧ s.flt.safe = false
    let fires := fun (u : State) (y : Timer) (stamp : Word) => getTimer u n.toNat = y ∧ (∀ k, k ≠ n.toNat → getTimer u k = getTimer s k) ∧ u.mem = s.mem ∧ u.flt = s.flt ∧
      (s.comp.isSealed = false ∨ routeOf s.comp.live e = none → u.sched = s.sched) ∧
      ∀ r, s.comp.isSealed = true → routeOf s.comp.live e = some r →
        (ru8 r 6 = 0 → u.sched = { s.sched with evTasks := s.sched.evTasks ++ [{ num := e, tcb := ru16 r 4, stamp := stamp, dest := ru16 r 2, origin := some (ru16 r 2) }] }) ∧
        (ru8 r 6 = 1 → u.sched = { s.sched with evHv := s.sched.evHv ++ [{ cls := 0x18, detail := e, home := e % 16 }] }) ∧
        (ru8 r 6 = 2 → u.sched = { s.sched with mld := s.sched.mld ++ [{ num := e }] })
    -- the timer `y` after it fires late, at its compare value `c` or at the next one of its phase that lies ahead
    let late := fun (u : State) (y : Timer) => (y.periodic = false ∨ y.period = 0 → fires u { y with en := false } s.now) ∧
      (y.periodic = true → y.period ≠ 0 → s.now.toNat < 2 ^ 63 →
        let k := (s.now.toNat - y.cmp.toNat) / y.period.toNat
        let z := { y with cmp := y.cmp + BitVec.ofNat 64 ((k + 1) * y.period.toNat), missed := satAdd y.missed k }
        fires u z s.now ∧ s.now.toNat < z.cmp.toNat ∧ z.cmp.toNat ≤ s.now.toNat + y.period.toNat)
    (∀ r, s.comp.isSealed = true → routeOf s.comp.live e = some r → own = if ru8 r 6 = 0 then some (ru16 r 2) else none) ∧
    (s.comp.isSealed = false ∨ routeOf s.comp.live e = none → own = none) ∧
    (x.en = true → x.cmp.toNat ≤ s.now.toNat → runs → ∃ u, exec (.timerExpiry n) s = .next u ∧
      fires u (if x.periodic = true ∧ x.period ≠ 0 then { x with cmp := x.cmp + x.period.setWidth 64 } else { x with en := false }) x.cmp) ∧
    (x.en = false ∨ s.now.toNat < x.cmp.toNat ∨ ¬ runs → exec (.timerExpiry n) s = .next s) ∧
    (∀ (a : Access) (v : Word),
      (own = none ∨ a.cell.map (·.toNat) ≠ own → exec (.timerCtrlWrite a n v) s = .next (writeFailed s a.init a.cell 2 stDECODE (timeBase + 0x2000 + n.toNat * 0x10) 0) ∧
        exec (.timerCmpWrite a n v) s = .next (writeFailed s a.init a.cell 2 stDECODE (timeBase + 0x2008 + n.toNat * 0x10) 0)) ∧
      (∀ c, own = some c → a.cell.map (·.toNat) = some c →
        let y : Timer := { x with en := v.getLsbD 0, periodic := v.getLsbD 1, period := v.extractLsb' 32 32 }
        let z : Timer := { x with cmp := v }
        (v.getLsbD 0 = false ∨ x.en = true ∨ s.now.toNat < x.cmp.toNat ∨ ¬ runs → exec (.timerCtrlWrite a n v) s = .next (updTimer s n.toNat (fun _ => y))) ∧
        (v.getLsbD 0 = true → x.en = false → x.cmp.toNat ≤ s.now.toNat → runs → ∃ u, exec (.timerCtrlWrite a n v) s = .next u ∧ late u y) ∧
        (x.en = false ∨ s.now.toNat < v.toNat ∨ ¬ runs → exec (.timerCmpWrite a n v) s = .next (updTimer s n.toNat (fun _ => z))) ∧
        (x.en = true → v.toNat ≤ s.now.toNat → runs → ∃ u, exec (.timerCmpWrite a n v) s = .next u ∧ late u z)))

/-- Releases open jobs with their deadline; closes, deadlines and budgets end them DONE, MISSED or OVERRUN. For a job
of the composition, outside safe state. JOB_RELEASE_PERIODIC at a multiple of PERIOD_NS not yet taken opens an IDLE
job of a task without one, with the multiple plus REL_DEADLINE_NS as its deadline. JOB_CLOSE_ARRIVAL of an open job
whose budget is not exhausted ends it: DONE when the close is stamped at or before the deadline, MISSED otherwise.
DEADLINE_EXPIRY after the deadline with no timely close on its way ends it MISSED, and a deadline still to come
changes nothing. A miss raises DEADLINE_MISS (0x0701), class K or D by DEVICE_CRIT, with task and job in its
syndrome, and sends class DEADLINE. BUDGET_EXHAUSTION with OVERRUN_FAULT 0 closes the job OVERRUN, raises
BUDGET_OVERRUN (0x0702) and holds the task in BUDGET_HELD. (14_time_and_deadlines.md R308, 14_time_and_deadlines.md
R309, 14_time_and_deadlines.md R311, 14_time_and_deadlines.md R313, 14_time_and_deadlines.md R314,
14_time_and_deadlines.md R315) -/
def Obligations.JobsCloseMissOrOverrun : Prop :=
  ∀ (s : State) (j : BitVec 14) (r : Rec), jobRec s j.toNat = some r → s.flt.safe = false →
    let x := getJob s j.toNat
    let t := ru16 r 4
    let dl := x.deadline.toNat
    let done := fun (u : State) => (getJob u j.toNat).state = .idle ∧ (getJob u j.toNat).nDone = satAdd x.nDone 1 ∧ (getTcb u t).job = (if (getTcb s t).job = some j.toNat then none else (getTcb s t).job) ∧ u.flt = s.flt ∧ u.mem = s.mem
    let missed := fun (u : State) => (getJob u j.toNat).state = .idle ∧ (getJob u j.toNat).nMissed = satAdd x.nMissed 1 ∧
      (∃ f : FaultMsg, u.flt.raised = s.flt.raised ++ [f] ∧ f.code = 0x0701 ∧ f.cls = (if (ru16 r 6).testBit 0 then 3 else 2) ∧ f.cell = some (BitVec.ofNat 12 (ru16 r 2)) ∧
        f.syndrome = BitVec.ofNat 64 (t * 65536 + j.toNat)) ∧
      (∃ m : HvMsg, u.sched.evHv = s.sched.evHv ++ [m] ∧ m.cls = 0x0F ∧ m.detail = j.toNat) ∧ u.mem = s.mem
    (∀ k p, p = ru32 r 12 → k = max x.next 1 → p ≠ 0 → (ru16 r 6).testBit 2 = true → k * p ≤ s.now.toNat → x.state = .idle → (getTcb s t).job = none →
      (getTcb s t).state ≠ .budgetHeld → ∃ u, exec (.jobReleasePeriodic j) s = .next u ∧ (getJob u j.toNat).state = .opened ∧ (getJob u j.toNat).next = k + 1 ∧
        (getJob u j.toNat).deadline = BitVec.ofNat 64 (k * p) + BitVec.ofNat 64 (ru32 r 20) ∧ (getTcb u t).job = some j.toNat ∧ u.mem = s.mem) ∧
    (∀ k, k = max x.next 1 → s.now.toNat < k * ru32 r 12 → exec (.jobReleasePeriodic j) s = .next s) ∧
    (∀ st cs, s.time.closes = (j.toNat, st) :: cs → x.state = .opened → exhaustAt s r j.toNat = none →
      ∃ u, exec .jobCloseArrival s = .next u ∧ u.time.closes = cs ∧ if st.toNat ≤ dl then done u else missed u) ∧
    (x.state = .opened → (∀ c ∈ s.time.closes, c.1 ≠ j.toNat ∨ dl < c.2.toNat) → exhaustAt s r j.toNat = none →
      (dl < s.now.toNat → ∃ u, exec (.deadlineExpiry j) s = .next u ∧ missed u) ∧
      (s.now.toNat ≤ dl → exec (.deadlineExpiry j) s = .next s)) ∧
    (∀ e, x.state = .opened → exhaustAt s r j.toNat = some e → (∀ c ∈ s.time.closes, c.1 ≠ j.toNat ∨ e ≤ c.2.toNat) → e ≤ dl → (ru16 r 6).testBit 1 = false →
      (e ≤ s.now.toNat → (getTcb s t).state = .running → (getCore s (coreOfTask s t)).task = some t → (getCore s (coreOfTask s t)).discard = false → ∃ u, exec (.budgetExhaustion j) s = .next u ∧ (getJob u j.toNat).state = .idle ∧
        (getJob u j.toNat).nOverrun = satAdd x.nOverrun 1 ∧ (getTcb u t).state = .budgetHeld ∧ u.mem = s.mem ∧
        ∃ f : FaultMsg, u.flt.raised = s.flt.raised ++ [f] ∧ f.code = 0x0702) ∧
      (s.now.toNat < e → exec (.budgetExhaustion j) s = .next s))

/-- A write of TIME_WD_KICK with KEY 0x5A kicks the watchdog of the access's cell, a read returns its elapsed time.
TIME_WD_KICK written with KEY 0x5A by an access with a cell ID, while that cell's watchdog runs and the kick comes
within its window, restarts the window of that cell's watchdog and changes nothing else; without a cell ID nothing
changes; TIME_WD_KICK reads, in bits 63:32, the elapsed whole microseconds of the watchdog of the cell ID that the
access carries while that watchdog watches. (14_time_and_deadlines.md R319) -/
def Obligations.WatchdogKickOfTheCellOfTheAccess : Prop :=
  ∀ (s : State) (a : Access) (v : Word), v.toNat % 256 = 0x5A →
    (∀ c : CellId, a.cell = some c →
      let w := getWd s c.toNat
      let us := (s.now.toNat - w.base.toNat) / 1000
      (w.state = .first ∨ w.state = .running) → w.frozen = false →
      (us ≤ wdMax s c.toNat → (w.state = .running → wdMin s c.toNat ≤ us) →
        exec (.wdKick a v) s = .next (updWd s c.toNat (fun w => { w with state := .running, base := s.now }))) ∧
      (us < 2 ^ 32 → timeRead s a .timeWdKick 0 0xF80000300A0 = BitVec.ofNat 64 (us * 2 ^ 32))) ∧
    (a.cell = none → exec (.wdKick a v) s = .next s)

/-- A cell watchdog out of its window is recorded and stops; the device watchdog trips into safe state. A kick of a
running cell watchdog with another KEY, or before WD_MIN_US, records WD_EARLY (0x0705); WD_EXPIRED with no kick by
WD_MAX_US records WD_EXPIRED (0x0704); either stops the watchdog and sends class WATCHDOG; WD_EXPIRED before
WD_MAX_US, or of a watchdog that is off, stopped or frozen, does nothing. Of the device watchdog: TIME_DEV_WD_KICK
and TIME_DEV_WD from elsewhere than a Mladette pair are refused with TIME_DENIED (0x070B) and change nothing else;
a kick with KEY 0x5A within the window restarts it and turns WDO over; a wrong KEY, a kick outside the window, and
DEV_WATCHDOG with no kick by MAX_MS, record DEV_WATCHDOG (0x0707), hold WDO low and leave the device in safe state,
entered with that cause unless it was there; after that neither does anything more, and before MAX_MS, or while the
boot ROM waits, which kicks in time (R406), DEV_WATCHDOG does nothing. A write of TIME_DEV_WD with LOCK set from a
pair with MIN_MS below MAX_MS and MAX_MS at most 10,000 sets the window and locks it, nothing else; once locked the
window stays. (14_time_and_deadlines.md R318, 14_time_and_deadlines.md R319, 14_time_and_deadlines.md R321,
14_time_and_deadlines.md R322, 14_time_and_deadlines.md R323) -/
def Obligations.WatchdogsFailTheirWindows : Prop :=
  ∀ (s : State),
    (∀ (c : CellId), let w := getWd s c.toNat
      let us := (s.now.toNat - w.base.toNat) / 1000
      let on := (w.state = .first ∨ w.state = .running) ∧ w.frozen = false
      let failed := fun (u : State) (code : Nat) => (getWd u c.toNat).state = .stopped ∧ u.mem = s.mem ∧
        (∃ f : FaultMsg, u.flt.raised = s.flt.raised ++ [f] ∧ f.code = code ∧ f.cell = some (BitVec.ofNat 12 c.toNat)) ∧
        ∃ m : HvMsg, u.sched.evHv = s.sched.evHv ++ [m] ∧ m.cls = 0x11 ∧ m.detail = c.toNat
      (∀ (a : Access) (v : Word), on → a.cell = some c → us ≤ wdMax s c.toNat → (v.toNat % 256 ≠ 0x5A ∨ w.state = .running ∧ us < wdMin s c.toNat) →
        ∃ u, exec (.wdKick a v) s = .next u ∧ failed u 0x0705) ∧
      (on → wdMax s c.toNat ≤ us → ∃ u, exec (.wdExpired c) s = .next u ∧ failed u 0x0704) ∧
      (¬ on ∨ us < wdMax s c.toNat → exec (.wdExpired c) s = .next s)) ∧
    (let ns := s.now.toNat - s.time.devLast.toNat
     let lo := s.time.devMin.toNat * 1000000
     let hi := s.time.devMax.toNat * 1000000
     let tripped := fun (u : State) => u.time.devTripped = true ∧ u.time.wdo = false ∧ u.flt.safe = true ∧ u.flt.safeCause = (if s.flt.safe then s.flt.safeCause else .devWd) ∧ u.mem = s.mem ∧
       ∃ (f : FaultMsg) (fs : List FaultMsg), u.flt.raised = s.flt.raised ++ f :: fs ∧ f.code = 0x0707
     let refused := fun (i : Instr) => ∃ f : FaultMsg, f.code = 0x070B ∧ exec i s = .next { s with flt := { s.flt with raised := s.flt.raised ++ [f] } }
     (∀ (a : Access) (v : Word),
       (isMld a = false → refused (.devWdKick a v) ∧ refused (.devWdLock a v)) ∧
       (isMld a = true → s.time.devTripped = true → exec (.devWdKick a v) s = .next s) ∧
       (isMld a = true → s.time.devTripped = false → v.toNat % 256 = 0x5A → lo ≤ ns → ns ≤ hi →
         exec (.devWdKick a v) s = .next { s with time := { s.time with devLast := s.now, wdo := !s.time.wdo } }) ∧
       (isMld a = true → s.time.devTripped = false → v.toNat % 256 ≠ 0x5A ∨ ns < lo ∨ hi < ns → ∃ u, exec (.devWdKick a v) s = .next u ∧ tripped u) ∧
       (isMld a = true → s.time.devLock = false → fld v 47 32 < fld v 63 48 → fld v 63 48 ≤ 10000 → exec (.devWdLock a v) s = .next { s with time :=
         { s.time with devMax := BitVec.ofNat 16 (fld v 63 48), devMin := BitVec.ofNat 16 (fld v 47 32), devLock := true } }) ∧
       (isMld a = true → s.time.devLock = true → ∃ u, exec (.devWdLock a v) s = .next u ∧ u.time = s.time ∧ u.mem = s.mem)) ∧
     (s.time.devTripped = false → romWaits s = false → hi ≤ ns → ∃ u, exec .devWatchdog s = .next u ∧ tripped u) ∧
     (s.time.devTripped = true ∨ romWaits s = true ∨ ns < hi → exec .devWatchdog s = .next s))

/-- A fault takes its class, SEQ and reaction at the collector; its record is queued, then stored in the ring.
FAULT_RECORD_ARRIVAL takes the oldest detected fault: its class in force is the highest of the detecting logic's,
its REACTION record's and the raise of FLT_REACT while its cell is present, and SEQ is its source's counter, which
goes up by 1. A class C or O record joins the input queue; with 256 records waiting it is not stored: it is counted
lost by class and source and raises event 4. A class K fault makes its ACTIVE cell FAULTED and raises event 1. A
class D fault enters safe state and FLT_DREC keeps the first. FAULT_RECORD_STORE, while the ring is enabled and has
room beyond the reserve (class K and D: any room) and the fabric carries the write to its scratch slice, writes the
64-byte record at BASE plus 64 times HEAD modulo the size, advances HEAD and raises event 0 for a class C or O
record and event 3 as the ring becomes half full; without room the record is not stored; with the ring disabled,
the collector's stream blocked, or the fabric's structure changing it waits. (15_faults_and_recovery.md R324,
15_faults_and_recovery.md R325, 15_faults_and_recovery.md R326, 15_faults_and_recovery.md R333,
15_faults_and_recovery.md R336, 15_faults_and_recovery.md R337, 15_faults_and_recovery.md R339,
15_faults_and_recovery.md R340, 15_faults_and_recovery.md R330, 04_lankor_fabric.md R81) -/
def Obligations.FaultsAreClassedQueuedAndStored : Prop :=
  (∀ (s : State) (m : FaultMsg) (ms : List FaultMsg), s.flt.raised = m :: ms →
    let c := (classInForce s m).1
    let k := m.source.toNat
    let q := look (0 : BitVec 32) k s.flt.seqs
    let r : FaultRec := { msg := m, seq := q, cls := BitVec.ofNat 2 c, escalated := (classInForce s m).2.2, raised := (classInForce s m).2.1 }
    (∀ x : CellId, m.cell = some x → cellState s x.toNat ≠ .absent → c = max m.cls.toNat (max (reactionClass s m.code) (raiseClass s m.code))) ∧
    (c ≤ 1 → s.flt.queue.length < 256 →
      exec .faultRecordArrival s = .next { s with flt := { s.flt with raised := ms, seqs := put k (q + 1) s.flt.seqs, queue := s.flt.queue ++ [r] } }) ∧
    (c ≤ 1 → 256 ≤ s.flt.queue.length → ∃ u, exec .faultRecordArrival s = .next u ∧ u.flt = { s.flt with
      raised := ms, seqs := put k (q + 1) s.flt.seqs, lostBy := put k (satAdd (look (0 : BitVec 32) k s.flt.lostBy) 1) s.flt.lostBy
      lostC := if c = 0 then satAdd s.flt.lostC 1 else s.flt.lostC, lostO := if c = 1 then satAdd s.flt.lostO 1 else s.flt.lostO } ∧
      u.sched.mld = s.sched.mld ++ [{ num := 4 }] ∧ u.mem = s.mem) ∧
    (∀ x : CellId, c = 2 → m.cell = some x → cellState s x.toNat = .active → s.flt.queue.length < 256 →
      ∃ u, exec .faultRecordArrival s = .next u ∧ cellState u x.toNat = .faulted ∧ u.sched.mld = s.sched.mld ++ [{ num := 1 }] ∧ u.flt.queue = s.flt.queue ++ [r] ∧
        u.flt.seqs = put k (q + 1) s.flt.seqs ∧ u.mem = s.mem) ∧
    (c = 3 → s.flt.safe = false → s.flt.queue.length < 256 → ∃ u, exec .faultRecordArrival s = .next u ∧ u.flt.safe = true ∧ u.flt.safeCause = causeOf m.code ∧
      u.flt.queue = s.flt.queue ++ [r] ∧ u.flt.drec = (if s.flt.drec = [] then recBytes s r (lostOf s m.source) else s.flt.drec) ∧ u.mem = s.mem)) ∧
  (∀ (s : State) (r : FaultRec) (rs : List FaultRec), s.flt.queue = r :: rs →
    let n := 2 ^ s.flt.ringLog2.toNat
    let room := n - (s.flt.head - s.flt.tail).toNat
    let a := s.flt.ringBase.toNat + 64 * (s.flt.head.toNat % n)
    (∀ site, s.flt.ringEn = true → ringBlocked s = false → (if r.cls.toNat ≤ 1 then reserve s else 0) < room → regionOf a = .scratch site → pageLocked s a 64 = false →
      s.fab.fences.contains (0x10 + site) = false → armedInject s 1 site = none →
      (s.fab.changing = true → exec .faultRecordStore s = .next s) ∧
      (s.fab.changing = false → pathBoth s 0x63 (0x10 + site) = true → (∀ l ∈ s.fab.links, l.2.down = false) → ∃ u, exec .faultRecordStore s = .next u ∧
        u.mem = cellsPut a (recBytes s r (lostOf s r.msg.source)) s.mem ∧
        u.flt = { s.flt with queue := rs, head := s.flt.head + 1, lostBy := drop' r.msg.source.toNat s.flt.lostBy } ∧
        u.sched.mld = s.sched.mld ++ (if r.cls.toNat ≤ 1 then [{ num := 0 }] else []) ++ (if (s.flt.head + 1 - s.flt.tail).toNat = n / 2 then [{ num := 3 }] else []))) ∧
    (ringBlocked s = true → exec .faultRecordStore s = .next s) ∧
    (s.flt.ringEn = true → ringBlocked s = false → room = 0 → ∃ u, exec .faultRecordStore s = .next u ∧ u.flt.queue = rs ∧ u.flt.head = s.flt.head ∧ u.mem = s.mem ∧
      lostOf u r.msg.source = (satAdd (look (0 : BitVec 32) r.msg.source.toNat s.flt.lostBy) 1).toNat ∧ u.sched.mld = s.sched.mld ++ [{ num := 4 }]) ∧
    (s.flt.ringEn = false → exec .faultRecordStore s = .next s))

/-- The ring's enable and tail, block entry commands, FLT_SAFE_CMD, the fault pins, and pins that stop the device.
RING_EN set by a Mladette pair, with LOCK clear, takes effect over an aligned ring in scratch and is refused with
FLT_DENIED (0x0C07) otherwise or from another party. FLT_RING_TAIL moves within HEAD minus the ring size; any other
value is refused. RELEASE and DISCARD of a valid entry with its GEN by firmware or hypervisor are accepted; a wrong
GEN gives result 1, another party 2, a command under way 3. KEY 0xA5 from a pair enters safe state with FW_SAFE
(0x0C05); other writes are refused. SAFE_RELEASE takes effect for a pair after SEAL, verified, outside safe state.
FW_FAULT follows a pair's write. EXT_SAFE_N low through its filter enters safe state with EXT_SAFE (0x0C04); a rise
within the filter's time ends it, and a later one finds safe state entered. A lockstep mismatch stops its pair with
LOCKSTEP_MISMATCH (0x0C01), once, and no other core. (15_faults_and_recovery.md R332, 15_faults_and_recovery.md
R337, 15_faults_and_recovery.md R339, 15_faults_and_recovery.md R340, 15_faults_and_recovery.md R341,
15_faults_and_recovery.md R342, 15_faults_and_recovery.md R344) -/
def Obligations.RingBlockAndPinRegisters : Prop :=
  ∀ (s : State),
    let f := s.flt
    let set := fun (g : Flt → Flt) => { s with flt := g s.flt }
    let refused := fun (i : Instr) (a : Access) (code : Nat) => ∃ m : FaultMsg, m.code = code ∧ m.init = some (a.init, 2) ∧ exec i s = .next (set (fun f => { f with raised := f.raised ++ [m] }))
    (∀ (a : Access),
      let i : Instr := .ringEnWrite a (fltCtrlWord s ||| 2)
      f.lock = false → f.ringEn = false →
      (isMld a = true → ringPlacedOk s = true → ∃ u, exec i s = .next u ∧ u.flt = { f with ringEn := true } ∧ u.mem = s.mem) ∧
      (isMld a = false ∨ ringPlacedOk s = false → ∃ (u : State) (m : FaultMsg), exec i s = .next u ∧ u.flt = { f with raised := f.raised ++ [m] } ∧ m.code = 0x0C07 ∧ u.mem = s.mem)) ∧
    (∀ (a : Access) (v : Word),
      ((f.head - v.setWidth 32).toNat ≤ 2 ^ f.ringLog2.toNat → exec (.ringTailWrite a v) s = .next (set (fun f => { f with tail := v.setWidth 32 }))) ∧
      (2 ^ f.ringLog2.toNat < (f.head - v.setWidth 32).toNat → refused (.ringTailWrite a v) a 0x0C07) ∧
      (let e := v.toNat % 512
       let b := getBlock s e
       let good := b.valid = true ∧ b.gen.toNat = v.toNat / 65536 % 128
       let cmd := fun (rel : Bool) => if rel then Instr.blockRelease a v else .blockDiscard a v
       ∀ rel : Bool,
        (isMld a = true ∨ isHyp a = true → good → b.cmd = none →
          exec (cmd rel) s = .next (set (fun f => { f with blkResult := 0, blocks := put e { b with cmd := some rel } f.blocks }))) ∧
        (isMld a = true ∨ isHyp a = true → good → b.cmd ≠ none → exec (cmd rel) s = .next (set (fun f => { f with blkResult := 3 }))) ∧
        (isMld a = true ∨ isHyp a = true → ¬ good → exec (cmd rel) s = .next (set (fun f => { f with blkResult := 1 }))) ∧
        (isMld a = false → isHyp a = false → exec (cmd rel) s = .next (set (fun f => { f with blkResult := 2 })))) ∧
      (isMld a = true → v.toNat % 256 = 0xA5 → f.safe = false → ∃ (u : State) (m : FaultMsg) (ms : List FaultMsg), exec (.fltSafeCmd a v) s = .next u ∧
        u.flt.safe = true ∧ u.flt.safeCause = .fwSafe ∧ u.flt.raised = f.raised ++ m :: ms ∧ m.code = 0x0C05 ∧ u.mem = s.mem) ∧
      (isMld a = false ∨ v.toNat % 256 ≠ 0xA5 → refused (.fltSafeCmd a v) a 0x0C07) ∧
      (isMld a = true → s.comp.isSealed = true → s.boot.unverified = false → f.safe = false → exec (.safeRelease a v) s = .next (set (fun f => { f with safeRelease := true }))) ∧
      (isMld a = false ∨ s.comp.isSealed = false ∨ s.boot.unverified = true ∨ f.safe = true → refused (.safeRelease a v) a 0x0C07) ∧
      (isMld a = true → exec (.fwFault a v) s = .next (set (fun f => { f with fwFault := v.getLsbD 1 }))) ∧
      (isMld a = false → v.getLsbD 1 ≠ f.fwFault → refused (.fwFault a v) a 0x0C07)) ∧
    (f.extLevel = true → exec .extSafeNFall s = .next (set (fun f => { f with extLevel := false, extLow := some s.now }))) ∧
    (f.extLow = none → exec .extSafeNRise s = .next (set (fun f => { f with extLevel := true, extLow := none }))) ∧
    (∀ (t : Word) (us : Nat), f.extLow = some t → (if s.comp.isSealed then extSafe s.comp.live else (true, 0)) = (true, us) →
      (t.toNat + (if us = 0 then 50 else us * 1000) ≤ s.now.toNat → f.safe = false → ∃ (u : State) (m : FaultMsg) (ms : List FaultMsg), exec .extSafe s = .next u ∧
        u.flt.safe = true ∧ u.flt.safeCause = .extSafe ∧ u.flt.raised = f.raised ++ m :: ms ∧ m.code = 0x0C04 ∧ u.mem = s.mem) ∧
      (s.now.toNat < t.toNat + (if us = 0 then 50 else us * 1000) → exec .extSafe s = .next s) ∧
      (t.toNat + (if us = 0 then 50 else us * 1000) < s.now.toNat → f.safe = false → ∃ (u : State) (m : FaultMsg) (ms : List FaultMsg), exec .extSafeNRise s = .next u ∧
        u.flt.safe = true ∧ u.flt.safeCause = .extSafe ∧ u.flt.raised = f.raised ++ m :: ms ∧ m.code = 0x0C04 ∧ u.flt.extLevel = true ∧ u.flt.extLow = none ∧ u.mem = s.mem) ∧
      (s.now.toNat ≤ t.toNat + (if us = 0 then 50 else us * 1000) → exec .extSafeNRise s = .next (set (fun f => { f with extLevel := true, extLow := none })))) ∧
    (f.extLow = none → exec .extSafe s = .next s) ∧
    (∀ p : Fin 2,
      (f.pairStopped.contains p.val = false → ∃ (u : State) (m : FaultMsg), exec (.lockstepMismatch p) s = .next u ∧ (getCore u (128 + p.val)).mode = .safe ∧
        u.flt = { f with pairStopped := addSorted p.val f.pairStopped, raised := f.raised ++ [m] } ∧ m.code = 0x0C01 ∧ u.mem = s.mem ∧
        ∀ c, c ≠ 128 + p.val → getCore u c = getCore s c) ∧
      (f.pairStopped.contains p.val = true → exec (.lockstepMismatch p) s = .next s))

/-- A received frame goes to its filter's ring and is reported once its HDR is written; links and rings. On a port that
is up: a frame under 60 bytes, or with a bad FCS, is counted bad, and of the latter the bytes after the first 60
are written where its filter's ring would take it, with no HDR; one that no filter takes, and every gPTP frame,
goes to the host ring with HOST_RX_EN 1 and else is counted unmatched. A frame of the lowest matching filter is
kept; with elimination one with a new R-TAG number is kept, a duplicate is dropped and counted, and one beyond the
history is neither. A kept frame whose ring is enabled, has room and fits is written line by line: its bytes after
the first 60 at slot offset 64, the 24-byte trailer at the slot's end; its HDR's line, with the first 60 bytes,
follows; behind a frame of the cell that waits, or with NET's stream of the cell blocked, all its lines wait (the
model's choice, entry 68); with the ring full it is counted and recorded (0x0904); with the ring disabled or the
cell halted it is counted. RX_HDR_WRITE_DONE writes the waiting lines and HDR, advances PROD and raises the event.
CONS moves for the owner within PROD. EN = 1 by the owner of a disabled ring enables it, empty, if its place is
allowed, else RESULT says why. Sequence recovery starts afresh after 100 ms. A link going down is recorded
(0x0901). CAN XL: bus off is recorded (0x0906), puts the frame on the bus back in front, and recovery ends it; a
frame received goes to the channel's ring, as an unmatched one to the host ring, at once. (16_zone_network.md R348,
16_zone_network.md R351, 16_zone_network.md R352, 16_zone_network.md R353, 16_zone_network.md R354,
16_zone_network.md R355, 16_zone_network.md R356, 16_zone_network.md R357, 16_zone_network.md R361,
16_zone_network.md R368, 15_faults_and_recovery.md R330, 04_lankor_fabric.md R64) -/
def Obligations.FramesComeInToTheirRings : Prop :=
  -- the frame and trailer lines of a slot, and the line with its HDR
  let lines := fun (s : State) (g : Ring) (i : BitVec 16) (p filter : Nat) (fr : List Byte) => splitLines (slotAddr g i + 64) (fr.drop 60) ++
    splitLines (slotAddr g i + 2 ^ g.logSlot - 24) (natLe 8 (rxStart s p fr.length) ++ natLe 8 s.now.toNat ++ natLe 2 filter ++ natLe 1 (rxFlags p fr) ++ List.replicate 5 0)
  let head := fun (g : Ring) (i : BitVec 16) (p : Nat) (fr : List Byte) => (slotAddr g i, natLe 4 (i.toNat * 65536 + p * 4096 + fr.length) ++ fr.take 60)
  let count := fun (s : State) (k i : Nat) => setRing s k i { getRing s k i with overflow := satAdd (getRing s k i).overflow 1 }
  let lost := fun (s : State) (k i : Nat) (u : State) (o : Option Nat) => ∃ m : FaultMsg, m.code = 0x0904 ∧ m.cell = o.map (BitVec.ofNat 12) ∧ u = { count s k i with flt := { s.flt with raised := s.flt.raised ++ [m] } }
  let used := fun (g : Ring) => (g.prod - g.cons).toNat
  -- ETH_FRAME_RECEIVE
  (∀ (s : State) (p : Fin 10) (fr : List Byte),
    let filt := lowestFilter ((recsOf s.comp.live tFILTER).filter (filterHits p.val fr))
    let rx := exec (.ethFrameReceive p fr true) s
    (netUp s = false ∨ (getPort s p.val).up = false → ∀ ok, exec (.ethFrameReceive p fr ok) s = .next s) ∧
    (netUp s = true → (getPort s p.val).up = true →
      (∀ ok : Bool, fr.length < 60 → exec (.ethFrameReceive p fr ok) s = .next (updPort s p.val (fun x => { x with bad := satAdd x.bad 1 }))) ∧
      (60 ≤ fr.length → filt = none → exec (.ethFrameReceive p fr false) s = .next (updPort s p.val (fun x => { x with bad := satAdd x.bad 1 }))) ∧
      (∀ r, 60 ≤ fr.length → filt = some r →
        let g := getRing s 0 (ru16 r 2 - 1024)
        let n := (s.net.hdrs.filter (fun h => h.event = ru16 r 2 - 1024)).length
        let cell : Option CellId := some (BitVec.ofNat 12 (ru16 r 4))
        let takes := g.en = true ∧ cellState s (ru16 r 4) ≠ .halted ∧ fr.length + 28 ≤ 2 ^ g.logSlot ∧ used g + n < 2 ^ g.logSlots ∧
          netBlocked s cell = false ∧ ∀ h ∈ s.net.hdrs, h.cell = cell → h.lines.length ≤ 1
        let x := ioWrite netWriter 0 cell (splitLines (slotAddr g (g.prod + BitVec.ofNat 16 n) + 64) (fr.drop 60)) (updPort s p.val (fun x => { x with bad := satAdd x.bad 1 }))
        (¬ takes → exec (.ethFrameReceive p fr false) s = .next (updPort s p.val (fun x => { x with bad := satAdd x.bad 1 }))) ∧
        (takes → x.2 = .done → exec (.ethFrameReceive p fr false) s = .next x.1)) ∧
      (60 ≤ fr.length → typeOf fr = 0x88F7 ∨ filt = none →
        rx = .next (if (look 0 netBase s.regs).getLsbD 1 then (rxDirect s 3 0 p.val fr).1 else updPort s p.val (fun x => { x with unmatched := satAdd x.unmatched 1 }))) ∧
      (∀ r, 60 ≤ fr.length → typeOf fr ≠ 0x88F7 → filt = some r →
        ((ru8 r 18).testBit 0 = false → rx = .next (rxKeep s p.val r fr)) ∧
        ((ru8 r 18).testBit 0 = true → rtagOf fr = none → rx = .next (if (List.range 10).find? (fun q => (ru16 r 6).testBit q) = some p.val then rxKeep s p.val r fr else s)) ∧
        (∀ n, (ru8 r 18).testBit 0 = true → rtagOf fr = some n →
          let x := look ({} : Frer) (ru16 r 0) s.net.frer
          let fresh := ∀ l, x.last = some l → -32 < (n - l).toInt ∧ (n - l).toInt < 32 ∧ ((n - l).toInt ≤ 0 → x.hist.getLsbD (-(n - l).toInt).toNat = false)
          let twice := ∃ l, x.last = some l ∧ -32 < (n - l).toInt ∧ (n - l).toInt ≤ 0 ∧ x.hist.getLsbD (-(n - l).toInt).toNat = true
          (fresh → ∃ (F : Tbl Frer) (ms : List FaultMsg), (look {} (ru16 r 0) F).time = s.now ∧ (∀ m ∈ ms, m.code = 0x0903 ∧ m.cell = some (BitVec.ofNat 12 (ru16 r 4))) ∧
            rx = .next (rxKeep { s with net := { s.net with frer := F }, flt := { s.flt with raised := s.flt.raised ++ ms } } p.val r fr)) ∧
          (¬ fresh → ∃ u, rx = .next u ∧ (twice → getPort u p.val = { getPort s p.val with drop := satAdd (getPort s p.val).drop 1 }) ∧ (¬ twice → getPort u p.val = getPort s p.val) ∧
            u.net.hdrs = s.net.hdrs ∧ u.net.rx = s.net.rx ∧ u.mem = s.mem ∧ u.flt = s.flt))))) ∧
  -- the frame of a filter kept or lost
  (∀ (s : State) (p : Fin 10) (r : Rec) (fr : List Byte),
    let e := ru16 r 2 - 1024
    let g := getRing s 0 e
    let n := (s.net.hdrs.filter (fun h => h.event = e)).length
    let i := g.prod + BitVec.ofNat 16 n
    let cell : Option CellId := some (BitVec.ofNat 12 (ru16 r 4))
    let ws := lines s g i p.val (ru16 r 0) fr
    let held := fun (u : State) (ls : List (Nat × List Byte)) => { u with net := { u.net with hdrs := s.net.hdrs ++
      [{ event := e, index := i, hdr := BitVec.ofNat 32 (i.toNat * 65536 + p.val * 4096 + fr.length), stamp := s.now, cell := cell, lines := ls ++ [head g i p.val fr] }] } }
    let takes := g.en = true ∧ cellState s (ru16 r 4) ≠ .halted ∧ fr.length + 28 ≤ 2 ^ g.logSlot ∧ used g + n < 2 ^ g.logSlots
    (g.en = false ∨ cellState s (ru16 r 4) = .halted → rxKeep s p.val r fr = count s 0 e) ∧
    (g.en = true → cellState s (ru16 r 4) ≠ .halted → 2 ^ g.logSlot < fr.length + 28 → rxKeep s p.val r fr = updPort s p.val (fun x => { x with bad := satAdd x.bad 1 })) ∧
    (g.en = true → cellState s (ru16 r 4) ≠ .halted → fr.length + 28 ≤ 2 ^ g.logSlot → 2 ^ g.logSlots ≤ used g + n → lost s 0 e (rxKeep s p.val r fr) (some (ru16 r 4))) ∧
    (takes → netBlocked s cell = true ∨ (∃ h ∈ s.net.hdrs, h.cell = cell ∧ 1 < h.lines.length) → rxKeep s p.val r fr = held s ws) ∧
    (takes → netBlocked s cell = false → (∀ h ∈ s.net.hdrs, h.cell = cell → h.lines.length ≤ 1) → (ioWrite netWriter 0 cell ws s).2 = .done →
      rxKeep s p.val r fr = held (ioWrite netWriter 0 cell ws s).1 [] ∧ (s.cache.badTags = [] → (rxKeep s p.val r fr).mem = memAfter ws s.mem))) ∧
  -- a ring that reports a frame at once
  (∀ (s : State) (k i p : Nat) (fr : List Byte), k = 2 ∨ k = 3 →
    let g := getRing s k i
    let cell := (ringOwner s k i).map (BitVec.ofNat 12)
    let d := if 10 ≤ p then (drawFree s).2 else s
    let ws := lines s g g.prod p 0 fr ++ [head g g.prod p fr]
    let x := ioWrite netWriter 0 cell ws d
    (g.en = false → rxDirect s k i p fr = (count s k i, false)) ∧
    (g.en = true → 2 ^ g.logSlot < fr.length + 28 → rxDirect s k i p fr = (updPort s p (fun x => { x with bad := satAdd x.bad 1 }), false)) ∧
    (g.en = true → fr.length + 28 ≤ 2 ^ g.logSlot → 2 ^ g.logSlots ≤ used g → (rxDirect s k i p fr).2 = false ∧ lost s k i (rxDirect s k i p fr).1 (ringOwner s k i)) ∧
    (g.en = true → fr.length + 28 ≤ 2 ^ g.logSlot → used g < 2 ^ g.logSlots → netBlocked s cell = false → x.2 = .done →
      rxDirect s k i p fr = (setRing x.1 k i { g with prod := g.prod + 1 }, true) ∧ (s.cache.badTags = [] → x.1.mem = memAfter ws s.mem))) ∧
  (∀ (s : State),
    -- RX_HDR_WRITE_DONE
    (∀ (e : BitVec 12),
      let g := getRing s 0 e.toNat
      (netUp s = false ∨ (∀ h ∈ s.net.hdrs, h.event ≠ e.toNat) → exec (.rxHdrWriteDone e) s = .next s) ∧
      (∀ h, netUp s = true → s.net.hdrs.find? (fun h => h.event = e.toNat) = some h →
        let s0 := { s with net := { s.net with hdrs := s.net.hdrs.erase h } }
        (g.en = false → exec (.rxHdrWriteDone e) s = .next s0) ∧
        (g.en = true → netBlocked s h.cell = true → exec (.rxHdrWriteDone e) s = .next s) ∧
        (g.en = true → netBlocked s h.cell = false → (ioWrite netWriter 0 h.cell h.lines s0).2 = .done →
          ∃ u, exec (.rxHdrWriteDone e) s = .next u ∧ u.net.hdrs = s.net.hdrs.erase h ∧ getRing u 0 e.toNat = { g with prod := g.prod + 1 } ∧ (s.cache.badTags = [] → u.mem = memAfter h.lines s.mem) ∧
            ∀ r, s.comp.isSealed = true → routeOf s.comp.live (e.toNat + 1024) = some r → ru8 r 6 = 0 →
              u.sched.evTasks = s.sched.evTasks ++ [{ num := e.toNat + 1024, tcb := ru16 r 4, stamp := s.now, dest := ru16 r 2, origin := originOf s (e.toNat + 1024) }]))) ∧
    -- the registers of a ring
    (∀ (a : Access) (k : Fin 3) (i : BitVec 12) (v : Word), let g := getRing s k.val i.toNat
      let c : BitVec 16 := v.extractLsb' 16 16
      (k.val ≠ 1 → ringParty s a k.val i.toNat = true → (c - g.cons).toNat ≤ used g → exec (.ringConsWrite a k i v) s = .next (setRing s k.val i.toNat { g with cons := c })) ∧
      (k.val = 1 ∨ ringParty s a k.val i.toNat = false ∨ used g < (c - g.cons).toNat → exec (.ringConsWrite a k i v) s = .next s) ∧
      (ringParty s a k.val i.toNat = false → exec (.ringEnable a k i v) s = .next s) ∧
      (∀ b ls lz : Nat, v = BitVec.ofNat 64 (b * 4096 + ls * 256 + lz * 16 + 1) → b < 2 ^ 32 → 2 ≤ ls → ls ≤ 10 → 7 ≤ lz → lz ≤ 12 → ringParty s a k.val i.toNat = true →
        (g.en = false →
          let placed := ringPlaced s k.val i.toNat (b * 4096) (2 ^ (ls + lz))
          let full := decide (k.val = 1) && (headerSites (b * 4096) ls lz).any (fun t => decide (256 ≤ (look [] t s.net.watch).length))
          let now := { g with base := b * 4096, logSlots := ls, logSlot := lz }
          ∃ u, exec (.ringEnable a k i v) s = .next u ∧ u.mem = s.mem ∧
            getRing u k.val i.toNat = if placed = false then { now with result := 1 } else if full = true then { now with result := 2 } else { now with en := true, prod := 0, cons := 0, result := 0 }) ∧
        (g.en = true → g.base = b * 4096 → g.logSlots = ls → g.logSlot = lz → exec (.ringEnable a k i v) s = .next (setRing s k.val i.toNat { g with result := 0 })))) ∧
    (∀ f : BitVec 14, let x := look ({} : Frer) f.toNat s.net.frer
      (netUp s = true → x.last ≠ none → 100000000 ≤ (s.now - x.time).toNat → exec (.frerResetTimeout f) s = .next { s with net := { s.net with frer := put f.toNat { x with last := none, hist := 0 } s.net.frer } }) ∧
      (netUp s = false ∨ x.last = none ∨ (s.now - x.time).toNat < 100000000 → exec (.frerResetTimeout f) s = .next s)) ∧
    -- links and CAN XL
    (∀ p : Fin 10,
      ((getPort s p.val).up = true → ∃ (u : State) (m : FaultMsg), exec (.ethLinkDown p) s = .next u ∧ (getPort u p.val).up = false ∧ (getPort u p.val).queue = [] ∧ (getPort u p.val).wire = none ∧ (getPort u p.val).held = none ∧
        u.flt.raised = s.flt.raised ++ [m] ∧ m.code = 0x0901 ∧ u.mem = s.mem) ∧
      ((getPort s p.val).up = false → exec (.ethLinkDown p) s = .next s) ∧
      (netUp s = true → exec (.ethLinkUp p) s = .next (updPort s p.val (fun x => { x with up := true, preempt := (look 0xC00000 (bank 0xF8000700018 p.val) s.regs).getLsbD 8 }))) ∧
      (netUp s = false → exec (.ethLinkUp p) s = .next s)) ∧
    (∀ (ch : Fin 2) (fr : List Byte), let p := 10 + ch.val
      let halted := ∃ o, ownerOf s.comp.live 5 ch.val = some o ∧ cellState s o = .halted
      (netUp s = true → (getPort s p).busOff = false → ∃ m : FaultMsg, m.code = 0x0906 ∧ exec (.canxlBusOff ch) s = .next { updPort s p (fun x => { x with
        busOff := true, wire := none, queue := (x.wire.map (fun w => [w.1])).getD [] ++ x.queue }) with flt := { s.flt with raised := s.flt.raised ++ [m] } }) ∧
      (netUp s = false ∨ (getPort s p).busOff = true → exec (.canxlBusOff ch) s = .next s ∧ exec (.canxlFrameReceive ch fr) s = .next s) ∧
      (netUp s = true → exec (.canxlBusOffRecovery ch) s = .next (updPort s p (fun x => { x with busOff := false }))) ∧
      (netUp s = false → exec (.canxlBusOffRecovery ch) s = .next s) ∧
      (netUp s = true → (getPort s p).busOff = false → halted → exec (.canxlFrameReceive ch fr) s = .next (count s 2 ch.val)) ∧
      (netUp s = true → (getPort s p).busOff = false → ¬ halted → exec (.canxlFrameReceive ch fr) s =
        .next (if (rxDirect s 2 ch.val p fr).2 then raiseEvent (rxDirect s 2 ch.val p fr).1 (934 + ch.val) else (rxDirect s 2 ch.val p fr).1))))

/-- A committed slot is sent under gates and guard; a stream falls STALE or sends its safe frames. EGRESS_HDR_REPORT of
an enabled ring commits slot PROD when HDR holds SEQ = PROD and LEN in range: a LIVE or STALE stream becomes LIVE,
stamped now, and its frame queues at each live port of its mask; a stream in HOLD discards it; a frame that cannot
be read is committed and discarded (the model's choice, entry 68); otherwise it commits nothing.
PORT_TRANSMIT_START puts the chosen frame on an idle wire, or in place of a preemptable one that it stops; a cell
frame whose identity the guard refuses is never sent and counted in SPOOF; a stopped frame goes on when its gate is
open and nothing better waits. PORT_TRANSMIT_END clears the wire; a cell frame is done at the port, a safe frame is
counted once its last port has sent it (the model's choice, entry 39), a host frame is stamped and the sent slots
are freed. GATE_LIST_ENTRY puts in force the entry of now, of the replaced list until the new one's first cycle
start, and stops a preemptable frame whose gate closes. A LIVE stream with FRESH_US and no commit for it falls
STALE and records 0x0902. At a safe-frame instant a STALE or HOLD stream queues its filled safe frame at each due
port, once. HOST_TX_COMMIT by hypervisor or firmware commits the slots up to PROD. (16_zone_network.md R348,
16_zone_network.md R349, 16_zone_network.md R350, 16_zone_network.md R359, 16_zone_network.md R360,
16_zone_network.md R361, 16_zone_network.md R362, 16_zone_network.md R363, 16_zone_network.md R364,
16_zone_network.md R365, 16_zone_network.md R369, 15_faults_and_recovery.md R329) -/
def Obligations.FramesGoOutUnderTheirGuard : Prop :=
  (∀ (s : State),
    (∀ (i : BitVec 12), let n := i.toNat
      let g := getRing s 1 n
      let h := rdNat s (slotAddr g g.prod) 4
      let st := getStream s n
      let good := g.en = true ∧ h / 65536 = g.prod.toNat ∧ h % 4096 ≠ 0 ∧ h % 4096 + 4 ≤ 2 ^ g.logSlot
      let s0 := { s with net := { s.net with reports := s.net.reports.erase n } }
      let q := slotFrame s0 g g.prod (some (BitVec.ofNat 12 (streamCell s n)))
      (netUp s = false ∨ n ∉ s.net.reports → exec (.egressHdrReport i) s = .next s) ∧
      (netUp s = true → n ∈ s.net.reports →
        (¬ good → exec (.egressHdrReport i) s = .next s0) ∧
        (good → q.2 = none → exec (.egressHdrReport i) s = .next { q.1 with net := { q.1.net with reports := s.net.reports } }) ∧
        (∀ f, good → q.2 = some (stOK, f) → st.state = .live ∨ st.state = .stale → ∃ u, exec (.egressHdrReport i) s = .next u ∧ (getStream u n).state = .live ∧ (getStream u n).commit = s.now ∧
          (getRing u 1 n).prod = g.prod + 1 ∧ (s.cache.badTags = [] → u.mem = s.mem ∧ f = rdBytes s (slotAddr g g.prod + 4) (h % 4096)) ∧
          (∀ p, p ∈ streamPorts s n → portLive s p = true → (getPort u p).queue = (getPort s p).queue ++ [{ src := .cell n g.prod, tc := streamTc s n, bytes := f, ready := s.now }]) ∧
          (∀ p, p ∉ streamPorts s n ∨ portLive s p = false → (getPort u p).queue = (getPort s p).queue)) ∧
        (∀ x f, good → q.2 = some (x, f) → x ≠ stOK ∨ st.state = .hold → st.state ≠ .off → ∃ u, exec (.egressHdrReport i) s = .next u ∧
          (getStream u n).state = (if st.state = .hold then .hold else .live) ∧ (getStream u n).discarded = satAdd st.discarded 1 ∧ (getRing u 1 n).prod = g.prod + 1 ∧ u.net.ports = s.net.ports) ∧
        (∀ x f, good → q.2 = some (x, f) → st.state = .off → exec (.egressHdrReport i) s = .next (setRing q.1 1 n { g with prod := g.prod + 1 }))) ∧
      (netUp s = true → st.state = .live → 0 < freshNs s n → freshNs s n ≤ (s.now - st.commit).toNat → ∃ (u : State) (m : FaultMsg) (ms : List FaultMsg), exec (.streamFreshExpiry i) s = .next u ∧
        (getStream u n).state = .stale ∧ (getStream u n).since = s.now ∧ u.flt.raised = s.flt.raised ++ m :: ms ∧ m.code = 0x0902 ∧ u.mem = s.mem ∧ u.net.ports = s.net.ports) ∧
      (netUp s = false ∨ st.state ≠ .live ∨ freshNs s n = 0 ∨ (s.now - st.commit).toNat < freshNs s n → exec (.streamFreshExpiry i) s = .next s) ∧
      (let ps := (streamPorts s n).filter (fun p => safeDue s n p && portLive s p)
       (∀ r, netUp s = true → safeRec s n = some r → st.state = .stale ∨ st.state = .hold → ps ≠ [] → st.lastSafe ≠ some s.now →
         ∃ u, exec (.safeFrameInstant i) s = .next u ∧ (getStream u n).lastSafe = some s.now ∧ (getStream u n).nextCnt = (if ru8 r 2 = 0 then st.nextCnt else BitVec.ofNat 32 (nextCnt (ru8 r 2) st.nextCnt.toNat)) ∧
           (∀ p ∈ ps, (getPort u p).queue = (getPort s p).queue ++ [{ src := .safe n, tc := streamTc s n, bytes := fillSafe (isCan s n) r st.nextCnt.toNat, ready := s.now }]) ∧
           (∀ p, p ∉ ps → (getPort u p).queue = (getPort s p).queue) ∧ u.mem = s.mem ∧ u.flt = s.flt) ∧
       (netUp s = false ∨ safeRec s n = none ∨ st.state = .live ∨ st.state = .off ∨ ps = [] ∨ st.lastSafe = some s.now → exec (.safeFrameInstant i) s = .next s))) ∧
    (∀ (p : Fin 12), let x := getPort s p.val
      let ready := netUp s = true ∧ portLive s p.val = true ∧ x.busOff = false
      let goesOn := fun (y : TxFrame) (n : Nat) => exec (.portTransmitStart p) s = .next (if gateOpen s p.val y.tc then updPort s p.val (fun z => { z with wire := some (y, s.now), sent := n, held := none }) else s)
      (¬ ready → exec (.portTransmitStart p) s = .next s) ∧
      (∀ f t, x.wire = some (f, t) → mayStop s p.val f t = false ∨ pickFrame s p.val true = none → exec (.portTransmitStart p) s = .next s) ∧
      (ready → x.wire = none → x.held = none → pickFrame s p.val false = none → exec (.portTransmitStart p) s = .next s) ∧
      (∀ y n, ready → x.wire = none → x.held = some (y, n) → (∀ f, pickFrame s p.val false = some f → isExpress s p.val f = false) → goesOn y n) ∧
      (∀ f, ready → x.wire = none → pickFrame s p.val false = some f → x.held = none ∨ isExpress s p.val f = true →
        ((∀ k idx, f.src ≠ .cell k idx) → ∃ u, exec (.portTransmitStart p) s = .next u ∧ (getPort u p.val).wire = some (f, s.now) ∧ (getPort u p.val).queue = x.queue.erase f ∧ (getPort u p.val).held = x.held ∧ u.mem = s.mem ∧ u.flt = s.flt) ∧
        (∀ k idx, f.src = .cell k idx → identityOk s k f.bytes = false → ∃ u, exec (.portTransmitStart p) s = .next u ∧ (getPort u p.val).wire = none ∧
          (getStream u k).spoof = satAdd (getStream s k).spoof 1 ∧ (∀ t ∈ (getPort u p.val).queue, t.src ≠ .cell k idx) ∧ u.mem = s.mem ∧ u.flt = s.flt) ∧
        (∀ k idx, f.src = .cell k idx → identityOk s k f.bytes = true → ∃ (u : State) (g : TxFrame), exec (.portTransmitStart p) s = .next u ∧ (getPort u p.val).wire = some (g, s.now) ∧ g.src = f.src ∧ u.mem = s.mem ∧ u.flt = s.flt)) ∧
      (∀ y t f, ready → x.wire = some (y, t) → mayStop s p.val y t = true → pickFrame s p.val true = some f → (∀ k idx, f.src ≠ .cell k idx) →
        ∃ u, exec (.portTransmitStart p) s = .next u ∧ (getPort u p.val).wire = some (f, s.now) ∧ (getPort u p.val).held = some (y, sentBytes s p.val t) ∧ (getPort u p.val).queue = x.queue.erase f ∧ u.mem = s.mem ∧ u.flt = s.flt) ∧
      (netUp s = false ∨ x.wire = none → exec (.portTransmitEnd p) s = .next s) ∧
      (∀ f t, netUp s = true → x.wire = some (f, t) → ∃ u, exec (.portTransmitEnd p) s = .next u ∧ (getPort u p.val).wire = none ∧ (getPort u p.val).queue = x.queue ∧ ((∀ idx, f.src ≠ .host idx) → u.flt = s.flt ∧ u.mem = s.mem)) ∧
      (∀ f t, netUp s = true → x.wire = some (f, t) → idleSlope s p.val f.tc = 0 →
        let u := updPort s p.val (fun x => { x with wire := none, sent := 0 })
        (∀ k idx, f.src = .cell k idx → exec (.portTransmitEnd p) s = .next (freeSlots (updStream u k (fun y => { y with
          slots := y.slots.map (fun e => if e.index = idx then { e with ports := e.ports.filter (fun q => q ≠ p.val) } else e) })) k)) ∧
        (∀ k, f.src = .safe k → exec (.portTransmitEnd p) s = .next (if safeLast u f then updStream u k (fun y => { y with safeSent := satAdd y.safeSent 1 }) else u)) ∧
        (f.src = .boot → exec (.portTransmitEnd p) s = .next u) ∧
        (∀ idx, f.src = .host idx → let ws := splitLines (slotAddr s.net.hostTx idx + 2 ^ s.net.hostTx.logSlot - 24) (natLe 8 (t.toNat + 64 / portRate p.val) ++ natLe 8 s.now.toNat)
          ∃ (w : State) (c : BitVec 16), exec (.portTransmitEnd p) s = .next w ∧ w.net.hostTx = { s.net.hostTx with cons := c } ∧ (c = s.net.hostTx.prod ∨ hostBusy w c = true) ∧
            (∀ k, k < (c - s.net.hostTx.cons).toNat → hostBusy w (s.net.hostTx.cons + BitVec.ofNat 16 k) = false) ∧
            (netBlocked s none = true → w.mem = s.mem) ∧ (netBlocked s none = false → (ioWrite netWriter 0 none ws u).2 = .done → s.cache.badTags = [] → w.mem = memAfter ws s.mem)))) ∧
    (∀ (p : Fin 10), let x := getPort s p.val
      let new := findRec s.comp.live tGATE (fun r => ru8 r 0 = p.val)
      let starts := ∀ r, new = some r → cycleStarted r x.gateSwap.toNat s.now.toNat = true
      let at' := fun (r : Rec) => updPort s p.val (fun x => { x with gate := (gateAt r s.now.toNat).map (·.1) })
      let plain := fun (r : Rec) => x.wire = none ∨ x.preempt = false ∨ gateAt r s.now.toNat = none
      (netUp s = false → exec (.gateListEntry p) s = .next s) ∧
      (netUp s = true →
        (∀ r, x.oldGate = none → new = some r → plain r → exec (.gateListEntry p) s = .next (at' r)) ∧
        (x.oldGate = none → new = none → exec (.gateListEntry p) s = .next (updPort s p.val (fun x => { x with gate := none }))) ∧
        (∀ r, x.oldGate = some r → ¬ starts → plain r → exec (.gateListEntry p) s = .next (at' r)) ∧
        (∀ r o, x.oldGate = some o → starts → new = some r → plain r → exec (.gateListEntry p) s = .next (updPort s p.val (fun x => { x with oldGate := none, gate := (gateAt r s.now.toNat).map (·.1) }))) ∧
        (∀ o, x.oldGate = some o → new = none → exec (.gateListEntry p) s = .next (updPort s p.val (fun x => { x with oldGate := none, gate := none }))) ∧
        (∀ r f t i l, x.oldGate = none → new = some r → x.wire = some (f, t) → x.preempt = true → isExpress s p.val f = false → x.held = none → gateAt r s.now.toNat = some (i, l) → (gateBits r i).testBit f.tc = false →
          exec (.gateListEntry p) s = .next (updPort s p.val (fun x => { x with gate := some i, wire := none, sent := 0, held := some (f, min (sentBytes s p.val t) (wireLen p.val f - 64)) }))))) ∧
    (∀ (a : Access) (v : Word), let g := s.net.hostTx
      let n := (v.extractLsb' 0 16 - g.prod).toNat
      ((isHyp a = true ∨ isMld a = true) → g.en = true → n + (g.prod - g.cons).toNat ≤ 2 ^ g.logSlots → exec (.hostTxCommit a v) s = .next (hostCommit n s)) ∧
      ((isHyp a = false ∧ isMld a = false) ∨ g.en = false ∨ 2 ^ g.logSlots < n + (g.prod - g.cons).toNat → exec (.hostTxCommit a v) s = .next s))) ∧
  -- the host slots committed one by one
  (∀ (s : State) (n : Nat), let g := s.net.hostTx
    let h := slotHdr s g g.prod
    let p := h / 4096 % 16
    let q := slotFrame s g g.prod none
    let sent := 0 < h % 4096 ∧ h % 4096 + 4 ≤ 2 ^ g.logSlot ∧ p ≤ 9 ∧ portLive s p = true
    let u := setRing q.1 4 0 { g with prod := g.prod + 1 }
    hostCommit 0 s = s ∧
    (q.2 = none → hostCommit (n + 1) s = q.1) ∧
    (∀ f, q.2 = some (stOK, f) → sent → hostCommit (n + 1) s = hostCommit n (updPort u p (fun x => { x with queue := x.queue ++ [{ src := .host g.prod, tc := hostTc f, bytes := f, ready := s.now }] })) ∧
      (s.cache.badTags = [] → u.mem = s.mem ∧ f = rdBytes s (slotAddr g g.prod + 4) (h % 4096))) ∧
    (∀ x f, q.2 = some (x, f) → x ≠ stOK ∨ ¬ sent → hostCommit (n + 1) s = hostCommit n (freeHostSlots u)))

/-- A domain without a vote enters DOZE or OFF step by step, and a vote aborts the entry or wakes it. PWR_VOTE by a
cell with a VOTE record: ASSERT adds its vote with RESULT 1, wakes a domain in DOZE or OFF and aborts an entry
before its commit; WITHDRAW of a vote that is not the last has RESULT 1, of the last starts entry into IDLE_STATE
with RESULT 2 (with IDLE_STATE 0 the domain stays). Without the record RESULT is 5 and the write is refused with
0x0803. The hypervisor's vote acts alike; a TARGET_PS not slower than composed becomes the target, a slower one is
refused. Entry: quiet, the domain's endpoints are fenced; their transactions completed, it settles; at the commit
it is committed, or under sleep emulation runs on; at the end it is in DOZE or OFF with event 16, the scratch of an
SLC site in OFF reading zero, or waking if asked; an abort returns it to RUN, unfenced, with event 17; a wake ends
in RUN at the wanted state, unfenced. (18_power_management.md R380, 18_power_management.md R382,
18_power_management.md R383, 18_power_management.md R384, 18_power_management.md R385, 18_power_management.md R386,
18_power_management.md R388, 18_power_management.md R391) -/
def Obligations.DomainsSleepWithoutVotesAndWake : Prop :=
  ∀ (s : State),
    (∀ (a : Access) (v : Word) (d : Nat), d = v.toNat / 2 ^ 40 % 64 → d < 39 →
      (∀ c : CellId, a.cell = some c →
        let key := c.toNat * 64 + d
        let rest := s.pwr.votes.filter (fun v => v ≠ key)
        let left := voteCount { s with pwr := { s.pwr with votes := rest } } d
        let out := fun (i : Instr) (votes : List Nat) (r : BitVec 3) (dom : DomState) => ∃ u, exec i s = .next u ∧ u.pwr.votes = votes ∧ look ((0 : BitVec 3), 0) c.toNat u.pwr.results = (r, d) ∧
          (getDom u d).state = dom ∧ u.flt = s.flt ∧ u.mem = s.mem
        let st := (getDom s d).state
        (hasVote s c.toNat d = true →
          (st = .run → out (.pwrVoteAssert a v) (addSorted key s.pwr.votes) 1 .run) ∧
          (st = .doze ∨ st = .off → out (.pwrVoteAssert a v) (addSorted key s.pwr.votes) 1 .waking) ∧
          (st = .quieting ∨ st = .fencing ∨ st = .settling → out (.pwrVoteAssert a v) (addSorted key s.pwr.votes) 1 .aborting) ∧
          (st = .aborting ∨ st = .waking ∨ st = .committed → out (.pwrVoteAssert a v) (addSorted key s.pwr.votes) 1 st) ∧
          (s.pwr.votes.contains key = true → left ≠ 0 → out (.pwrVoteWithdraw a v) rest 1 st) ∧
          (s.pwr.votes.contains key = true → left = 0 → idleState s.comp.live d = 0 → out (.pwrVoteWithdraw a v) rest 1 st) ∧
          (s.pwr.votes.contains key = true → left = 0 → idleState s.comp.live d ≠ 0 → st = .run → out (.pwrVoteWithdraw a v) rest 2 .quieting) ∧
          (s.pwr.votes.contains key = false → out (.pwrVoteWithdraw a v) s.pwr.votes 1 st)) ∧
        (hasVote s c.toNat d = false → ∀ i, i = .pwrVoteAssert a v ∨ i = .pwrVoteWithdraw a v → ∃ f : FaultMsg, f.code = 0x0803 ∧
          exec i s = .next { s with pwr := { s.pwr with results := put c.toNat (5, d) s.pwr.results }, flt := { s.flt with raised := s.flt.raised ++ [f] } }))) ∧
    (∀ (a : Access) (v : Word) (d t : Nat), d = selDom s → t = v.toNat % 4 →
      let x := getDom s d
      (v.getLsbD 8 = true → x.hvVote = false → ∃ u, exec (.hvVoteWrite a v) s = .next u ∧ (getDom u d).hvVote = true ∧ (getDom u d).hvResult = 1 ∧
        (x.state = .doze ∨ x.state = .off → (getDom u d).state = .waking) ∧ (x.state = .run → (getDom u d).state = .run) ∧ u.flt = s.flt ∧ u.mem = s.mem) ∧
      (v.getLsbD 8 = false → x.hvVote = true → x.state = .run → s.comp.isSealed = true → ∃ u, exec (.hvVoteWrite a v) s = .next u ∧ (getDom u d).hvVote = false ∧ u.flt = s.flt ∧ u.mem = s.mem ∧
        if cellVotes s d + b2n (deviceVote s d) = 0 ∧ idleState s.comp.live d ≠ 0 then (getDom u d).state = .quieting ∧ (getDom u d).hvResult = 2 ∧ (getDom u d).goal = idleState s.comp.live d
        else (getDom u d).state = .run ∧ (getDom u d).hvResult = 1) ∧
      (d < 16 → t ≤ 2 → t ≠ x.target % 4 →
        (t ≤ composedSlowest s d → ∃ u, exec (.targetPsWrite a v) s = .next u ∧ (getDom u d).target = t ∧ u.flt = s.flt ∧ u.mem = s.mem ∧
          (x.state = .run → staysSlow s d = false → x.limited ≤ t → x.toPs = none → x.ps ≠ t → (getDom u d).toPs = some t)) ∧
        (composedSlowest s d < t → ∃ (u : State) (f : FaultMsg), exec (.targetPsWrite a v) s = .next u ∧ u.pwr = s.pwr ∧ u.flt.raised = s.flt.raised ++ [f] ∧ f.code = 0x0803))) ∧
    (∀ d : Fin 39, let k := d.val
      let x := getDom s k
      let clear := fun (u : State) => ∀ e ∈ domEps k, e ∉ u.fab.fences
      (x.state = .quieting → isQuiet s k x.goal = true → ∃ u, exec (.domainEntryQuiet d) s = .next u ∧ (getDom u k).state = .fencing ∧ (∀ e ∈ domEps k, e ∈ u.fab.fences) ∧ u.mem = s.mem ∧ (x.goal ≠ 2 → u.flt = s.flt)) ∧
      (x.state = .quieting → isQuiet s k x.goal = false → exec (.domainEntryQuiet d) s = .next s) ∧
      (x.state = .fencing → (∀ t ∈ s.fab.txns, t.done ≠ none ∨ t.dst ∉ domEps k) → ∃ u, exec (.domainEntryFenced d) s = .next u ∧ (getDom u k).state = .settling) ∧
      (x.state = .settling → (k < 32 ∨ 36 ≤ k ∨ ∀ j, j < 16 → asleep s (16 * (k - 32) + j) = true) →
        (sleepEmulated s = false → exec (.domainEntryCommit d) s = .next (updDom s k (fun x => { x with state := .committed }))) ∧
        (sleepEmulated s = true → ∃ u, exec (.domainEntryCommit d) s = .next u ∧ (getDom u k).state = .run ∧ (getDom u k).emulated = true ∧ clear u ∧ u.mem = s.mem ∧ u.sched.mld = s.sched.mld ++ [{ num := 16 }])) ∧
      (x.state = .committed → ∃ u, exec (.domainEntryDone d) s = .next u ∧ u.sched.mld = s.sched.mld ++ [{ num := 16 }] ∧
        (getDom u k).state = (if x.wakeAsked = true then .waking else if x.goal = 2 then .off else .doze) ∧ (x.goal ≠ 2 → u.mem = s.mem) ∧
        (x.goal = 2 → 16 ≤ k → k < 32 → ∀ b, rdByte u b = if 0xF0000000000 + (k - 16) * 0x200000 ≤ b ∧ b < 0xF0000000000 + (k - 15) * 0x200000 then 0 else rdByte s b)) ∧
      (x.state = .aborting → ∃ u, exec (.entryAbortDone d) s = .next u ∧ (getDom u k).state = .run ∧ clear u ∧ u.sched.mld = s.sched.mld ++ [{ num := 17 }] ∧ (x.starter = some none → (getDom u k).hvResult = 4) ∧ u.mem = s.mem) ∧
      (x.state = .waking → ∃ u, exec (.domainWakeDone d) s = .next u ∧ (getDom u k).state = .run ∧ clear u ∧ (32 ≤ k → (getDom u k).ps = 1) ∧
        (k < 32 → staysSlow s k = false → x.slowed = 0 → x.target ≤ composedSlowest s k → (getDom u k).ps = max x.target x.limited) ∧ (k < 32 → staysSlow s k = true → (getDom u k).ps = max (composedSlowest s k) x.limited) ∧ u.mem = s.mem) ∧
      (x.state = .run → x.wanted = false → exec (.domainEntryQuiet d) s = .next s ∧ exec (.domainEntryFenced d) s = .next s ∧ exec (.domainEntryCommit d) s = .next s ∧ exec (.domainEntryDone d) s = .next s ∧
        exec (.entryAbortDone d) s = .next s ∧ exec (.domainWakeDone d) s = .next s))

/-- Canaries raise and lower a domain's supply, heat slows it, and a PMIC or rail failure is recorded. A canary sample
of a domain in RUN is kept; over 950 per mille of the floor it is counted and raises the supply by 10 mV where the
regulator has headroom, or one more raise waits behind one that waits for the PMIC; over 1000 with the supply at
the top of its range it raises SPEED_FLOOR (0x0801), class D if the domain carries a safety cell, K for a real-time
cell, else C. A sleeping domain's sample reads 0. After 64 low samples of every canary SUPPLY_LOWER lowers it by 5
mV, never below the range and not while a raise on its rail is in progress. PS_CHANGE_DONE ends a change with the
state's bias, to a state no faster at its recorded level. PMIC_ECHO retires the oldest command and makes the raises
that waited, none beyond the range. A command not acknowledged for 10 µs, and a rail out of range, record 0x0802. A
sample is kept with its maximum; over LIMIT_C the thermal controller calls for the next slower state at most every
100 µs, at the slowest it raises event 18 once; below the hysteresis it gives one back. (02_handshake_timing.md
R19, 02_handshake_timing.md R20, 02_handshake_timing.md R21, 02_handshake_timing.md R22, 02_handshake_timing.md
R24, 18_power_management.md R384, 18_power_management.md R390, 18_power_management.md R392,
21_host_and_peripheral_ports.md R451) -/
def Obligations.SuppliesFollowCanariesAndHeat : Prop :=
  ∀ (s : State),
    (∀ (c : BitVec 8) (pm : BitVec 10), let d := canaryDom c.toNat
      let x := getDom s d
      let rs := if s.comp.isSealed then s.comp.live else []
      let rail := if d < 16 then 0 else 1
      (x.state ≠ .run → exec (.canarySample c pm) s = .next (updCanary s c.toNat (fun y => { y with last := 0 }))) ∧
      (x.state = .run → pm.toNat ≤ 950 → exec (.canarySample c pm) s = .next (updCanary s c.toNat (fun y => { y with last := pm, low := if pm.toNat < 850 then min 64 (y.low + 1) else 0 }))) ∧
      (x.state = .run → 950 < pm.toNat → x.mv + 10 ≤ psMax (supplyPs x) → x.raiseWaits = 0 → (x.mv + 20 ≤ railMv s rail ∨ railMv s rail = 900) →
        ∃ u, exec (.canarySample c pm) s = .next u ∧ (getDom u d).mv = x.mv + 10 ∧ (getCanary u c.toNat).last = pm ∧ (getCanary u c.toNat).warn = satAdd (getCanary s c.toNat).warn 1 ∧ u.flt = s.flt ∧ u.mem = s.mem) ∧
      (x.state = .run → 950 < pm.toNat → x.mv + 10 * x.raiseWaits + 10 ≤ psMax (supplyPs x) → x.raiseWaits ≠ 0 → ∃ u, exec (.canarySample c pm) s = .next u ∧ (getDom u d).mv = x.mv ∧
        (getDom u d).raiseWaits = x.raiseWaits + 1 ∧ u.flt = s.flt ∧ u.mem = s.mem) ∧
      (x.state = .run → 1000 < pm.toNat → psMax (supplyPs x) ≤ x.mv → ∃ (u : State) (f : FaultMsg) (fs : List FaultMsg), exec (.canarySample c pm) s = .next u ∧ u.flt.raised = s.flt.raised ++ f :: fs ∧ f.code = 0x0801 ∧
        f.cls = (if carriedOf rs d 2 ≠ [] then 3 else if carriedOf rs d 1 ≠ [] then 2 else 0) ∧ f.syndrome = BitVec.ofNat 64 (d * 256 + c.toNat) ∧
        (getCanary u c.toNat).floor = satAdd (getCanary s c.toNat).floor 1 ∧ u.mem = s.mem)) ∧
    (∀ d : Fin 32, let k := d.val
      let x := getDom s k
      let rail := if k < 16 then 0 else 1
      let free := (∀ j, j < 16 → let y := getDom s (rail * 16 + j); y.raiseWaits = 0 ∧ (∀ p, y.toPs = some p → y.ps ≤ p) ∧ y.state ≠ .waking) ∧ ∀ c ∈ s.pwr.pmic, c.rail = rail → c.up = false
      (x.state = .run → (∀ c ∈ canariesOf k, 64 ≤ (getCanary s c).low) → free → psMin (supplyPs x) + 5 ≤ x.mv → ∃ u, exec (.supplyLower d) s = .next u ∧ (getDom u k).mv = x.mv - 5 ∧ u.flt = s.flt ∧ u.mem = s.mem ∧
        ∀ c ∈ canariesOf k, (getCanary u c).low = 0) ∧
      (x.state ≠ .run ∨ (∃ c ∈ canariesOf k, (getCanary s c).low < 64) ∨ ¬ free ∨ x.mv < psMin (supplyPs x) + 5 → exec (.supplyLower d) s = .next s)) ∧
    (∀ d : Fin 39, let k := d.val
      let x := getDom s k
      (x.toPs = none → exec (.psChangeDone d) s = .next s) ∧
      (∀ ps, x.toPs = some ps → ps < x.ps → exec (.psChangeDone d) s = .next (updDom s k (fun x => { x with ps := ps, toPs := none, bias := if ps = 0 then .forward else .none, assist := if ps = 2 then .negBitline else .nominal }))) ∧
      (∀ ps, x.toPs = some ps → x.ps ≤ ps → k < 32 → ∃ u, exec (.psChangeDone d) s = .next u ∧ (getDom u k).ps = ps ∧ (getDom u k).toPs = none ∧ (getDom u k).mv = recordedMv s k ps ∧ u.flt = s.flt ∧ u.mem = s.mem)) ∧
    (s.pwr.pmic = [] → exec .pmicEcho s = .next s) ∧
    (∀ c cs, s.pwr.pmic = c :: cs → let x := getDom s c.dom
      (c.raises = 0 → exec .pmicEcho s = .next { s with pwr := { s.pwr with pmic := cs, pmicOk := cs.isEmpty } }) ∧
      (c.raises ≠ 0 → c.dom < 32 → ∃ u, exec .pmicEcho s = .next u ∧ u.pwr.pmic = cs ∧ (getDom u c.dom).mv = max x.mv (min (psMax (supplyPs x)) (x.mv + 10 * c.raises)) ∧
        (getDom u c.dom).raiseWaits = x.raiseWaits - c.raises ∧ u.flt = s.flt ∧ u.mem = s.mem)) ∧
    (let late := ∃ c ∈ s.pwr.pmic, 10000 ≤ (s.now - c.sent).toNat
     let failed := fun (i : Instr) => ∃ f : FaultMsg, f.code = 0x0802 ∧ f.cls = 3 ∧ exec i s = .next { s with pwr := { s.pwr with pmicOk := false }, flt := { s.flt with raised := s.flt.raised ++ [f] } }
     (late → failed .pwrPmicFail) ∧ (¬ late → exec .pwrPmicFail s = .next s) ∧ failed .railOutOfRange) ∧
    (∀ (i : Instr) (s1 : State) (d : Nat),
      (∃ f : Fin 39, i = .thermalStepTimer f ∧ s1 = s ∧ d = f.val) ∨
      (∃ (k : BitVec 6) (temp : BitVec 8) (old : Sensor), i = .thermalSample k temp ∧ sensorDom k.toNat = some d ∧ old = look {} k.toNat s.pwr.sensors ∧
        s1 = { s with pwr := { s.pwr with sensors := put k.toNat { temp := temp, max := if old.max.slt temp then temp else old.max } s.pwr.sensors } }) →
      let x := getDom s d
      let t := domTemp s1 d
      let ready := x.thermAt = 0 ∨ 100000 ≤ (s.now - x.thermAt).toNat
      (x.state = .run → limitC s d < t → ¬ ready → exec i s = .next s1) ∧
      (x.state = .run → ready → limitC s d < t → d < 32 → x.ps + 1 ≤ composedSlowest s d → x.ps < slowestState d → ∃ u, exec i s = .next u ∧ (getDom u d).limited = x.ps + 1 ∧ (getDom u d).thermAt = s.now ∧
        u.pwr.sensors = s1.pwr.sensors ∧ u.flt = s.flt ∧ u.mem = s.mem) ∧
      (x.state = .run → ready → limitC s d < t → 32 ≤ d ∨ slowestState d ≤ x.ps → x.crossed = false → ∃ u, exec i s = .next u ∧ (getDom u d).crossed = true ∧ u.sched.mld = s.sched.mld ++ [{ num := 18 }] ∧ u.flt = s.flt ∧ u.mem = s.mem) ∧
      (x.state = .run → ready → t < limitC s d - hystC s d → x.limited ≠ 0 → ∃ u, exec i s = .next u ∧ (getDom u d).limited = (if x.limited - 1 ≤ x.target then 0 else x.limited - 1) ∧ (getDom u d).thermAt = s.now ∧ u.flt = s.flt))

/-- Lifecycle, rollback, key gate and mailboxes answer Mladette firmware, and refuse any other party. From a Mladette
pair: BOOT_LC_CMD with KEY 0xC3 accepts DEVELOPMENT to PRODUCTION, PRODUCTION to RMA and any but END to END (RESULT
0), none of them taking back one accepted before, and refuses others (1) and any change while UNVERIFIED (2);
ROLLBACK.SET blows the bits written, not in RMA, in END or while UNVERIFIED; CHECK_HMAC and CHECK_ECDSA lock a
well-placed FREE region that meets no other region and start its check, BUSY (1) while one runs, CLOSED (2) or
refused (3) otherwise; UNLOCK frees the region; a check that ends leaves it CHECKED or FAILED. A mailbox write
keeps the value and raises event 48 or 49. Another party is refused with LOCKED_WRITE (1), changing nothing else,
but for the hypervisor at BOOT_MAILBOX_IN. (19_boot_and_trust.md R394, 19_boot_and_trust.md R396,
19_boot_and_trust.md R397, 19_boot_and_trust.md R405, 19_boot_and_trust.md R409) -/
def Obligations.LifecycleKeyGateAndMailboxes : Prop :=
  ∀ (s : State) (a : Access) (v : Word),
    let b := s.boot
    let set := fun (g : BootSt → BootSt) => { s with boot := g s.boot }
    let t : BitVec 2 := v.setWidth 2
    let allowed := (b.lc = 0 ∧ t = 1 ∨ b.lc = 1 ∧ t = 2 ∨ b.lc ≠ 3 ∧ t = 3) ∧ ∀ p, b.lcNext = some p → p.toNat ≤ t.toNat
    let r := b.kgSel
    let g := getRegion s r
    let refused := fun (i : Instr) => ∃ f : FaultMsg, f.code = 1 ∧ f.init = some (a.init, 2) ∧ exec i s = .next { s with flt := { s.flt with raised := s.flt.raised ++ [f] } }
    (isMld a = true → v.toNat / 256 % 256 = 0xC3 →
      (b.unverified = true → exec (.bootLcCmd a v) s = .next (set (fun b => { b with lcResult := 2 }))) ∧
      (b.unverified = false → allowed → exec (.bootLcCmd a v) s = .next (set (fun b => { b with lcResult := 0, lcNext := some t, lcBlown := some t }))) ∧
      (b.unverified = false → ¬ allowed → exec (.bootLcCmd a v) s = .next (set (fun b => { b with lcResult := 1 })))) ∧
    (isMld a = true → v.toNat / 256 % 256 ≠ 0xC3 → exec (.bootLcCmd a v) s = .next s) ∧
    (isMld a = true → (b.lc = 0 ∨ b.lc = 1) → b.unverified = false → exec (.bootRollbackSet a v) s = .next (set (fun b => { b with minBlown := b.minBlown ||| v.extractLsb' 32 32 }))) ∧
    (isMld a = true → b.lc = 2 ∨ b.lc = 3 ∨ b.unverified = true → exec (.bootRollbackSet a v) s = .next s) ∧
    (∀ ecdsa : Bool, let i : Instr := if ecdsa then .checkEcdsa a v else .checkHmac a v
      let placed := g.state = .free ∧ g.base % 4096 = 0 ∧ g.len ≠ 0 ∧ kgPlace (a.init.toNat % 8) g.base g.len = true ∧
        (∀ e ∈ b.regions, e.1 = r ∨ e.2.state = .free ∨ pagesMeet g.base g.len e.2.base e.2.len = false) ∧ ∀ p ∈ s.comp.locked, pagesMeet g.base g.len (p * 4096) 1 = false
      let closed := b.lc = 3 ∨ ecdsa = false ∧ b.unverified = true
      isMld a = true →
      (b.checking ≠ none → exec i s = .next (set (fun b => { b with kgResult := 1 }))) ∧
      (b.checking = none → closed → exec i s = .next (set (fun b => { b with kgResult := if ecdsa then 3 else 2 }))) ∧
      (b.checking = none → ¬ closed → placed → exec i s = .next (set (fun b => { b with regions := put r { g with state := .locked } b.regions, checking := some (r, ecdsa), kgResult := 0 }))) ∧
      (b.checking = none → ¬ closed → ¬ placed → exec i s = .next (set (fun b => { b with kgResult := 3 })))) ∧
    (isMld a = true →
      (b.checking = none → exec (.unlock a v) s = .next (set (fun b => { b with regions := put r { g with state := .free } b.regions, kgResult := 0 }))) ∧
      (b.checking ≠ none → exec (.unlock a v) s = .next (set (fun b => { b with kgResult := 1 })))) ∧
    (∀ (k : Fin 17) (ecdsa : Bool), b.checking = some (k.val, ecdsa) → b.rom ≠ .verifying →
      let q := getRegion s k.val
      let good := if ecdsa = true then recoveryOk s q.base q.len = true
        else macOf s (rdBytes s q.base q.len) = ((List.range 6).map (fun i => natLe 8 (b.expect.getD i 0).toNat)).flatten
      (good → exec (.kgCheckDone k) s = .next (set (fun b => { b with regions := put k.val { q with state := .checked } b.regions, checking := none }))) ∧
      (¬ good → exec (.kgCheckDone k) s = .next (set (fun b => { b with regions := put k.val { q with state := .failed } b.regions, checking := none })))) ∧
    ((isMld a = true ∨ isHyp a = true) → ∃ u, exec (.bootMailboxInWrite a v) s = .next u ∧ u.boot = { b with mailIn := v } ∧ u.sched.mld = s.sched.mld ++ [{ num := 48 }] ∧ u.flt = s.flt ∧ u.mem = s.mem) ∧
    (isMld a = true → ∃ u, exec (.bootMailboxOutWrite a v) s = .next u ∧ u.boot = { b with mailOut := v } ∧ u.sched.mld = s.sched.mld ++ [{ num := 49 }] ∧ u.flt = s.flt ∧ u.mem = s.mem) ∧
    (isMld a = false → refused (.bootLcCmd a v) ∧ refused (.bootRollbackSet a v) ∧ refused (.checkHmac a v) ∧ refused (.checkEcdsa a v) ∧ refused (.unlock a v) ∧
      refused (.bootMailboxOutWrite a v) ∧ refused (.coreRelease a v) ∧ refused (.coreReset a v) ∧ refused (.bootResetCmd a v) ∧ (isHyp a = false → refused (.bootMailboxInWrite a v)))

/-- At its reset entry a core reads 0 in every register, predicate, port and RC. A core that BOOT_CORE_CMD releases
from reset, or resets while it is locked up, for a Mladette pair and with BOOT_ENTRY on checked code, starts at
BOOT_ENTRY, and every register, predicate, operand port, result port and RC of it then reads 0; a RELEASE of all
cores does so to every held A-core, and of a core in another mode changes only RESULT. The address 259, BRU.PC,
reads where the core stands and is no register of it. (05_sotaivo_isa_model.md R90) -/
def Obligations.CoresStartFromZero : Prop :=
  ∀ (s : State) (a : Access) (v : Word) (k : Nat), k = v.toNat % 256 → isMld a = true → entryChecked s (decide (k = 0x81)) = true →
    let c := if k = 0x81 then 129 else k
    let m := (getCore s c).mode
    let begun := fun (u : State) (c : Nat) => (getCore u c).mode = .run ∧ (getCore u c).pc = BitVec.ofNat 64 s.boot.entry ∧ (getCore u c).level = 3 ∧
      ∀ p, p < 368 → p ≠ 259 → readAddr c (getCore u c) (getCore u c).ctx p = 0
    (k < 128 ∨ k = 0x81 → m = .held → ∃ u, exec (.coreRelease a v) s = .next u ∧ begun u c ∧ u.boot = { s.boot with coreResult := 0 } ∧ u.mem = s.mem ∧ ∀ d, d ≠ c → getCore u d = getCore s d) ∧
    (k < 128 ∨ k = 0x81 → m = .held ∨ m = .locked → ∃ u, exec (.coreReset a v) s = .next u ∧ begun u c ∧ u.boot = { s.boot with coreResult := 0 } ∧ u.mem = s.mem ∧ ∀ d, d ≠ c → getCore u d = getCore s d) ∧
    (k < 128 ∨ k = 0x81 → m ≠ .held → exec (.coreRelease a v) s = .next { s with boot := { s.boot with coreResult := 2 } }) ∧
    (k = 0xFF → ∃ u, exec (.coreRelease a v) s = .next u ∧ u.mem = s.mem ∧ ∀ d, if d < 128 ∧ (getCore s d).mode = .held then begun u d else getCore u d = getCore s d)

/-- The boot ROM takes slots from its sources and runs the one that passes, or the recovery loader receives an image.
BOOT_SOURCE_TIMEOUT, 5 s after the wait began, or over PCIe after the link came up, goes to the next source of the
list: a host's is waited for, a flash's or UFS's slots are judged at once, and with slot A alone passing every
check it runs; after the last source the loader starts with the FAIL causes as they stand. A boot frame in order is
written to its slot in scratch and answered on XG_1; the end frame has the slots judged: with slot A alone passing
every check slot A runs, pair 0 at its STAGE1 entry. A doorbell write keeps the bytes enabled and raises event 50.
The loader sends HELLO; it ACKs BEGIN with 0 and takes LENGTH, or 3 if it is over 480 KiB; DATA at the expected
offset goes to the SRAM of pair 0, at another is ACKed 2; END locks the region and starts its check, after which
the image runs, or the loader says hello again. A frame with a bad CRC is discarded. (19_boot_and_trust.md R400,
19_boot_and_trust.md R402, 19_boot_and_trust.md R403, 19_boot_and_trust.md R406, 19_boot_and_trust.md R407,
19_boot_and_trust.md R408, 21_host_and_peripheral_ports.md R446) -/
def Obligations.BootSourcesAndRecoveryLoader : Prop :=
  ∀ (s : State),
    let b := s.boot
    let set := fun (g : BootSt → BootSt) => { s with boot := g s.boot }
    let due := b.rom = .waiting ∧ ∃ t, b.waitFrom = some t ∧ 5000000000 ≤ (s.now - t).toNat
    (∀ k, due → (srcList s)[b.listPos + 1]? = some k → 3 ≤ k → exec .bootSourceTimeout s = .next (set (fun b => { b with
      listPos := b.listPos + 1, gotA := 0, gotB := 0, waitFrom := if k = 4 ∨ (getPcie s 0).l0 = true then some s.now else none }))) ∧
    (∀ k, due → (srcList s)[b.listPos + 1]? = some k → k < 3 →
      let A := flashSlot s.free k 0
      let B := flashSlot s.free k 1
      let skip := fun (x : Bool) => x && decide (b.skipSrc.toNat = k)
      slotCause s A (Config.flashLen s.free k 0) (skip b.skipA) = 0 → slotCause s B (Config.flashLen s.free k 1) (skip b.skipB) ≠ 0 →
        ∃ u, exec .bootSourceTimeout s = .next u ∧ u.boot.rom = .done ∧ u.boot.slot = false ∧ u.boot.failA = 0 ∧ u.boot.source = BitVec.ofNat 4 k ∧ u.boot.listPos = b.listPos + 1 ∧ (getCore u 128).mode = .run ∧
          (getCore u 128).pc = BitVec.ofNat 64 (partEntry A (stage1 A)) ∧ (getRegion u 2).state = .checked ∧ (getRegion u 2).base = partPa A (stage1 A) ∧ (getRegion u 2).len = partLen A (stage1 A)) ∧
    (due → (srcList s).length ≤ b.listPos + 1 → ∃ u, exec .bootSourceTimeout s = .next u ∧ u.boot.rom = .hello ∧ u.boot.failA = b.failA ∧ u.boot.failB = b.failB ∧ u.mem = s.mem) ∧
    (¬ due → exec .bootSourceTimeout s = .next s) ∧
    (∀ (f : List Byte), b.rom = .waiting → (srcList s)[b.listPos]? = some 4 → f.take 6 = deviceMac → beNat (bytesAt f 12 2) = 0x88B5 →
      let slot := leNat (bytesAt f 14 1)
      let off := leNat (bytesAt f 18 4)
      let d := f.drop 22
      let answer : TxFrame := { src := .boot, tc := 0, bytes := bytesAt f 6 6 ++ deviceMac ++ [0x88, 0xB5] ++ bytesAt f 14 8, ready := s.now }
      (slot ≤ 1 → off = (if slot = 0 then b.gotA else b.gotB) → 1 ≤ d.length → d.length ≤ 1400 → off + d.length ≤ 0x1000000 → pageLocked s (0xF0000000000 + slot * 0x1000000 + off) d.length = false →
        ∃ u, exec (.bootFrame f) s = .next u ∧ u.mem = cellsPut (0xF0000000000 + slot * 0x1000000 + off) d s.mem ∧ (getPort u 9).queue = (getPort s 9).queue ++ [answer] ∧
          u.boot = { b with gotA := if slot = 0 then off + d.length else b.gotA, gotB := if slot = 0 then b.gotB else off + d.length }) ∧
      (slot ≤ 1 → off ≠ (if slot = 0 then b.gotA else b.gotB) → exec (.bootFrame f) s = .next s) ∧
      (slot = 0xFF → slotCause s (memSlot s 0xF0000000000) b.gotA (b.skipA && decide (b.skipSrc = 4)) = 0 → slotCause s (memSlot s 0xF0001000000) b.gotB (b.skipB && decide (b.skipSrc = 4)) ≠ 0 →
        ∃ u, exec (.bootFrame f) s = .next u ∧ u.boot.rom = .done ∧ u.boot.slot = false ∧ u.boot.failA = 0 ∧ u.boot.source = 4 ∧ (getCore u 128).mode = .run ∧
          (getCore u 128).pc = BitVec.ofNat 64 (partEntry (memSlot s 0xF0000000000) (stage1 (memSlot s 0xF0000000000))))) ∧
    (∀ (a : Access) (v : Word), b.rom ≠ .waiting → ∃ u, exec (.pcieDoorbellWrite a v) s = .next u ∧ u.boot = b ∧ u.mem = s.mem ∧ u.sched.mld = s.sched.mld ++ [{ num := 50 }] ∧
      ∀ i, i < 4 → u.peri.doorbell.extractLsb' (8 * i) 8 = if v.getLsbD (32 + i) then v.extractLsb' (8 * i) 8 else s.peri.doorbell.extractLsb' (8 * i) 8) ∧
    (b.rom = .hello → ∃ u, exec .helloFrame s = .next u ∧ u.boot = { b with txSeq := b.txSeq + 1 } ∧ u.mem = s.mem ∧ ∃ payload : List Byte, payload.length = 28 ∧
      let body := natLe 1 1 ++ natLe 2 28 ++ natLe 2 b.txSeq.toNat ++ payload
      (look ({} : Serial) 0 u.peri.serial).tx = (look ({} : Serial) 0 s.peri.serial).tx ++ [0x7E] ++ body ++ natLe 2 (recCrc body)) ∧
    (b.rom ≠ .hello → exec .helloFrame s = .next s) ∧
    (∀ (f : List Byte), b.rom = .hello ∨ b.rom = .receiving →
      (parseRec f = none → exec (.beginFrame f) s = .next s ∧ exec (.dataFrame f) s = .next s ∧ exec (.endFrame f) s = .next s) ∧
      (∀ seq pl, parseRec f = some (2, seq, some pl) → pl.length = 4 →
        (leNat pl ≤ 491520 → exec (.beginFrame f) s = .next (ackRec (set (fun b => { b with rom := .receiving, recLen := leNat pl, recGot := 0 })) seq 0)) ∧
        (491520 < leNat pl → exec (.beginFrame f) s = .next (ackRec s seq 3))) ∧
      (∀ seq pl, parseRec f = some (3, seq, some pl) → 5 ≤ pl.length → b.rom = .receiving →
        let d := pl.drop 4
        (leNat (pl.take 4) = b.recGot → b.recGot + d.length ≤ b.recLen → pageLocked s (0xF0040100000 + b.recGot) d.length = false →
          ∃ u, exec (.dataFrame f) s = .next u ∧ u.mem = cellsPut (0xF0040100000 + b.recGot) d s.mem ∧ u.boot = { b with recGot := b.recGot + d.length, txSeq := b.txSeq + 1 }) ∧
        (leNat (pl.take 4) ≠ b.recGot ∨ b.recLen < b.recGot + d.length → exec (.dataFrame f) s = .next (ackRec s seq 2))) ∧
      (∀ seq, parseRec f = some (4, seq, some []) → b.rom = .receiving → exec (.endFrame f) s = .next (set (fun b => { b with
        regions := put 0 { base := 0xF0040100000, len := b.recLen, state := .locked } b.regions, rom := .verifying, checking := some (0, true), recSeq := BitVec.ofNat 16 seq })))) ∧
    (b.checking = some (0, true) → b.rom = .verifying →
      let g := getRegion s 0
      (recoveryOk s g.base g.len = true → ∃ u, exec (.kgCheckDone 0) s = .next u ∧ u.boot.rom = .done ∧ u.boot.recovery = true ∧ u.boot.source = 5 ∧ (getCore u 128).mode = .run ∧
        (getCore u 128).pc = BitVec.ofNat 64 (g.base + rdNat s (g.base + 0x10) 4) ∧ u.mem = s.mem) ∧
      (recoveryOk s g.base g.len = false → ∃ u, exec (.kgCheckDone 0) s = .next u ∧ u.boot.rom = .hello ∧ (getRegion u 0).state = .free ∧ u.boot.checking = none ∧ u.mem = s.mem))

/-- PORST_N and the device's own reset clear the machine; a warm reset keeps timebase, scratch, ring and SEQ. PORST_N
low and the device's own power-on reset leave nothing listed in memory, no core but at its reset value, nothing
composed, the timebase at 0. When neither lasts any more the boot starts: the strap is read, and the ROM waits for
its first source where a host is that, or holds in END, with pair 0 at the ROM until a slot runs. WARM_N, and
BOOT_RESET_CMD with KEY 0x3C by a pair, keep the timebase, scratch, the ring with HEAD, TAIL and FLT_DREC and the
sequence counters, lose all other memory (but for what the boot then copies from a flash to the SRAM of pair 0) and
start the boot; the command also takes the skip latch and SKIP_SRC, and WARM_N keeps it. While PORST_N is low
WARM_N is ignored; a command with another KEY does nothing. (15_faults_and_recovery.md R333, 19_boot_and_trust.md
R408, 19_boot_and_trust.md R411, 19_boot_and_trust.md R412, 22_electrical_and_package.md R463,
22_electrical_and_package.md R464) -/
def Obligations.ResetsKeepWhatTheRulesKeep : Prop :=
  ∀ (s : State),
    let cleared := fun (u : State) => u.mem = [] ∧ u.poison = [] ∧ u.cores = [] ∧ u.cells = [] ∧ u.regs = [] ∧ u.comp = ({} : State).comp ∧ u.sched = ({} : State).sched ∧ u.flt.seqs = [] ∧ u.flt.safe = false ∧
      u.boot.lc = 0 ∧ u.boot.lcBlown = s.boot.lcBlown ∧ u.boot.minBlown = s.boot.minBlown ∧ u.boot.rom = .reset
    let begins := fun (u : State) => (u.boot.rom ≠ .done → (getCore u 128).pc = 0xF0040000000) ∧ (∀ c, c ≠ 128 → getCore u c = {}) ∧
      u.boot.strap = (if strapLock = true ∧ (u.boot.lc = 1 ∨ u.boot.lc = 2) then 6 else u.boot.strapPins) ∧
      (u.boot.lc = 3 → u.boot.rom = .held) ∧ (∀ k, u.boot.lc ≠ 3 → (srcList u)[0]? = some k → 3 ≤ k → u.boot.rom = .waiting ∧ u.boot.listPos = 0) ∧ (u.boot.lc ≠ 3 → srcList u = [] → u.boot.rom = .hello)
    -- no flash or UFS is a source, so that no STAGE1 is copied before a host delivers one
    let hosts := fun (u : State) => ∀ k ∈ srcList u, 3 ≤ k
    let kept := fun (u : State) => u.now = s.now ∧ u.flt.seqs = s.flt.seqs ∧ u.flt.head = s.flt.head ∧ u.flt.tail = s.flt.tail ∧ u.flt.drec = s.flt.drec ∧ u.flt.ringBase = s.flt.ringBase ∧ u.flt.safe = false ∧
      u.comp = ({} : State).comp ∧ (hosts u → u.boot.regions = []) ∧ u.boot.lc = s.boot.lc ∧ u.boot.minBlown = s.boot.minBlown ∧
      ∀ p, hosts u ∨ p < 0xF0040100000 ∨ 0xF0040180000 ≤ p → rdByte u p = if 0xF0000000000 ≤ p ∧ p < 0xF0002000000 then rdByte s p else 0
    (∃ u, exec .porstNAssert s = .next u ∧ cleared u ∧ u.boot.porst = true) ∧ (∃ u, exec .powerOnReset s = .next u ∧ cleared u ∧ u.boot.por = true) ∧
    (∀ straps : BitVec 4,
      (s.boot.porst = true → s.boot.por = true → exec (.porstNRelease straps) s = .next { s with boot := { s.boot with porst := false, strapPins := straps.setWidth 3, testEn := straps.getLsbD 3 } }) ∧
      (s.boot.porst = true → s.boot.por = false → s.cores = [] → ∃ u, exec (.porstNRelease straps) s = .next u ∧ begins u ∧ u.boot.lc = fusedLc s ∧ u.boot.strapPins = straps.setWidth 3 ∧ (hosts u → u.mem = s.mem)) ∧
      (s.boot.porst = false → exec (.porstNRelease straps) s = .next s) ∧
      (s.boot.porst = true ∨ s.boot.por = true → exec (.warmN straps) s = .next s) ∧
      (s.boot.porst = false → s.boot.por = false → ∃ u, exec (.warmN straps) s = .next u ∧ kept u ∧ begins u ∧ u.boot.strapPins = straps.setWidth 3 ∧
        u.boot.skipA = s.boot.skipA ∧ u.boot.skipB = s.boot.skipB ∧ u.boot.skipSrc = s.boot.skipSrc)) ∧
    (s.boot.por = true → s.boot.porst = true → exec .powerOnResetEnd s = .next { s with boot := { s.boot with por := false } }) ∧
    (s.boot.por = true → s.boot.porst = false → s.cores = [] → ∃ u, exec .powerOnResetEnd s = .next u ∧ begins u ∧ u.boot.lc = fusedLc s ∧ (hosts u → u.mem = s.mem)) ∧
    (s.boot.por = false → exec .powerOnResetEnd s = .next s) ∧
    (∀ (a : Access) (v : Word), isMld a = true →
      (v.toNat % 256 = 0x3C → ∃ u, exec (.bootResetCmd a v) s = .next u ∧ kept u ∧ begins u ∧ u.boot.skipA = v.getLsbD 8 ∧ u.boot.skipB = v.getLsbD 9 ∧ u.boot.skipSrc = s.boot.source) ∧
      (v.toNat % 256 ≠ 0x3C → exec (.bootResetCmd a v) s = .next s))

/-- A debug session opens, controls and inspects cells and cores within its level, and closes. UPDATE_IR selects the
instruction; DBGREG_UPDATE reads a register into the TAP, writes the window, or is refused (2). At the session
port: BEGIN starts the certificate check, is refused 1 while a session exists and 2 in lockout or after 8 failures;
a good certificate leads to the challenge with a fresh private key, RESPOND within 1 s to its check, a match to
OPEN and the key erased; every failure, and a late response, ends in LOCKOUT with DBG_AUTH_FAIL (0x0B02) for 1 s.
CLOSE ends the session. DBG_HV_LIMIT is the hypervisor's. HALT stops the cores of a covered ACTIVE cell, which is
HALTED at once where none runs it; RESUME makes it ACTIVE; a pulse halts the listening cell; STEP, HALT and RESUME
act on a core; a stopped core's registers are read and written; the bus master issues one peeking read or one
write; EN starts the trace with its buffer pointer at 0, and is refused (1) for SINK 1 without a session.
(20_debug_and_trace.md R413, 20_debug_and_trace.md R414, 20_debug_and_trace.md R415, 20_debug_and_trace.md R417,
20_debug_and_trace.md R419, 20_debug_and_trace.md R420, 20_debug_and_trace.md R422, 20_debug_and_trace.md R424,
20_debug_and_trace.md R426, 20_debug_and_trace.md R429, 20_debug_and_trace.md R432, 20_debug_and_trace.md R439) -/
def Obligations.DebugSessionsAndRunControl : Prop :=
  ∀ (s : State),
    let d := s.dbg
    let set := fun (g : DbgSt → DbgSt) => { s with dbg := g s.dbg }
    let locked := fun (i : Instr) => ∃ f : FaultMsg, f.code = 0x0B02 ∧ exec i s = .next { set (fun d => { d with
      auth := .lockout, since := s.now, port := none, responding := false, fails := satAdd d.fails 1, certLevel := 0, ephKey := 0, cert := [], nonce := [] }) with flt := { s.flt with raised := s.flt.raised ++ [f] } }
    (∀ ir : BitVec 5, exec (.updateIr ir) s = .next (set (fun d => { d with ir := ir }))) ∧
    (∀ (scan : BitVec 80) (r : Reg) (n : Nat), d.ir = 8 → d.tapStatus ≠ 1 → scan.extractLsb' 78 2 = 0 → dbgAt ((scan.extractLsb' 64 13).toNat * 8) = some (r, n) →
      (dbgReach s true r = false → exec (.dbgregUpdate scan) s = .next (set (fun d => { d with tapStatus := 2 }))) ∧
      (dbgReach s true r = true → scan.getLsbD 77 = false → r ≠ .dbgTrcLost →
        exec (.dbgregUpdate scan) s = .next (set (fun d => { d with tapStatus := 0, tapData := dbgRead s r n (0xF8000070000 + (scan.extractLsb' 64 13).toNat * 8) }))) ∧
      (dbgReach s true r = true → scan.getLsbD 77 = true → r = .dbgAuthData → exec (.dbgregUpdate scan) s = .next (set (fun d => { d with tapStatus := 0, window := put n (scan.setWidth 64) d.window })))) ∧
    (∀ (scan : BitVec 80), d.ir ≠ 8 → exec (.dbgregUpdate scan) s = .next s) ∧
    (∀ (a : Access) (v : Word), d.port ≠ some false →
      (d.port = none → d.auth ≠ .lockout ∨ d.since.toNat + 1000000000 ≤ s.now.toNat → d.fails.toNat < 8 →
        exec (.dbgBegin a v) s = .next (set (fun d => { d with auth := .checking, since := s.now, port := some true, authResult := 0, responding := false }))) ∧
      (d.port = some true → exec (.dbgBegin a v) s = .next (set (fun d => { d with authResult := 1 }))) ∧
      (d.port = none → d.auth = .lockout ∧ s.now.toNat < d.since.toNat + 1000000000 ∨ 8 ≤ d.fails.toNat → exec (.dbgBegin a v) s = .next (set (fun d => { d with authResult := 2 }))) ∧
      (d.auth = .challenged → s.now.toNat ≤ d.since.toNat + 1000000000 → exec (.dbgRespond a v) s = .next (set (fun d => { d with auth := .checking, responding := true, authResult := 0 }))) ∧
      (d.auth = .challenged → d.since.toNat + 1000000000 < s.now.toNat → locked (.dbgRespond a v)) ∧
      (d.auth ≠ .challenged → exec (.dbgRespond a v) s = .next (set (fun d => { d with authResult := 3 }))) ∧
      (d.port = some true → ∃ u, exec (.closeSession a v) s = .next u ∧ u.dbg.auth = .idle ∧ u.dbg.port = none ∧ u.dbg.level = 0 ∧ u.dbg.window = [] ∧ u.dbg.stmMask = [] ∧ u.mem = s.mem) ∧
      (isHyp a = false → ∃ f : FaultMsg, f.code = 1 ∧ exec (.dbgHvLimitWrite a v) s = .next { s with flt := { s.flt with raised := s.flt.raised ++ [f] } }) ∧
      (isHyp a = true → ∃ u, exec (.dbgHvLimitWrite a v) s = .next u ∧ fld (stored u .dbgHvLimit 0xF8000070010) 1 0 = v.toNat % 4 ∧ u.dbg.level = BitVec.ofNat 2 (grantedLevel u) ∧ u.mem = s.mem) ∧
      (let c := selCell s
       let l := d.level.toNat
       let x := getDbgCell s c
       let cover := l ≠ 0 ∧ runCover s l c = true
       let rs := runningCores s c
       (¬ cover → ∀ i, i = .dbgCellHalt a v ∨ i = .dbgCellResume a v → exec i s = .next (updDbgCell s c (fun x => { x with result := 1 }))) ∧
       (cover → cellState s c ≠ .active → exec (.dbgCellHalt a v) s = .next (updDbgCell s c (fun x => { x with result := 2 }))) ∧
       (cover → cellState s c = .active → x.waiting = [] → debugMode s c = false → ctiIn s c = 0 → isSafety s.comp.live c = false ∨ production s = false →
        ∃ u, exec (.dbgCellHalt a v) s = .next u ∧ (getDbgCell u c).result = 0 ∧ (getDbgCell u c).cause = 1 ∧ u.mem = s.mem ∧ if rs = [] then cellState u c = .halted else ∀ n ∈ rs, (getCore u n).stopReq = true) ∧
       (cover → cellState s c = .halted → ∃ u, exec (.dbgCellResume a v) s = .next u ∧ (getDbgCell u c).result = 0 ∧ cellState u c = .active ∧ u.mem = s.mem) ∧
       (cover → cellState s c ≠ .halted → x.waiting = [] → exec (.dbgCellResume a v) s = .next (updDbgCell s c (fun x => { x with result := 2 })))) ∧
      (∀ c, s.dbg.cells.map (·.1) = [c] → cellState s c = .active → ctiOut s c &&& v.toNat % 65536 ≠ 0 → (getDbgCell s c).waiting = [] → debugMode s c = false → isSafety s.comp.live c = false ∨ production s = false →
        ∃ u, exec (.dbgCtiPulse a v) s = .next u ∧ (getDbgCell u c).cause = 2 ∧ u.mem = s.mem ∧ if runningCores s c = [] then cellState u c = .halted else ∀ n ∈ runningCores s c, (getCore u n).stopReq = true) ∧
      ((∀ e ∈ s.dbg.cells, cellState s e.1 ≠ .active ∨ ctiOut s e.1 &&& v.toNat % 65536 = 0 ∨ (getDbgCell s e.1).waiting ≠ []) → exec (.dbgCtiPulse a v) s = .next s) ∧
      (let c := selCore s
       let k := getCore s c
       let l := d.level.toNat
       let put' := fun (g : Core → Core) (r : BitVec 2) => updDbg (updCore s c g) (fun d => { d with coreResult := r })
       (∀ x, k.cell = some x → l ≠ 0 → runCover s l x = true → k.mode = .stopped → k.task ≠ none → cellState s x = .halted → exec (.dbgCoreStep a v) s = .next (put' (fun k => { k with mode := .run, stepOne := true }) 0)) ∧
       (∀ x, k.cell = some x → l = 0 ∨ runCover s l x = false → exec (.dbgCoreStep a v) s = .next (set (fun d => { d with coreResult := 1 }))) ∧
       (l ≠ 3 → ∀ i, i = .dbgCoreHalt a v ∨ i = .dbgCoreResume a v → exec i s = .next (set (fun d => { d with coreResult := 1 }))) ∧
       (l = 3 → haltable k = true → k.mode ≠ .stopped → ∃ u, exec (.dbgCoreHalt a v) s = .next u ∧ getCore u c = { k with stopReq := true } ∧ c ∈ u.dbg.coreHalts ∧ u.dbg.coreResult = 0 ∧ u.mem = s.mem) ∧
       (l = 3 → haltable k = false → exec (.dbgCoreHalt a v) s = .next (set (fun d => { d with coreResult := 2 }))) ∧
       (l = 3 → d.coreHalts.contains c = true → ∃ u, exec (.dbgCoreResume a v) s = .next u ∧ (getCore u c).mode = (if k.mode = .stopped then startMode k c else k.mode) ∧ c ∉ u.dbg.coreHalts ∧ u.dbg.coreResult = 0 ∧ u.mem = s.mem) ∧
       (l = 3 → d.coreHalts.contains c = false → exec (.dbgCoreResume a v) s = .next (set (fun d => { d with coreResult := 2 }))) ∧
       (k.mode ≠ .stopped → ∃ u, exec (.dbgCoreAcc a v) s = .next u ∧ u.dbg.accResult = 2 ∧ u.cores = s.cores) ∧
       (∀ g, k.mode = .stopped → coreCover s c = true → v.toNat % 65536 = g → g < 64 → v.toNat / 65536 % 4 = 0 → k.ctx.pendGroups = 0 →
        (v.getLsbD 20 = false → ∃ u, exec (.dbgCoreAcc a v) s = .next u ∧ u.dbg.accResult = 0 ∧ stored u .dbgCoreData 0xF8000070060 = look 0 g k.ctx.g ∧ u.cores = s.cores ∧ u.mem = s.mem) ∧
        (v.getLsbD 20 = true → ∃ u, exec (.dbgCoreAcc a v) s = .next u ∧ u.dbg.accResult = 0 ∧ look 0 g (getCore u c).ctx.g = stored s .dbgCoreData 0xF8000070060 ∧ u.mem = s.mem))) ∧
      (∀ write : Bool, let i : Instr := if write then .dbgBusWrite a v else .dbgBusRead a v
        let n := if v.toNat / 65536 % 4 = 2 then 4 else 8
        let at0 := (stored s .dbgBusAddr 0xF8000070078).toNat / n * n
        d.busBusy = false → 2 ≤ v.toNat / 65536 % 4 →
        (d.level = 3 → v.getLsbD 12 = true → at0 < 2 ^ 44 → (write = true → d.busBlocked = false) → ∃ (u : State) (t : Txn), exec i s = .next u ∧ u.dbg.busBusy = true ∧ u.fab.waiting = s.fab.waiting ++ [t] ∧ u.mem = s.mem ∧
          t.init = 0x321 ∧ t.peek = !write ∧ t.kind = (if write then .write else .read) ∧ t.addr = at0 ∧ t.size = n ∧ t.cell = some (v.setWidth 12) ∧
          t.data = if write then natLe n (stored s .dbgBusData 0xF8000070080).toNat else []) ∧
        (d.level = 0 → ∃ u, exec i s = .next u ∧ u.dbg.busResult = 0xA ∧ u.fab = s.fab ∧ u.mem = s.mem) ∧
        (d.level = 3 → v.getLsbD 12 = true → write = true → d.busBlocked = true → ∃ u, exec i s = .next u ∧ u.dbg.busResult = 0xB ∧ u.fab = s.fab ∧ u.mem = s.mem)) ∧
      ((stored s .dbgTrcCtrl 0xF8000070088).getLsbD 0 = false →
        (v.getLsbD 1 = false → ∃ u, exec (.traceEnable a v) s = .next u ∧ (stored u .dbgTrcCtrl 0xF8000070088).getLsbD 0 = true ∧ u.dbg.trcResult = 0 ∧ u.dbg.tbPtr = 0 ∧ u.dbg.wrapped = false ∧ u.mem = s.mem) ∧
        (v.getLsbD 1 = true → d.auth ≠ .opened → ∃ u, exec (.traceEnable a v) s = .next u ∧ (stored u .dbgTrcCtrl 0xF8000070088).getLsbD 0 = false ∧ u.dbg.trcResult = 1 ∧ u.mem = s.mem))) ∧
    (d.auth = .checking → d.responding = false → certOk s = true → ∃ u, exec .dbgCertCheckDone s = .next u ∧ u.dbg.auth = .challenged ∧ u.dbg.since = s.now ∧
      u.dbg.certLevel = (winByte s 5).setWidth 2 ∧ u.dbg.cert = winBytes s 0 0x180 ∧ 1 ≤ u.dbg.ephKey ∧ u.dbg.ephKey < ecN ∧ u.mem = s.mem ∧ u.flt = s.flt) ∧
    (d.auth = .checking → d.responding = false → certOk s = false → locked .dbgCertCheckDone) ∧
    (d.auth = .checking → d.responding = true → responseOk s = true → ∃ u, exec .dbgRespondCheckDone s = .next u ∧ u.dbg.auth = .opened ∧ u.dbg.responding = false ∧ u.dbg.ephKey = 0 ∧ u.mem = s.mem) ∧
    (d.auth = .checking → d.responding = true → responseOk s = false → locked .dbgRespondCheckDone) ∧
    (d.auth = .challenged → d.since.toNat + 1000000000 ≤ s.now.toNat → locked .dbgRespondTimeout) ∧
    (d.auth ≠ .challenged ∨ s.now.toNat < d.since.toNat + 1000000000 → exec .dbgRespondTimeout s = .next s) ∧
    (d.auth = .lockout → d.since.toNat + 1000000000 ≤ s.now.toNat → exec .dbgLockoutEnd s = .next (set (fun d => { d with auth := .idle }))) ∧
    (d.auth ≠ .lockout ∨ s.now.toNat < d.since.toNat + 1000000000 → exec .dbgLockoutEnd s = .next s)

/-- A register access acts on the half it names: fields judged, reads that clear, expert control, aborts. An address
that holds no register is answered DECODE: a read records it (FAB_DECODE, 0x0204), a write fails. PWR_DOM_SEL keeps
a listed value written in its low half and refuses another with REG_RESERVED_VALUE (3); a write of its high half
leaves it. A read of FLT_LOST clears what its half returns and a peek clears nothing. EXPERT_EN of PWR_CTRL changes
for the hypervisor under EXPERT_PERMIT and is refused with EXPERT_DENIED (2) for any other. ABORT_REQ of
COMP_OP_STATUS is kept while an operation runs and changes nothing else. A read of a UART's DATA register by its
owner removes the oldest byte; a peek removes nothing and is noted. (00_scope.md R3, 00_scope.md R4, 00_scope.md
R5, 00_scope.md R6, 00_scope.md R7, 02_handshake_timing.md R31, 02_handshake_timing.md R33, 20_debug_and_trace.md
R433, 21_host_and_peripheral_ports.md R449, 23_address_map_and_register_index.md R479, 00_scope.md R484) -/
def Obligations.RegisterAccessesAreJudgedByField : Prop :=
  ∀ (s : State) (a : Access),
    (∀ (pa : BitVec 44) (h : Half), regAt (pa.toNat / 8 * 8) = none →
      ∃ f : FaultMsg, f.code = 0x0204 ∧ f.addr = some (pa.setWidth 64, false) ∧ exec (.rcRead a pa h) s = .next { s with flt := { s.flt with raised := s.flt.raised ++ [f] } } ∧
        exec (.dataPop a pa) s = .next { s with flt := { s.flt with raised := s.flt.raised ++ [f] } }) ∧
    (∀ (pa : BitVec 44) (h : Half) (v : Word), regAt (pa.toNat / 8 * 8) = none → blockOf s a.init 2 a.cell = none → freeBlock s ≠ none →
      ∃ (u : State) (f : FaultMsg), exec (.registerWrite a pa h v) s = .next u ∧ u.flt.raised = s.flt.raised ++ [f] ∧ f.code = 0x0204 ∧ (blockOf u a.init 2 a.cell).isSome = true ∧ u.mem = s.mem) ∧
    (∀ (h : Half) (v : Word), let cur := stored s .pwrDomSel 0xF8000050010
      (h ≠ .high → v.toNat % 64 ≤ 38 → ∃ u, exec (.registerWrite a 0xF8000050010 h v) s = .next u ∧ fld (stored u .pwrDomSel 0xF8000050010) 5 0 = v.toNat % 64 ∧ u.flt = s.flt ∧ u.mem = s.mem) ∧
      (h ≠ .high → 38 < v.toNat % 64 → v.toNat % 64 ≠ fld cur 5 0 → ∃ (u : State) (f : FaultMsg), exec (.registerWrite a 0xF8000050010 h v) s = .next u ∧ stored u .pwrDomSel 0xF8000050010 = cur ∧
        u.flt = { s.flt with raised := s.flt.raised ++ [f] } ∧ f.code = 3 ∧ u.mem = s.mem) ∧
      (h = .high → ∃ u, exec (.registerWrite a 0xF8000050010 h v) s = .next u ∧ stored u .pwrDomSel 0xF8000050010 = cur ∧ u.flt = s.flt ∧ u.mem = s.mem)) ∧
    (a.peek = false →
      exec (.rcRead a 0xF8000040030 .full) s = .next { s with flt := { s.flt with lostC := 0, lostO := 0, lostK := 0, lostD := 0 } } ∧
      exec (.rcRead a 0xF8000040030 .low) s = .next { s with flt := { s.flt with lostC := 0, lostO := 0 } } ∧
      exec (.rcRead a 0xF8000040034 .high) s = .next { s with flt := { s.flt with lostK := 0, lostD := 0 } }) ∧
    (a.peek = true → ∀ h, exec (.rcRead a 0xF8000040030 h) s = .next s) ∧
    (∀ (v : Word), v.getLsbD 0 ≠ (stored s .pwrCtrl 0xF8000050000).getLsbD 0 →
      let allowed := isHyp a = true ∧ s.comp.isSealed = true ∧ expertPermit s.comp.live 3 0 = true
      (allowed → ∃ u, exec (.expertEnWrite a 0xF8000050000 .full v) s = .next u ∧ (stored u .pwrCtrl 0xF8000050000).getLsbD 0 = v.getLsbD 0 ∧ u.flt = s.flt ∧ u.mem = s.mem) ∧
      (¬ allowed → ∃ (u : State) (f : FaultMsg), exec (.expertEnWrite a 0xF8000050000 .full v) s = .next u ∧ (stored u .pwrCtrl 0xF8000050000).getLsbD 0 = (stored s .pwrCtrl 0xF8000050000).getLsbD 0 ∧
        u.flt = { s.flt with raised := s.flt.raised ++ [f] } ∧ f.code = 2 ∧ u.mem = s.mem)) ∧
    (∀ (v : Word), v.getLsbD 3 = false → exec (.opAbortRequest a 0xF8000010010 .full v) s =
      .next { s with comp := { s.comp with op := if s.comp.op.st = 1 then { s.comp.op with abortReq := true } else s.comp.op } }) ∧
    (ownsInstance s a 0 0 = true →
      (a.peek = false → exec (.dataPop a 0xF8000A20010) s = .next (updSerial s 0 (fun u => { u with rx := u.rx.drop 1 }))) ∧
      (a.peek = true → exec (.dataPop a 0xF8000A20010) s = .next { s with dbg := { s.dbg with sideSuppressed := true } }))

/-- PCIe links, inbound requests, DMA chains and peripheral ports change state and raise their events. BIFUR changes
while every port is disabled and is refused otherwise. A link that comes up or leaves L0 (0x0A03 unless commanded),
or an AER error (0x0A01, 0x0A02), raises event 936 plus the port. An inbound request of an unmapped requester, with
AT set, or of a cell not ACTIVE is refused, counted and recorded, a read with the completion Unsupported Request,
or Completer Abort; a translated one is issued for the cell; an MSI raises its event. A GPIO edge sets the level of
its pin and raises 896 plus the pin if selected. A UART keeps a byte of 64, event 928 at the 32nd. I3C_1, xSPI and
UFS raise 930, 931 or 932, and 933. START binds the channel to PORT and DIR and takes its descriptor, or ends in
ERROR (0x0A04) without an instance; while the channel is BUSY it only keeps PORT (the model's choice, entry 57); a
descriptor worked off counts in PROGRESS, raises 940 plus the channel if its flag asks, and ends the chain DONE
where NEXT is 0; one that fails ends it in ERROR. (21_host_and_peripheral_ports.md R440,
21_host_and_peripheral_ports.md R443, 21_host_and_peripheral_ports.md R444, 21_host_and_peripheral_ports.md R448,
21_host_and_peripheral_ports.md R449, 21_host_and_peripheral_ports.md R450, 21_host_and_peripheral_ports.md R452,
10_cells_and_translation.md R237) -/
def Obligations.PortsRaiseTheirEventsAndDmaMoves : Prop :=
  ∀ (s : State),
    let sentBy := fun (u : State) (e : Nat) (o : Option Nat) => ∀ r, s.comp.isSealed = true → routeOf s.comp.live e = some r → ru8 r 6 = 0 →
      u.sched.evTasks = s.sched.evTasks ++ [{ num := e, tcb := ru16 r 4, stamp := s.now, dest := ru16 r 2, origin := o }]
    let sent := fun (u : State) (e : Nat) => sentBy u e (originOf s e)
    let logged := fun (u : State) (code : Nat) => ∃ f : FaultMsg, u.flt.raised = s.flt.raised ++ [f] ∧ f.code = code
    (∀ (a : Access) (v : Word), v.getLsbD 0 = (pcieCtrlWord s).getLsbD 0 → v.toNat / 2 % 4 ≤ 2 →
      ((∀ p, p < 4 → (portCtrl s p).getLsbD 0 = false) → ∃ u, exec (.bifurWrite a v) s = .next u ∧ bifur u = v.toNat / 2 % 4 ∧ u.flt = s.flt ∧ u.mem = s.mem) ∧
      ((∃ p, p < 4 ∧ (portCtrl s p).getLsbD 0 = true) → v.toNat / 2 % 4 ≠ bifur s → ∃ u, exec (.bifurWrite a v) s = .next u ∧ bifur u = bifur s ∧ logged u 1 ∧ u.mem = s.mem)) ∧
    (∀ (p : Fin 4), portExists s p.val = true → inRun s 37 = true → let x := getPcie s p.val
      (∀ w r, (portCtrl s p.val).getLsbD 0 = true → (portCtrl s p.val).getLsbD 1 = false → ∃ u, exec (.pcieLinkChange p (.linkUp w r)) s = .next u ∧ getPcie u p.val = { x with l0 := true, width := w, rate := r } ∧ sent u (936 + p.val) ∧ u.flt = s.flt ∧ u.mem = s.mem) ∧
      (∀ cmd : Bool, x.l0 = true → ∃ u, exec (.pcieLinkChange p (.linkDown cmd)) s = .next u ∧ getPcie u p.val = { x with l0 := false, width := 0, rate := 0 } ∧ sent u (936 + p.val) ∧ (if cmd then u.flt = s.flt else logged u 0x0A03) ∧ u.mem = s.mem) ∧
      (∃ u, exec (.pcieLinkChange p .aerCorr) s = .next u ∧ getPcie u p.val = { x with aerC := satAdd x.aerC 1 } ∧ sent u (936 + p.val) ∧ logged u 0x0A01 ∧ u.mem = s.mem) ∧
      (∃ u, exec (.pcieLinkChange p .aerUncorr) s = .next u ∧ getPcie u p.val = { x with aerU := satAdd x.aerU 1 } ∧ sent u (936 + p.val) ∧ logged u 0x0A02 ∧ u.mem = s.mem)) ∧
    (∀ (r : PcieReq), inRun s 37 = true → (getPcie s r.port.val).l0 = true → portExists s r.port.val = true → r.port.val ≠ 0 ∨ endpointRole s = false → s.peri.posted = [] →
      let c := mapCell s r.rid r.pasid
      let msi := r.write = true ∧ r.addr = 0xFEE00000 ∧ r.data.length = 4
      let refused := fun (code : Nat) (st : CplStatus) => ∃ u, exec (.inboundPcieRequest r) s = .next u ∧ logged u code ∧ u.iommu.refused = satAdd s.iommu.refused 1 ∧ u.fab = s.fab ∧ u.mem = s.mem ∧
        (r.write = false → u.peri.cpl = some { port := r.port, rid := r.rid, status := st, data := [] })
      (¬ msi → c = none → refused 0x0402 .ur) ∧
      (∀ x, ¬ msi → c = some x → r.at2 ≠ 0 → refused 0x0402 .ur) ∧
      (∀ x, ¬ msi → c = some x → r.at2 = 0 → cellState s x ≠ .active → refused 0x0404 .ca) ∧
      (∀ x s1 l, ¬ msi → c = some x → r.at2 = 0 → cellState s x = .active → iommuXlate s x r.addr.toNat r.write = (s1, .ok l) → s1.peri.posted = [] → r.write = false → 1 ≤ r.len → l.pa % 64 + r.len ≤ 64 →
        ∃ (u : State) (t : Txn), exec (.inboundPcieRequest r) s = .next u ∧ u.fab.waiting = s1.fab.waiting ++ [t] ∧ t.kind = .read ∧ t.addr = l.pa ∧ t.size = r.len ∧ t.cell = some (BitVec.ofNat 12 x) ∧ t.stream = BitVec.ofNat 4 r.tc.val ∧ u.mem = s1.mem) ∧
      (msi → msiRouted s r (384 + leNat r.data % 512) = true → ∃ u, exec (.inboundPcieRequest r) s = .next u ∧ sentBy u (384 + leNat r.data % 512) (some (c.getD 0)) ∧ u.peri.posted = [] ∧ u.fab = s.fab ∧ u.flt = s.flt ∧ u.mem = s.mem)) ∧
    (∀ (p : Fin 32) (lv : Bool), ∃ u, exec (.gpioEdge p lv) s = .next u ∧ u.mem = s.mem ∧ u.flt = s.flt ∧ (∀ i, i < 32 → u.peri.gpioIn.getLsbD i = if i = p.val then lv else s.peri.gpioIn.getLsbD i) ∧
      (padDrive s p.val = none → s.peri.gpioIn.getLsbD p.val = !lv → (gpioReg s .periGpioEdge 0x48).getLsbD (2 * p.val + if lv then 0 else 1) = true → inRun s 38 = true → sent u (896 + p.val)) ∧
      (s.peri.gpioIn.getLsbD p.val = lv → u.sched = s.sched)) ∧
    (inRun s 38 = true →
      (∀ (i : Fin 2) (b : Byte), let x := getSerial s i.val
        (x.rx.length < 64 → ∃ u, exec (.uartRxEvent i (.rx b)) s = .next u ∧ getSerial u i.val = { x with rx := x.rx ++ [b], status := Config.freeWord s.free } ∧ u.mem = s.mem ∧ u.flt = s.flt ∧ (x.rx.length = 31 → sent u (928 + i.val))) ∧
        (64 ≤ x.rx.length → ∃ u, exec (.uartRxEvent i (.rx b)) s = .next u ∧ getSerial u i.val = { x with lost := satAdd x.lost 1, status := Config.freeWord s.free } ∧ u.sched = s.sched ∧ u.mem = s.mem) ∧
        (∀ e, e = .idle ∨ e = .error → ∃ u, exec (.uartRxEvent i e) s = .next u ∧ (getSerial u i.val).rx = x.rx ∧ sent u (928 + i.val) ∧ u.mem = s.mem)) ∧
      (∀ bs, ∃ u, exec (.i3cTransferDone (.done bs)) s = .next u ∧ (getSerial u 9).rx = (getSerial s 9).rx ++ bs ∧ sent u 930 ∧ u.mem = s.mem) ∧
      (∀ b, ∃ u, exec (.i3cTransferDone (.ibi b)) s = .next u ∧ (getSerial u 9).rx = (getSerial s 9).rx ∧ sent u 930 ∧ u.mem = s.mem) ∧
      (∀ i : Fin 2, ∃ u, exec (.xspiCommandDone i) s = .next u ∧ sent u (931 + i.val) ∧ u.mem = s.mem ∧ u.flt = s.flt) ∧
      (∃ u, exec .ufsCompletion s = .next u ∧ sent u 933 ∧ u.mem = s.mem ∧ u.flt = s.flt)) ∧
    (∀ (a : Access) (v : Word), let k := selChan s
      let c := getDma s k
      let port : BitVec 8 := v.extractLsb' 8 8
      (c.op.st ≠ 1 → port.toNat ∈ dmaPorts → ∃ u, exec (.dmaStart a v) s = .next u ∧ u.flt = s.flt ∧ u.mem = s.mem ∧
        getDma u k = { c with port := port, bound := port, boundDir := c.dir, op := { st := 1 }, cur := c.desc.toNat, begun := dmaRuns s { c with bound := port }, pos := 0, marked := false, paused := false }) ∧
      (c.op.st ≠ 1 → port.toNat ∉ dmaPorts → ∃ u, exec (.dmaStart a v) s = .next u ∧ (getDma u k).op.st = 4 ∧ logged u 0x0A04 ∧ u.mem = s.mem) ∧
      (c.op.st = 1 → exec (.dmaStart a v) s = .next (updDma s k (fun x => { x with port := port })))) ∧
    (∀ ch : Fin 16, let k := ch.val
      let c := getDma s k
      (c.op.st ≠ 1 ∨ c.paused = true → exec (.dmaDescriptorDone ch) s = .next s) ∧
      (c.op.st = 1 → c.paused = false → inRun s 38 = true → c.begun = true → c.op.abortReq = false →
        (∀ (s1 s2 s3 : State) (bs : List Byte) (d : DmaDesc), dmaRead (updDma s k (fun x => { x with begun := true })) k (linePieces 33 c.cur 32) [] = .ok s1 bs → dmaDesc bs = some d → dmaReady s1 k d = true →
          dmaMove s1 k d = .ok s2 () → dmaMark s2 k d = .ok s3 () → ∃ u, exec (.dmaDescriptorDone ch) s = .next u ∧ (getDma u k).op.progress = (getDma s3 k).op.progress + 1 ∧ (getDma u k).cur = d.next ∧ u.mem = s3.mem ∧
            (d.next = 0 → (getDma u k).op.st = 2) ∧ (d.next ≠ 0 → (getDma u k).op.st = (getDma s3 k).op.st) ∧
            (∀ r, d.flags.testBit 0 = true → s3.comp.isSealed = true → routeOf s3.comp.live (940 + k) = some r → ru8 r 6 = 0 → u.sched.evTasks = s3.sched.evTasks ++ [{ num := 940 + k, tcb := ru16 r 4, stamp := s3.now, dest := ru16 r 2, origin := originOf s3 (940 + k) }])) ∧
        (∀ s1, dmaRead (updDma s k (fun x => { x with begun := true })) k (linePieces 33 c.cur 32) [] = .error s1 →
          ∃ (u : State) (f : FaultMsg), exec (.dmaDescriptorDone ch) s = .next u ∧ (getDma u k).op.st = 4 ∧ u.flt.raised = s1.flt.raised ++ [f] ∧ f.code = 0x0A04)))

/-- COMP's thirteen commands: a load's phases and endings, SEAL, and recomposition of a running device. A command by
the wrong party is refused with 0x0103, in a state that does not list it with 0x0102. START begins a load, its
pages locked, or ends in ERROR with CAUSE 5 where the region lies outside scratch and HBM. At the end of CHECKING,
VALIDATING, APPLYING or STAGING poison ends the load with CAUSE 3, a granted abort with ABORTED, a failing rule
with CAUSE 1, its code in COMP_REJECT and a record (0x0101), each back in EMPTY or SEALED with the shadow cleared;
otherwise the next state follows, the image written to the shadow tables in APPLIED or STAGED. SEAL makes the
shadow live. QUIESCE is refused (CAUSE 4) for a halted or faulted target; else its ACTIVE targets become QUIESCED
and the engine QUIESCED once all are quiet. COMMIT makes the staged tables and their Passes live and COMMITTED,
with the image's SEQ, once the cleaning is done. RELEASE brings added and replaced cells to ACTIVE; DISCARD drops
the image and releases unchanged. Memory stays as it is but for NEXT of context nodes, which SEAL, COMMIT and
RELEASE write as they free them. (02_handshake_timing.md R31, 02_handshake_timing.md R33, 03_composition_image.md
R42, 03_composition_image.md R44, 03_composition_image.md R45, 03_composition_image.md R46, 03_composition_image.md
R49, 03_composition_image.md R50, 03_composition_image.md R51, 03_composition_image.md R52, 03_composition_image.md
R53, 03_composition_image.md R486) -/
def Obligations.CompositionsLoadSealAndRecompose : Prop :=
  ∀ (s : State),
    let ended := fun (u : State) => u.comp.engine = compHome s ∧ u.comp.shadow = [] ∧ u.comp.locked = [] ∧ u.comp.targets = [] ∧ u.comp.live = s.comp.live ∧ u.mem = s.mem ∧ u.cells = s.cells
    -- memory but for NEXT of the context nodes of some compositions
    let keptBut := fun (u : State) (cs : List (List Rec)) => ∀ p, (∀ live c hi n, live ∈ cs → n < poolCount live c hi → ¬ (nodeAddr live c hi n ≤ p ∧ p < nodeAddr live c hi n + 8)) → rdByte u p = rdByte s p
    let poisonEnds := fun (i : Instr) => ∃ u, exec i s = .next u ∧ ended u ∧ u.comp.op.st = 4 ∧ u.comp.cause = 3 ∧ u.flt = s.flt
    let rejects := fun (i : Instr) (code : Nat) => ∃ (u : State) (f : FaultMsg), exec i s = .next u ∧ ended u ∧ u.comp.op.st = 4 ∧ u.comp.cause = 1 ∧ u.comp.reject.toNat % 256 = code % 256 ∧ u.flt = { s.flt with raised := s.flt.raised ++ [f] } ∧ f.code = 0x0101
    let rs := (readImage (srcBytes s)).1
    let written := fun (e : Engine) => { s with comp := { s.comp with engine := e, op := { s.comp.op.finish 2 with progress := BitVec.ofNat 32 rs.length }, shadow := if s.comp.partialMode then produced s.comp.live rs else rs.filter (fun r => r.typ ≠ tRECOMP), shadowProg := hProgramme (srcBytes s), shadowScope := BitVec.ofNat 8 (hScope (srcBytes s)), targets := if s.comp.partialMode then sortTargets ((recsOf rs tRECOMP).map (fun r => (ru16 r 0, ru8 r 2))) else [], stagedSeq := BitVec.ofNat 32 (hSeq (srcBytes s)), locked := [] } }
    (∀ (a : Access) (v : Word), let mode := v.getLsbD 8
      let turned := fun (i : Instr) (code : Nat) => ∃ f : FaultMsg, exec i s = .next { s with flt := { s.flt with raised := s.flt.raised ++ [f] } } ∧ f.code = code ∧ f.init = some (a.init, 2)
      let judged := fun (i : Instr) (party : Bool) (listed : Bool) => (party = false → turned i 0x0103) ∧ (party = true → listed = false → turned i 0x0102)
      let e := s.comp.engine
      judged (.compStart a v) (if mode then isHyp a else isMld a) (if mode then decide (e = .sealed) else decide (e = .empty ∨ e = .applied)) ∧
      judged (.compSeal a v) (isMld a) (decide (e = .applied)) ∧ judged (.compQuiesce a v) (isHyp a) (decide (e = .staged)) ∧
      judged (.compCommit a v) (isHyp a) (decide (e = .quiesced)) ∧ judged (.compRelease a v) (isHyp a) (decide (e = .committed)) ∧
      judged (.compDiscard a v) (isHyp a) (decide (e = .staged ∨ e = .quiesced)) ∧
      ((if mode then isHyp a = true ∧ e = .sealed else isMld a = true ∧ (e = .empty ∨ e = .applied)) →
        (srcPlaced s = true → exec (.compStart a v) s = .next { s with comp := { s.comp with modeBit := mode, engine := if mode then .staging else .checking, partialMode := mode, op := { st := 1 }, reject := 0, shadow := [], shadowProg := [], targets := [], stagedSeq := 0, locked := srcPages s } }) ∧
        (srcPlaced s = false → exec (.compStart a v) s = .next { s with comp := { s.comp with modeBit := mode, op := { st := 4 }, cause := 5, reject := 0 } })) ∧
      (isMld a = true → e = .applied → ∃ u, exec (.compSeal a v) s = .next u ∧ u.comp.engine = .sealed ∧ u.comp.isSealed = true ∧ u.comp.live = s.comp.shadow ∧ u.comp.sealedSeq = s.comp.stagedSeq ∧ u.comp.shadow = [] ∧ u.fab.changing = true ∧ keptBut u [s.comp.shadow]) ∧
      (isHyp a = true → e = .staged →
        ((oldTargets s).any (fun c => cellState s c = .halted || cellState s c = .faulted) = true → exec (.compQuiesce a v) s = .next { s with comp := { s.comp with modeBit := mode, cause := 4 } }) ∧
        ((oldTargets s).any (fun c => cellState s c = .halted || cellState s c = .faulted) = false → ∃ u, exec (.compQuiesce a v) s = .next u ∧ u.comp.engine = .quiescing ∧ u.comp.op = { st := 1 } ∧ u.mem = s.mem ∧
          ∀ c, c ∈ oldTargets s → cellState s c = .active → cellState u c = .quiesced)) ∧
      (isHyp a = true → e = .quiesced → ∃ u, exec (.compCommit a v) s = .next u ∧ u.comp.engine = .committing ∧ u.comp.op = { st := 1 } ∧ u.comp.live = s.comp.shadow ∧ u.comp.before = s.comp.live ∧ u.fab.passes = passesOf s.comp.shadow ∧ keptBut u [s.comp.live, s.comp.shadow]) ∧
      (isHyp a = true → e = .committed → ∃ u, exec (.compRelease a v) s = .next u ∧ u.comp.engine = .sealed ∧ u.comp.targets = [] ∧ u.comp.held = [] ∧ u.comp.live = s.comp.live ∧ u.comp.sealedSeq = s.comp.sealedSeq ∧ keptBut u [s.comp.live] ∧
        (∀ c, (c, 2) ∈ s.comp.targets → cellState u c = .active) ∧ (∀ c, (c, 0) ∈ s.comp.targets → cellState s c = .quiesced → cellState u c = .active)) ∧
      (isHyp a = true → e = .staged → exec (.compDiscard a v) s = .next { s with comp := { s.comp with modeBit := mode, engine := .sealed, shadow := [], shadowProg := [], targets := [], stagedSeq := 0 } }) ∧
      (isHyp a = true → e = .quiesced → ∃ u, exec (.compDiscard a v) s = .next u ∧ u.comp.engine = .sealed ∧ u.comp.shadow = [] ∧ u.comp.targets = [] ∧ u.comp.live = s.comp.live ∧ u.mem = s.mem ∧
        ∀ c, c ∈ oldTargets s → cellState s c = .quiesced → cellState u c = .active)) ∧
    (∀ (i : Instr) (e : Engine), (i, e) ∈ [(Instr.compCheckDone, Engine.checking), (.compValidateDone, .validating), (.compApplyDone, .applying), (.compStageDone, .staging)] →
      (s.comp.engine ≠ e → exec i s = .next s) ∧
      (s.comp.engine = e → s.comp.op.abortReq = true → ∃ u, exec i s = .next u ∧ (Config.freeBit s.free = true → ended u ∧ u.comp.op.st = 3 ∧ u.comp.op.abortReq = false ∧ u.flt = s.flt)) ∧
      (s.comp.engine = e → s.comp.op.abortReq = false → srcPoisoned s = true → poisonEnds i)) ∧
    (s.comp.op.abortReq = false → srcPoisoned s = false → let form := firstFailing (formRules s (srcBytes s) (srcLen s))
      let plan := firstFailing (planRules (judgeOf s (srcBytes s)))
      (s.comp.engine = .checking → (∀ x, form = some x → rejects .compCheckDone x.1) ∧ (form = none → exec .compCheckDone s = .next { s with comp := { s.comp with engine := .validating, op := { s.comp.op with progress := 0 } } })) ∧
      (s.comp.engine = .validating → (∀ x, plan = some x → rejects .compValidateDone x.1) ∧ (plan = none → exec .compValidateDone s = .next { s with comp := { s.comp with engine := .applying, op := { s.comp.op with progress := 0 } } })) ∧
      (s.comp.engine = .applying → exec .compApplyDone s = .next (written .applied)) ∧
      (s.comp.engine = .staging → (∀ x, form = some x → rejects .compStageDone x.1) ∧ (∀ x, form = none → plan = some x → rejects .compStageDone x.1) ∧ (form = none → plan = none → exec .compStageDone s = .next (written .staged)))) ∧
    ((s.comp.engine = .checking ∨ s.comp.engine = .validating ∨ s.comp.engine = .applying ∨ s.comp.engine = .staging → srcPoisoned s = true → poisonEnds .compSourcePoison) ∧
      (srcPoisoned s = false → exec .compSourcePoison s = .next s)) ∧
    ((s.comp.engine ≠ .quiescing → exec .compQuiesceDone s = .next s) ∧
      (s.comp.engine = .quiescing → s.comp.op.abortReq = false → exec .compQuiesceDone s = .next (if (oldTargets s).all (cellQuiet s) then { s with comp := { s.comp with engine := .quiesced, op := s.comp.op.finish 2 } } else s)) ∧
      (s.comp.engine = .quiescing → s.comp.op.abortReq = true → ∃ u, exec .compQuiesceDone s = .next u ∧ u.mem = s.mem ∧ (Config.freeBit s.free = true → u.comp.engine = .sealed ∧ u.comp.op.st = 3 ∧ u.comp.live = s.comp.live ∧
        ∀ c, c ∈ oldTargets s → cellState s c = .quiesced → cellState u c = .active))) ∧
    ((s.comp.engine ≠ .committing ∨ s.comp.cleaning ≠ [] → exec .compCommitDone s = .next s) ∧
      (s.comp.engine = .committing → s.comp.cleaning = [] → ∃ u, exec .compCommitDone s = .next u ∧ u.comp.engine = .committed ∧ u.comp.op.st = 2 ∧ u.comp.sealedSeq = s.comp.stagedSeq ∧ u.comp.live = s.comp.live ∧ u.flt = s.flt ∧ u.mem = s.mem))

/-- A step runs the command at the front of the queue on the rest of the state. For every command c, every queue and
every state s: a step of s with c in front of the rest of its queue is exec of c on s with the queue's rest. On an
empty queue the block idles: a step answers the next state in which a nanosecond of the timebase has passed and the
trace path has taken a value, with every core's registers as before, and, while the trace is off, memory and the
cores altogether (the model's choice, assumption 4). (05_sotaivo_isa_model.md R102, 14_time_and_deadlines.md R299,
20_debug_and_trace.md R437) -/
def Obligations.StepRunsTheFrontCommand : Prop :=
  (∀ (s : State) (c : Instr) (rest : List Instr), step { s with pending := c :: rest } = exec c { s with pending := rest }) ∧
  (∀ (s : State), s.pending = [] → step s = .next (traceStep { s with now := s.now + 1 })) ∧
  (∀ (s : State), s.pending = [] → ∃ u, step s = .next u ∧ u.now = s.now + 1 ∧ u.pending = [] ∧
    (bit (trcCtrl s) 0 = false → u.cores = s.cores ∧ u.mem = s.mem) ∧ (∀ c, (getCore u c).ctx = (getCore s c).ctx))

/-- Every step keeps memory canonical and the queue free of ill-formed commands, and takes one command. For every state
s in which memory is in its canonical form (addresses strictly rising, no entry that holds what an unlisted address
reads as) and every waiting command is well-formed: if a step answers a next state, memory is in its canonical form
there, every waiting command is well-formed, and the queue is that of s without the command at its front; and a
step of such a state does answer a next state. (06_function_units.md R123, 11_memory_ordering.md R249,
16_zone_network.md R360) -/
def Obligations.InvKeptByEveryStep : Prop :=
  ∀ (s : State), Inv s → ∃ t, step s = .next t ∧ Inv t ∧ t.pending = s.pending.tail

/-- After reset the invariant holds, nothing is composed, and what the rules give for reset stands. At reset the
invariant holds; no command waits. The composition engine is EMPTY with nothing sealed and no live record, every
cell is absent, the device is not in safe state, the timebase is 0, and every general and vector register, every
predicate and the operand ports of every core read 0, no core holding a cell or task. Memory lists nothing and
every byte of it reads 0 (that value is the model's choice, assumption 2). (03_composition_image.md R46,
05_sotaivo_isa_model.md R90, 14_time_and_deadlines.md R299, 19_boot_and_trust.md R402, 19_boot_and_trust.md R408) -/
def Obligations.ResetLeavesTheMachineEmpty : Prop :=
  Inv State.reset ∧ State.reset.pending = [] ∧ State.reset.comp.engine = .empty ∧ State.reset.comp.isSealed = false ∧ State.reset.comp.live = [] ∧
  (∀ c, cellState State.reset c = .absent) ∧ State.reset.flt.safe = false ∧ State.reset.now = 0 ∧ State.reset.mem = [] ∧ (∀ p, rdByte State.reset p = 0) ∧
  (∀ c n, look 0 n (getCore State.reset c).ctx.g = 0 ∧ look 0 n (getCore State.reset c).ctx.v = 0 ∧ (getCore State.reset c).ctx.p = 0 ∧ look 0 n (getCore State.reset c).ctx.ports = 0 ∧ (getCore State.reset c).cell = none ∧ (getCore State.reset c).task = none)
end

