-- ==== Sys2Proof/Laws/Memory.lean ====
section
/-! SUPPORT. Memory: every operation keeps the canonical form; a byte reads as it was last written; every other byte reads
as before. -/
namespace Sys2Proof.Machine

/-! ### The canonical form, by its bound -/

theorem cellsWf_cons (lo : Option Nat) (a : Nat) (x : Byte) (t : List Host.Cell) :
    cellsWf lo ((a, x) :: t) = true ↔ (∀ b, lo = some b → b < a) ∧ x ≠ unlistedByte ∧ cellsWf (some a) t = true := by
  cases lo <;> simp [cellsWf, and_assoc]

/-- A lower bound can be loosened. -/
theorem cellsWf_mono {lo lo' : Option Nat} (m : List Host.Cell) (h : ∀ b, lo' = some b → ∃ c, lo = some c ∧ b ≤ c)
    (w : cellsWf lo m = true) : cellsWf lo' m = true := by
  cases m with
  | nil => rfl
  | cons e t =>
    obtain ⟨a, x⟩ := e
    rw [cellsWf_cons] at w ⊢
    refine ⟨fun b hb => ?_, w.2⟩
    obtain ⟨c, hc, hbc⟩ := h b hb
    exact lt_of_le_of_lt hbc (w.1 c hc)

theorem cellsWf_none {lo : Option Nat} {m : List Host.Cell} (w : cellsWf lo m = true) : cellsWf none m = true :=
  cellsWf_mono m (by simp) w

/-- What stands below the bound is not listed. -/
theorem cellGet_below {lo a : Nat} (m : List Host.Cell) (w : cellsWf (some lo) m = true) (h : a ≤ lo) : cellGet a m = unlistedByte := by
  induction m generalizing lo with
  | nil => rfl
  | cons e t ih =>
    obtain ⟨b, x⟩ := e
    rw [cellsWf_cons] at w
    have hb := w.1 lo rfl
    have hne : b ≠ a := by omega
    simpa [cellGet, hne] using ih w.2.2 (by omega)

/-- One byte written keeps the form above any bound below its address. -/
theorem cellPut_wf {lo : Option Nat} (a : Nat) (x : Byte) (m : List Host.Cell) (ha : ∀ b, lo = some b → b < a)
    (w : cellsWf lo m = true) : cellsWf lo (cellPut a x m) = true := by
  induction m generalizing lo with
  | nil =>
    by_cases hx : x = unlistedByte
    · simp [cellPut, hx, cellsWf]
    · rw [cellPut, if_neg hx, cellsWf_cons]; exact ⟨ha, hx, rfl⟩
  | cons e t ih =>
    obtain ⟨b, y⟩ := e
    rw [cellsWf_cons] at w
    simp only [cellPut]
    by_cases h1 : a < b
    · rw [if_pos h1]
      by_cases hx : x = unlistedByte
      · rw [if_pos hx, cellsWf_cons]; exact w
      · rw [if_neg hx, cellsWf_cons, cellsWf_cons]
        exact ⟨ha, hx, by simpa using h1, w.2⟩
    · rw [if_neg h1]
      by_cases h2 : a = b
      · subst h2
        rw [if_pos rfl]
        by_cases hx : x = unlistedByte
        · rw [if_pos hx]
          exact cellsWf_mono t (fun c hc => ⟨a, rfl, le_of_lt (ha c hc)⟩) w.2.2
        · rw [if_neg hx, cellsWf_cons]; exact ⟨ha, hx, w.2.2⟩
      · rw [if_neg h2, cellsWf_cons]
        exact ⟨w.1, w.2.1, ih (by simp; omega) w.2.2⟩

/-- What a list reads after one byte is written. -/
theorem cellGet_cellPut {lo : Option Nat} (a p : Nat) (x : Byte) (m : List Host.Cell) (w : cellsWf lo m = true) :
    cellGet p (cellPut a x m) = if p = a then x else cellGet p m := by
  induction m generalizing lo with
  | nil =>
    by_cases hx : x = unlistedByte <;> by_cases hp : p = a <;> simp [cellPut, cellGet, hx, hp, eq_comm]
    · exact fun h => absurd h.symm hp
  | cons e t ih =>
    obtain ⟨b, y⟩ := e
    rw [cellsWf_cons] at w
    simp only [cellPut]
    by_cases h1 : a < b
    · rw [if_pos h1]
      by_cases hx : x = unlistedByte
      · rw [if_pos hx]
        by_cases hp : p = a
        · subst hp
          have : b ≠ p := by omega
          simp [cellGet, this, hx, cellGet_below t w.2.2 (le_of_lt h1)]
        · simp [hp]
      · rw [if_neg hx]
        by_cases hp : p = a
        · simp [cellGet, hp]
        · have : ¬ a = p := fun h => hp h.symm
          simp [cellGet, hp, this]
    · rw [if_neg h1]
      by_cases h2 : a = b
      · subst h2
        rw [if_pos rfl]
        by_cases hx : x = unlistedByte
        · rw [if_pos hx]
          by_cases hp : p = a
          · subst hp; simp [hx, cellGet_below t w.2.2 (le_refl _)]
          · have : ¬ a = p := fun h => hp h.symm
            simp [cellGet, hp, this]
        · rw [if_neg hx]
          by_cases hp : p = a
          · simp [cellGet, hp]
          · have : ¬ a = p := fun h => hp h.symm
            simp [cellGet, hp, this]
      · rw [if_neg h2]
        by_cases hb : b = p
        · have : ¬ p = a := by omega
          simp [cellGet, hb, this]
        · simp [cellGet, hb, ih w.2.2]

/-! ### Several bytes -/

theorem cellsPut_wf {lo : Option Nat} (a : Nat) (bs : List Byte) (m : List Host.Cell) (ha : ∀ b, lo = some b → b < a)
    (w : cellsWf lo m = true) : cellsWf lo (cellsPut a bs m) = true := by
  induction bs generalizing a m with
  | nil => exact w
  | cons x xs ih => exact ih (a + 1) _ (fun b hb => Nat.lt_succ_of_lt (ha b hb)) (cellPut_wf a x m ha w)

/-- What a list reads after bytes are written from an address upward. -/
theorem cellGet_cellsPut (a p : Nat) (bs : List Byte) (m : List Host.Cell) (w : cellsWf none m = true) :
    cellGet p (cellsPut a bs m) = if a ≤ p ∧ p < a + bs.length then bs.getD (p - a) 0 else cellGet p m := by
  induction bs generalizing a m with
  | nil => simp [cellsPut]
  | cons x xs ih =>
    rw [cellsPut, ih (a + 1) _ (cellPut_wf a x m (by simp) w), cellGet_cellPut a p x m w]
    by_cases hp : p = a
    · subst hp
      simp
    · by_cases h : a + 1 ≤ p ∧ p < a + 1 + xs.length
      · have h2 : a ≤ p ∧ p < a + (x :: xs).length := by simp; omega
        have h3 : p - a = p - (a + 1) + 1 := by omega
        rw [if_pos h, if_pos h2, h3]; simp
      · have h2 : ¬ (a ≤ p ∧ p < a + (x :: xs).length) := by simp; omega
        rw [if_neg h, if_neg h2, if_neg hp]

theorem cellsWf_filter {lo : Option Nat} (f : Host.Cell → Bool) (m : List Host.Cell) (w : cellsWf lo m = true) : cellsWf lo (m.filter f) = true := by
  induction m generalizing lo with
  | nil => rfl
  | cons e t ih =>
    obtain ⟨a, x⟩ := e
    rw [cellsWf_cons] at w
    by_cases hf : f (a, x) = true
    · rw [List.filter_cons_of_pos hf, cellsWf_cons]; exact ⟨w.1, w.2.1, ih w.2.2⟩
    · rw [List.filter_cons_of_neg hf]
      exact cellsWf_mono _ (fun b hb => ⟨a, rfl, le_of_lt (w.1 b hb)⟩) (ih w.2.2)

/-- What a list reads after the addresses outside `f` are dropped. -/
theorem cellGet_filter (f : Nat → Bool) (p : Nat) (m : List Host.Cell) :
    cellGet p (m.filter (fun c => f c.1)) = if f p then cellGet p m else unlistedByte := by
  induction m with
  | nil => simp [cellGet]
  | cons e t ih =>
    obtain ⟨a, x⟩ := e
    by_cases hf : f a = true
    · rw [List.filter_cons_of_pos (by simpa using hf)]
      by_cases ha : a = p
      · subst ha; simp [cellGet, hf]
      · simp [cellGet, ha, ih]
    · rw [List.filter_cons_of_neg (by simpa using hf), ih]
      by_cases ha : a = p
      · subst ha; simp [hf]
      · simp [cellGet, ha]

/-! ### The operations on the state -/

theorem wrByte_wf {s : State} (a : Nat) (x : Byte) (h : Memory.wf s.mem = true) : Memory.wf (wrByte s a x).mem = true :=
  cellPut_wf a x s.mem (by simp) h
theorem wrBytes_wf {s : State} (a : Nat) (bs : List Byte) (h : Memory.wf s.mem = true) : Memory.wf (wrBytes s a bs).mem = true :=
  cellsPut_wf a bs s.mem (by simp) h
theorem zeroRange_wf {s : State} (a n : Nat) (h : Memory.wf s.mem = true) : Memory.wf (zeroRange s a n).mem = true :=
  cellsWf_filter _ s.mem h
theorem putMem_wf {s : State} (pa : Nat) (bs : List Byte) (h : Memory.wf s.mem = true) : Memory.wf (putMem s pa bs).mem = true := by
  unfold putMem
  split
  · exact h
  · exact wrBytes_wf pa bs h
theorem performWrite_wf {s : State} (pa : Nat) (bs : List Byte) (h : Memory.wf s.mem = true) : Memory.wf (performWrite s pa bs).mem = true := by
  unfold performWrite
  split
  · exact h
  · exact putMem_wf pa bs h

theorem rdByte_wrBytes {s : State} (a p : Nat) (bs : List Byte) (h : Memory.wf s.mem = true) :
    rdByte (wrBytes s a bs) p = if a ≤ p ∧ p < a + bs.length then bs.getD (p - a) 0 else rdByte s p :=
  cellGet_cellsPut a p bs s.mem h
theorem rdByte_wrByte {s : State} (a p : Nat) (x : Byte) (h : Memory.wf s.mem = true) :
    rdByte (wrByte s a x) p = if p = a then x else rdByte s p := cellGet_cellPut a p x s.mem h
theorem rdByte_zeroRange (s : State) (a n p : Nat) : rdByte (zeroRange s a n) p = if a ≤ p ∧ p < a + n then 0 else rdByte s p := by
  refine (cellGet_filter (fun q => !(decide (a ≤ q) && decide (q < a + n))) p s.mem).trans ?_
  by_cases h1 : a ≤ p <;> by_cases h2 : p < a + n <;> simp [h1, h2, rdByte, unlistedByte]
/-- A write that no lock turns away: its bytes, and no other byte, change. -/
theorem rdByte_putMem {s : State} (pa p : Nat) (bs : List Byte) (h : Memory.wf s.mem = true) (hl : pageLocked s pa bs.length = false) :
    rdByte (putMem s pa bs) p = if pa ≤ p ∧ p < pa + bs.length then bs.getD (p - pa) 0 else rdByte s p := by
  simp only [putMem, hl]
  exact rdByte_wrBytes pa p bs h
theorem rdByte_performWrite {s : State} (pa p : Nat) (bs : List Byte) (h : Memory.wf s.mem = true) (hl : pageLocked s pa bs.length = false) :
    rdByte (performWrite s pa bs) p = if pa ≤ p ∧ p < pa + bs.length then bs.getD (p - pa) 0 else rdByte s p := by
  simp only [performWrite, hl]
  exact rdByte_putMem pa p bs h hl
@[simp] theorem putMem_pending (s : State) (pa : Nat) (bs : List Byte) : (putMem s pa bs).pending = s.pending := by
  unfold putMem; split <;> rfl
@[simp] theorem performWrite_pending (s : State) (pa : Nat) (bs : List Byte) : (performWrite s pa bs).pending = s.pending := by
  unfold performWrite; split
  · rfl
  · exact putMem_pending s pa bs
theorem reset_mem_wf : Memory.wf State.reset.mem = true := rfl

end Sys2Proof.Machine
end

