-- ==== Sys2Proof/Laws/PerInstr.lean ====
section
/-! SUPPORT. What holds of every command as syntax: the access and the slot that a well-formed command carries are
well-formed, command by command. -/
namespace Sys2Proof.Laws

/-- The access that a command makes. -/
def Tabled.accessOf : Instr → Option Access
  | .registerWrite x _ _ _ | .rcRead x _ _ | .expertEnWrite x _ _ _ | .opAbortRequest x _ _ _ | .compStart x _
  | .compSeal x _ | .compQuiesce x _ | .compCommit x _ | .compRelease x _ | .compDiscard x _
  | .fabErrInject x _ | .tcbReset x _ _ | .tcbStart x _ _ | .cleanAddr x _ | .cleanInvAddr x _
  | .cleanCell x _ | .cleanInvCell x _ | .cleanClass x _ | .cleanInvClass x _ | .remask x _
  | .slcErrInject x _ | .bootTraining x _ _ | .retrain x _ _ | .hmcErrInject x _ _ | .timeRateWrite x _
  | .timeStepWrite x _ | .timerCtrlWrite x _ _ | .timerCmpWrite x _ _ | .wdKick x _ | .devWdKick x _
  | .devWdLock x _ | .ringEnWrite x _ | .ringTailWrite x _ | .blockRelease x _ | .blockDiscard x _
  | .fltSafeCmd x _ | .safeRelease x _ | .fwFault x _ | .ringConsWrite x _ _ _ | .ringEnable x _ _ _
  | .hostTxCommit x _ | .pwrVoteAssert x _ | .pwrVoteWithdraw x _ | .hvVoteWrite x _ | .targetPsWrite x _
  | .bootResetCmd x _ | .bootLcCmd x _ | .bootRollbackSet x _ | .checkHmac x _ | .checkEcdsa x _ | .unlock x _
  | .coreRelease x _ | .coreReset x _ | .bootMailboxInWrite x _ | .bootMailboxOutWrite x _
  | .pcieDoorbellWrite x _ | .dbgBegin x _ | .dbgRespond x _ | .closeSession x _ | .dbgHvLimitWrite x _
  | .dbgCellHalt x _ | .dbgCellResume x _ | .dbgCtiPulse x _ | .dbgCoreStep x _ | .dbgCoreHalt x _
  | .dbgCoreResume x _ | .dbgCoreAcc x _ | .dbgBusRead x _ | .dbgBusWrite x _ | .traceEnable x _
  | .bifurWrite x _ | .dmaStart x _ | .dataPop x _ => some x
  | _ => none

/-- The slot of a word that a command performs. -/
def Tabled.slotOf : Instr → Option Slot
  | .move _ x _ | .tAdd _ _ x | .tSub _ _ x | .tAnd _ _ x | .tOr _ _ x | .tXor _ _ x | .tAndn _ _ x
  | .tShl _ _ x | .tShr _ _ x | .tSar _ _ x | .tRor _ _ x | .tMin _ _ x | .tMax _ _ x | .tCmpeq _ _ x
  | .tCmpne _ _ x | .tCmplt _ _ x | .tCmpge _ _ x | .tCmpltu _ _ x | .tCmpgeu _ _ x | .tMinu _ _ x
  | .tMaxu _ _ x | .tTst _ _ x | .tExtract _ x | .tExtracts _ x | .tInsert _ x | .tClz _ x | .tCtz _ x
  | .tPopc _ x | .tPerm _ x | .tMul _ x | .tMulu _ x | .tMulsu _ x | .tDiv _ x | .tDivu _ x | .tLd _ x
  | .tSt _ x | .tLdpi _ x | .tStpi _ x | .tLr _ x | .tSc _ x | .tSwap _ x | .lsuTFadd _ x | .tCas _ x
  | .tBr _ x | .tBri _ x | .tCall _ x | .tCalli _ x | .tRet _ x | .tRsflush _ x | .fpuTFadd _ x | .tFsub _ x
  | .tFmul _ x | .tFma _ x | .tFdiv _ x | .tFsqrt _ x | .tFmin _ x | .tFmax _ x | .tFcvti _ x | .tFcvtf _ x
  | .tFcvtp _ x | .tFcmpeq _ x | .tFcmplt _ x | .tFcmple _ x | .tFcmpun _ x | .fpuCsrWrite _ x | .tVadd _ x
  | .tVsub _ x | .tVmul _ x | .tVfma _ x | .tVdot _ x | .tVperm _ x | .tVmin _ x | .tVmax _ x | .tVand _ x
  | .tVor _ x | .tVxor _ x | .tVsplat _ x | .tVred _ x | .tVgather _ x | .rcWrite _ x | .tRep _ x | .tLoop _ x
  | .tSaveLo _ x | .tSaveHi _ x | .tLoadLo _ x | .tLoadHi _ x | .tStm _ x | .tLdm _ x | .tFeed8 _ x
  | .tFeed16 _ x | .tFeed32 _ x | .tInit _ x | .chkValWrite _ x | .chkExpWrite _ x | .tCmp _ x | .tAbort _ x
  | .trcStimulus _ _ x | .tFenceS _ x | .tFenceL _ x | .tFenceF _ x | .tFenceD _ x | .tSrrd _ x | .tSrwr _ x
  | .sysTimeRead _ x _ | .tReturn _ x | .tGate _ _ x | .tSeal _ x | .tJobend _ x | .tWait _ x | .tBreak _ x
  | .tlbInvVa _ x | .tlbInvAsid _ x | .tlbInvCellL1 _ x | .tlbInvIpa _ x | .tlbInvCellL2 _ x | .tlbInvHost _ x
  | .cellS2Write _ x | .htRootWrite _ x | .restart _ x | .cellStopped _ x | .icInvLine _ x | .icInvAll _ x => some x
  | _ => none

/-- A well-formed command carries a well-formed access and a well-formed slot. -/
def Tabled.Statement (i : Instr) : Prop :=
  i.wf = true → (∀ a, Tabled.accessOf i = some a → a.wf = true) ∧ (∀ m, Tabled.slotOf i = some m → m.wf = true)

theorem Tabled.registerWrite (a : Access) (pa : BitVec 44) (h : Half) (v : Word) : Tabled.Statement (.registerWrite a pa h v) := fun h => ⟨fun _ e => by cases e; exact (Bool.and_eq_true_iff.mp h).1, fun _ e => (nomatch e)⟩
theorem Tabled.rcRead (a : Access) (pa : BitVec 44) (h : Half) : Tabled.Statement (.rcRead a pa h) := fun h => ⟨fun _ e => by cases e; exact (Bool.and_eq_true_iff.mp h).1, fun _ e => (nomatch e)⟩
theorem Tabled.expertEnWrite (a : Access) (pa : BitVec 44) (h : Half) (v : Word) : Tabled.Statement (.expertEnWrite a pa h v) := fun h => ⟨fun _ e => by cases e; exact (Bool.and_eq_true_iff.mp h).1, fun _ e => (nomatch e)⟩
theorem Tabled.canarySample (canary : BitVec 8) (pm : BitVec 10) : Tabled.Statement (.canarySample canary pm) := fun _ => ⟨fun _ e => (nomatch e), fun _ e => (nomatch e)⟩
theorem Tabled.supplyLower (d : Fin 32) : Tabled.Statement (.supplyLower d) := fun _ => ⟨fun _ e => (nomatch e), fun _ e => (nomatch e)⟩
theorem Tabled.psChangeDone (d : Fin 39) : Tabled.Statement (.psChangeDone d) := fun _ => ⟨fun _ e => (nomatch e), fun _ e => (nomatch e)⟩
theorem Tabled.opAbortRequest (a : Access) (pa : BitVec 44) (h : Half) (v : Word) : Tabled.Statement (.opAbortRequest a pa h v) := fun h => ⟨fun _ e => by cases e; exact (Bool.and_eq_true_iff.mp h).1, fun _ e => (nomatch e)⟩
theorem Tabled.compStart (a : Access) (v : Word) : Tabled.Statement (.compStart a v) := fun h => ⟨fun _ e => by cases e; exact h, fun _ e => (nomatch e)⟩
theorem Tabled.compCheckDone : Tabled.Statement (.compCheckDone) := fun _ => ⟨fun _ e => (nomatch e), fun _ e => (nomatch e)⟩
theorem Tabled.compValidateDone : Tabled.Statement (.compValidateDone) := fun _ => ⟨fun _ e => (nomatch e), fun _ e => (nomatch e)⟩
theorem Tabled.compSourcePoison : Tabled.Statement (.compSourcePoison) := fun _ => ⟨fun _ e => (nomatch e), fun _ e => (nomatch e)⟩
theorem Tabled.compApplyDone : Tabled.Statement (.compApplyDone) := fun _ => ⟨fun _ e => (nomatch e), fun _ e => (nomatch e)⟩
theorem Tabled.compSeal (a : Access) (v : Word) : Tabled.Statement (.compSeal a v) := fun h => ⟨fun _ e => by cases e; exact h, fun _ e => (nomatch e)⟩
theorem Tabled.fabricStructLive : Tabled.Statement (.fabricStructLive) := fun _ => ⟨fun _ e => (nomatch e), fun _ e => (nomatch e)⟩
theorem Tabled.compStageDone : Tabled.Statement (.compStageDone) := fun _ => ⟨fun _ e => (nomatch e), fun _ e => (nomatch e)⟩
theorem Tabled.compQuiesce (a : Access) (v : Word) : Tabled.Statement (.compQuiesce a v) := fun h => ⟨fun _ e => by cases e; exact h, fun _ e => (nomatch e)⟩
theorem Tabled.compQuiesceDone : Tabled.Statement (.compQuiesceDone) := fun _ => ⟨fun _ e => (nomatch e), fun _ e => (nomatch e)⟩
theorem Tabled.compCommit (a : Access) (v : Word) : Tabled.Statement (.compCommit a v) := fun h => ⟨fun _ e => by cases e; exact h, fun _ e => (nomatch e)⟩
theorem Tabled.compCommitDone : Tabled.Statement (.compCommitDone) := fun _ => ⟨fun _ e => (nomatch e), fun _ e => (nomatch e)⟩
theorem Tabled.compRelease (a : Access) (v : Word) : Tabled.Statement (.compRelease a v) := fun h => ⟨fun _ e => by cases e; exact h, fun _ e => (nomatch e)⟩
theorem Tabled.compDiscard (a : Access) (v : Word) : Tabled.Statement (.compDiscard a v) := fun h => ⟨fun _ e => by cases e; exact h, fun _ e => (nomatch e)⟩
theorem Tabled.fabricTransactionIssue (ep : BitVec 7) (r : Option Req) : Tabled.Statement (.fabricTransactionIssue ep r) := fun _ => ⟨fun _ e => (nomatch e), fun _ e => (nomatch e)⟩
theorem Tabled.fabricTransactionArrival (id : Nat) : Tabled.Statement (.fabricTransactionArrival id) := fun _ => ⟨fun _ e => (nomatch e), fun _ e => (nomatch e)⟩
theorem Tabled.fabricResponse (id : Nat) : Tabled.Statement (.fabricResponse id) := fun _ => ⟨fun _ e => (nomatch e), fun _ e => (nomatch e)⟩
theorem Tabled.fabricTimeout (id : Nat) : Tabled.Statement (.fabricTimeout id) := fun _ => ⟨fun _ e => (nomatch e), fun _ e => (nomatch e)⟩
theorem Tabled.linkWordReceive (sp : BitVec 6) (port : BitVec 4) (lane : BitVec 5) (idx : Nat) (w : LinkWord) (crc : Byte) : Tabled.Statement (.linkWordReceive sp port lane idx w crc) := fun _ => ⟨fun _ e => (nomatch e), fun _ e => (nomatch e)⟩
theorem Tabled.fabErrInject (a : Access) (v : Word) : Tabled.Statement (.fabErrInject a v) := fun h => ⟨fun _ e => by cases e; exact h, fun _ e => (nomatch e)⟩
theorem Tabled.wordDecode (c : CoreId) : Tabled.Statement (.wordDecode c) := fun _ => ⟨fun _ e => (nomatch e), fun _ e => (nomatch e)⟩
theorem Tabled.move (c : CoreId) (m : Slot) (dst : BitVec 9) : Tabled.Statement (.move c m dst) := fun h => ⟨fun _ e => (nomatch e), fun _ e => by cases e; exact h⟩
theorem Tabled.unitResult (c : CoreId) (unit : BitVec 9) : Tabled.Statement (.unitResult c unit) := fun _ => ⟨fun _ e => (nomatch e), fun _ e => (nomatch e)⟩
theorem Tabled.tAdd (c : CoreId) (u : AluId) (m : Slot) : Tabled.Statement (.tAdd c u m) := fun h => ⟨fun _ e => (nomatch e), fun _ e => by cases e; exact h⟩
theorem Tabled.tSub (c : CoreId) (u : AluId) (m : Slot) : Tabled.Statement (.tSub c u m) := fun h => ⟨fun _ e => (nomatch e), fun _ e => by cases e; exact h⟩
theorem Tabled.tAnd (c : CoreId) (u : AluId) (m : Slot) : Tabled.Statement (.tAnd c u m) := fun h => ⟨fun _ e => (nomatch e), fun _ e => by cases e; exact h⟩
theorem Tabled.tOr (c : CoreId) (u : AluId) (m : Slot) : Tabled.Statement (.tOr c u m) := fun h => ⟨fun _ e => (nomatch e), fun _ e => by cases e; exact h⟩
theorem Tabled.tXor (c : CoreId) (u : AluId) (m : Slot) : Tabled.Statement (.tXor c u m) := fun h => ⟨fun _ e => (nomatch e), fun _ e => by cases e; exact h⟩
theorem Tabled.tAndn (c : CoreId) (u : AluId) (m : Slot) : Tabled.Statement (.tAndn c u m) := fun h => ⟨fun _ e => (nomatch e), fun _ e => by cases e; exact h⟩
theorem Tabled.tShl (c : CoreId) (u : AluId) (m : Slot) : Tabled.Statement (.tShl c u m) := fun h => ⟨fun _ e => (nomatch e), fun _ e => by cases e; exact h⟩
theorem Tabled.tShr (c : CoreId) (u : AluId) (m : Slot) : Tabled.Statement (.tShr c u m) := fun h => ⟨fun _ e => (nomatch e), fun _ e => by cases e; exact h⟩
theorem Tabled.tSar (c : CoreId) (u : AluId) (m : Slot) : Tabled.Statement (.tSar c u m) := fun h => ⟨fun _ e => (nomatch e), fun _ e => by cases e; exact h⟩
theorem Tabled.tRor (c : CoreId) (u : AluId) (m : Slot) : Tabled.Statement (.tRor c u m) := fun h => ⟨fun _ e => (nomatch e), fun _ e => by cases e; exact h⟩
theorem Tabled.tMin (c : CoreId) (u : AluId) (m : Slot) : Tabled.Statement (.tMin c u m) := fun h => ⟨fun _ e => (nomatch e), fun _ e => by cases e; exact h⟩
theorem Tabled.tMax (c : CoreId) (u : AluId) (m : Slot) : Tabled.Statement (.tMax c u m) := fun h => ⟨fun _ e => (nomatch e), fun _ e => by cases e; exact h⟩
theorem Tabled.tCmpeq (c : CoreId) (u : AluId) (m : Slot) : Tabled.Statement (.tCmpeq c u m) := fun h => ⟨fun _ e => (nomatch e), fun _ e => by cases e; exact h⟩
theorem Tabled.tCmpne (c : CoreId) (u : AluId) (m : Slot) : Tabled.Statement (.tCmpne c u m) := fun h => ⟨fun _ e => (nomatch e), fun _ e => by cases e; exact h⟩
theorem Tabled.tCmplt (c : CoreId) (u : AluId) (m : Slot) : Tabled.Statement (.tCmplt c u m) := fun h => ⟨fun _ e => (nomatch e), fun _ e => by cases e; exact h⟩
theorem Tabled.tCmpge (c : CoreId) (u : AluId) (m : Slot) : Tabled.Statement (.tCmpge c u m) := fun h => ⟨fun _ e => (nomatch e), fun _ e => by cases e; exact h⟩
theorem Tabled.tCmpltu (c : CoreId) (u : AluId) (m : Slot) : Tabled.Statement (.tCmpltu c u m) := fun h => ⟨fun _ e => (nomatch e), fun _ e => by cases e; exact h⟩
theorem Tabled.tCmpgeu (c : CoreId) (u : AluId) (m : Slot) : Tabled.Statement (.tCmpgeu c u m) := fun h => ⟨fun _ e => (nomatch e), fun _ e => by cases e; exact h⟩
theorem Tabled.tMinu (c : CoreId) (u : AluId) (m : Slot) : Tabled.Statement (.tMinu c u m) := fun h => ⟨fun _ e => (nomatch e), fun _ e => by cases e; exact h⟩
theorem Tabled.tMaxu (c : CoreId) (u : AluId) (m : Slot) : Tabled.Statement (.tMaxu c u m) := fun h => ⟨fun _ e => (nomatch e), fun _ e => by cases e; exact h⟩
theorem Tabled.tTst (c : CoreId) (u : AluId) (m : Slot) : Tabled.Statement (.tTst c u m) := fun h => ⟨fun _ e => (nomatch e), fun _ e => by cases e; exact h⟩
theorem Tabled.tExtract (c : CoreId) (m : Slot) : Tabled.Statement (.tExtract c m) := fun h => ⟨fun _ e => (nomatch e), fun _ e => by cases e; exact h⟩
theorem Tabled.tExtracts (c : CoreId) (m : Slot) : Tabled.Statement (.tExtracts c m) := fun h => ⟨fun _ e => (nomatch e), fun _ e => by cases e; exact h⟩
theorem Tabled.tInsert (c : CoreId) (m : Slot) : Tabled.Statement (.tInsert c m) := fun h => ⟨fun _ e => (nomatch e), fun _ e => by cases e; exact h⟩
theorem Tabled.tClz (c : CoreId) (m : Slot) : Tabled.Statement (.tClz c m) := fun h => ⟨fun _ e => (nomatch e), fun _ e => by cases e; exact h⟩
theorem Tabled.tCtz (c : CoreId) (m : Slot) : Tabled.Statement (.tCtz c m) := fun h => ⟨fun _ e => (nomatch e), fun _ e => by cases e; exact h⟩
theorem Tabled.tPopc (c : CoreId) (m : Slot) : Tabled.Statement (.tPopc c m) := fun h => ⟨fun _ e => (nomatch e), fun _ e => by cases e; exact h⟩
theorem Tabled.tPerm (c : CoreId) (m : Slot) : Tabled.Statement (.tPerm c m) := fun h => ⟨fun _ e => (nomatch e), fun _ e => by cases e; exact h⟩
theorem Tabled.tMul (c : CoreId) (m : Slot) : Tabled.Statement (.tMul c m) := fun h => ⟨fun _ e => (nomatch e), fun _ e => by cases e; exact h⟩
theorem Tabled.tMulu (c : CoreId) (m : Slot) : Tabled.Statement (.tMulu c m) := fun h => ⟨fun _ e => (nomatch e), fun _ e => by cases e; exact h⟩
theorem Tabled.tMulsu (c : CoreId) (m : Slot) : Tabled.Statement (.tMulsu c m) := fun h => ⟨fun _ e => (nomatch e), fun _ e => by cases e; exact h⟩
theorem Tabled.tDiv (c : CoreId) (m : Slot) : Tabled.Statement (.tDiv c m) := fun h => ⟨fun _ e => (nomatch e), fun _ e => by cases e; exact h⟩
theorem Tabled.tDivu (c : CoreId) (m : Slot) : Tabled.Statement (.tDivu c m) := fun h => ⟨fun _ e => (nomatch e), fun _ e => by cases e; exact h⟩
theorem Tabled.tLd (c : CoreId) (m : Slot) : Tabled.Statement (.tLd c m) := fun h => ⟨fun _ e => (nomatch e), fun _ e => by cases e; exact h⟩
theorem Tabled.tSt (c : CoreId) (m : Slot) : Tabled.Statement (.tSt c m) := fun h => ⟨fun _ e => (nomatch e), fun _ e => by cases e; exact h⟩
theorem Tabled.tLdpi (c : CoreId) (m : Slot) : Tabled.Statement (.tLdpi c m) := fun h => ⟨fun _ e => (nomatch e), fun _ e => by cases e; exact h⟩
theorem Tabled.tStpi (c : CoreId) (m : Slot) : Tabled.Statement (.tStpi c m) := fun h => ⟨fun _ e => (nomatch e), fun _ e => by cases e; exact h⟩
theorem Tabled.tLr (c : CoreId) (m : Slot) : Tabled.Statement (.tLr c m) := fun h => ⟨fun _ e => (nomatch e), fun _ e => by cases e; exact h⟩
theorem Tabled.tSc (c : CoreId) (m : Slot) : Tabled.Statement (.tSc c m) := fun h => ⟨fun _ e => (nomatch e), fun _ e => by cases e; exact h⟩
theorem Tabled.tSwap (c : CoreId) (m : Slot) : Tabled.Statement (.tSwap c m) := fun h => ⟨fun _ e => (nomatch e), fun _ e => by cases e; exact h⟩
theorem Tabled.lsuTFadd (c : CoreId) (m : Slot) : Tabled.Statement (.lsuTFadd c m) := fun h => ⟨fun _ e => (nomatch e), fun _ e => by cases e; exact h⟩
theorem Tabled.tCas (c : CoreId) (m : Slot) : Tabled.Statement (.tCas c m) := fun h => ⟨fun _ e => (nomatch e), fun _ e => by cases e; exact h⟩
theorem Tabled.tBr (c : CoreId) (m : Slot) : Tabled.Statement (.tBr c m) := fun h => ⟨fun _ e => (nomatch e), fun _ e => by cases e; exact h⟩
theorem Tabled.tBri (c : CoreId) (m : Slot) : Tabled.Statement (.tBri c m) := fun h => ⟨fun _ e => (nomatch e), fun _ e => by cases e; exact h⟩
theorem Tabled.tCall (c : CoreId) (m : Slot) : Tabled.Statement (.tCall c m) := fun h => ⟨fun _ e => (nomatch e), fun _ e => by cases e; exact h⟩
theorem Tabled.tCalli (c : CoreId) (m : Slot) : Tabled.Statement (.tCalli c m) := fun h => ⟨fun _ e => (nomatch e), fun _ e => by cases e; exact h⟩
theorem Tabled.tRet (c : CoreId) (m : Slot) : Tabled.Statement (.tRet c m) := fun h => ⟨fun _ e => (nomatch e), fun _ e => by cases e; exact h⟩
theorem Tabled.tRsflush (c : CoreId) (m : Slot) : Tabled.Statement (.tRsflush c m) := fun h => ⟨fun _ e => (nomatch e), fun _ e => by cases e; exact h⟩
theorem Tabled.fpuTFadd (c : CoreId) (m : Slot) : Tabled.Statement (.fpuTFadd c m) := fun h => ⟨fun _ e => (nomatch e), fun _ e => by cases e; exact h⟩
theorem Tabled.tFsub (c : CoreId) (m : Slot) : Tabled.Statement (.tFsub c m) := fun h => ⟨fun _ e => (nomatch e), fun _ e => by cases e; exact h⟩
theorem Tabled.tFmul (c : CoreId) (m : Slot) : Tabled.Statement (.tFmul c m) := fun h => ⟨fun _ e => (nomatch e), fun _ e => by cases e; exact h⟩
theorem Tabled.tFma (c : CoreId) (m : Slot) : Tabled.Statement (.tFma c m) := fun h => ⟨fun _ e => (nomatch e), fun _ e => by cases e; exact h⟩
theorem Tabled.tFdiv (c : CoreId) (m : Slot) : Tabled.Statement (.tFdiv c m) := fun h => ⟨fun _ e => (nomatch e), fun _ e => by cases e; exact h⟩
theorem Tabled.tFsqrt (c : CoreId) (m : Slot) : Tabled.Statement (.tFsqrt c m) := fun h => ⟨fun _ e => (nomatch e), fun _ e => by cases e; exact h⟩
theorem Tabled.tFmin (c : CoreId) (m : Slot) : Tabled.Statement (.tFmin c m) := fun h => ⟨fun _ e => (nomatch e), fun _ e => by cases e; exact h⟩
theorem Tabled.tFmax (c : CoreId) (m : Slot) : Tabled.Statement (.tFmax c m) := fun h => ⟨fun _ e => (nomatch e), fun _ e => by cases e; exact h⟩
theorem Tabled.tFcvti (c : CoreId) (m : Slot) : Tabled.Statement (.tFcvti c m) := fun h => ⟨fun _ e => (nomatch e), fun _ e => by cases e; exact h⟩
theorem Tabled.tFcvtf (c : CoreId) (m : Slot) : Tabled.Statement (.tFcvtf c m) := fun h => ⟨fun _ e => (nomatch e), fun _ e => by cases e; exact h⟩
theorem Tabled.tFcvtp (c : CoreId) (m : Slot) : Tabled.Statement (.tFcvtp c m) := fun h => ⟨fun _ e => (nomatch e), fun _ e => by cases e; exact h⟩
theorem Tabled.tFcmpeq (c : CoreId) (m : Slot) : Tabled.Statement (.tFcmpeq c m) := fun h => ⟨fun _ e => (nomatch e), fun _ e => by cases e; exact h⟩
theorem Tabled.tFcmplt (c : CoreId) (m : Slot) : Tabled.Statement (.tFcmplt c m) := fun h => ⟨fun _ e => (nomatch e), fun _ e => by cases e; exact h⟩
theorem Tabled.tFcmple (c : CoreId) (m : Slot) : Tabled.Statement (.tFcmple c m) := fun h => ⟨fun _ e => (nomatch e), fun _ e => by cases e; exact h⟩
theorem Tabled.tFcmpun (c : CoreId) (m : Slot) : Tabled.Statement (.tFcmpun c m) := fun h => ⟨fun _ e => (nomatch e), fun _ e => by cases e; exact h⟩
theorem Tabled.fpuCsrWrite (c : CoreId) (m : Slot) : Tabled.Statement (.fpuCsrWrite c m) := fun h => ⟨fun _ e => (nomatch e), fun _ e => by cases e; exact h⟩
theorem Tabled.tVadd (c : CoreId) (m : Slot) : Tabled.Statement (.tVadd c m) := fun h => ⟨fun _ e => (nomatch e), fun _ e => by cases e; exact h⟩
theorem Tabled.tVsub (c : CoreId) (m : Slot) : Tabled.Statement (.tVsub c m) := fun h => ⟨fun _ e => (nomatch e), fun _ e => by cases e; exact h⟩
theorem Tabled.tVmul (c : CoreId) (m : Slot) : Tabled.Statement (.tVmul c m) := fun h => ⟨fun _ e => (nomatch e), fun _ e => by cases e; exact h⟩
theorem Tabled.tVfma (c : CoreId) (m : Slot) : Tabled.Statement (.tVfma c m) := fun h => ⟨fun _ e => (nomatch e), fun _ e => by cases e; exact h⟩
theorem Tabled.tVdot (c : CoreId) (m : Slot) : Tabled.Statement (.tVdot c m) := fun h => ⟨fun _ e => (nomatch e), fun _ e => by cases e; exact h⟩
theorem Tabled.tVperm (c : CoreId) (m : Slot) : Tabled.Statement (.tVperm c m) := fun h => ⟨fun _ e => (nomatch e), fun _ e => by cases e; exact h⟩
theorem Tabled.tVmin (c : CoreId) (m : Slot) : Tabled.Statement (.tVmin c m) := fun h => ⟨fun _ e => (nomatch e), fun _ e => by cases e; exact h⟩
theorem Tabled.tVmax (c : CoreId) (m : Slot) : Tabled.Statement (.tVmax c m) := fun h => ⟨fun _ e => (nomatch e), fun _ e => by cases e; exact h⟩
theorem Tabled.tVand (c : CoreId) (m : Slot) : Tabled.Statement (.tVand c m) := fun h => ⟨fun _ e => (nomatch e), fun _ e => by cases e; exact h⟩
theorem Tabled.tVor (c : CoreId) (m : Slot) : Tabled.Statement (.tVor c m) := fun h => ⟨fun _ e => (nomatch e), fun _ e => by cases e; exact h⟩
theorem Tabled.tVxor (c : CoreId) (m : Slot) : Tabled.Statement (.tVxor c m) := fun h => ⟨fun _ e => (nomatch e), fun _ e => by cases e; exact h⟩
theorem Tabled.tVsplat (c : CoreId) (m : Slot) : Tabled.Statement (.tVsplat c m) := fun h => ⟨fun _ e => (nomatch e), fun _ e => by cases e; exact h⟩
theorem Tabled.tVred (c : CoreId) (m : Slot) : Tabled.Statement (.tVred c m) := fun h => ⟨fun _ e => (nomatch e), fun _ e => by cases e; exact h⟩
theorem Tabled.tVgather (c : CoreId) (m : Slot) : Tabled.Statement (.tVgather c m) := fun h => ⟨fun _ e => (nomatch e), fun _ e => by cases e; exact h⟩
theorem Tabled.rcWrite (c : CoreId) (m : Slot) : Tabled.Statement (.rcWrite c m) := fun h => ⟨fun _ e => (nomatch e), fun _ e => by cases e; exact h⟩
theorem Tabled.tRep (c : CoreId) (m : Slot) : Tabled.Statement (.tRep c m) := fun h => ⟨fun _ e => (nomatch e), fun _ e => by cases e; exact h⟩
theorem Tabled.tLoop (c : CoreId) (m : Slot) : Tabled.Statement (.tLoop c m) := fun h => ⟨fun _ e => (nomatch e), fun _ e => by cases e; exact h⟩
theorem Tabled.tSaveLo (c : CoreId) (m : Slot) : Tabled.Statement (.tSaveLo c m) := fun h => ⟨fun _ e => (nomatch e), fun _ e => by cases e; exact h⟩
theorem Tabled.tSaveHi (c : CoreId) (m : Slot) : Tabled.Statement (.tSaveHi c m) := fun h => ⟨fun _ e => (nomatch e), fun _ e => by cases e; exact h⟩
theorem Tabled.tLoadLo (c : CoreId) (m : Slot) : Tabled.Statement (.tLoadLo c m) := fun h => ⟨fun _ e => (nomatch e), fun _ e => by cases e; exact h⟩
theorem Tabled.tLoadHi (c : CoreId) (m : Slot) : Tabled.Statement (.tLoadHi c m) := fun h => ⟨fun _ e => (nomatch e), fun _ e => by cases e; exact h⟩
theorem Tabled.tStm (c : CoreId) (m : Slot) : Tabled.Statement (.tStm c m) := fun h => ⟨fun _ e => (nomatch e), fun _ e => by cases e; exact h⟩
theorem Tabled.tLdm (c : CoreId) (m : Slot) : Tabled.Statement (.tLdm c m) := fun h => ⟨fun _ e => (nomatch e), fun _ e => by cases e; exact h⟩
theorem Tabled.tFeed8 (c : CoreId) (m : Slot) : Tabled.Statement (.tFeed8 c m) := fun h => ⟨fun _ e => (nomatch e), fun _ e => by cases e; exact h⟩
theorem Tabled.tFeed16 (c : CoreId) (m : Slot) : Tabled.Statement (.tFeed16 c m) := fun h => ⟨fun _ e => (nomatch e), fun _ e => by cases e; exact h⟩
theorem Tabled.tFeed32 (c : CoreId) (m : Slot) : Tabled.Statement (.tFeed32 c m) := fun h => ⟨fun _ e => (nomatch e), fun _ e => by cases e; exact h⟩
theorem Tabled.tInit (c : CoreId) (m : Slot) : Tabled.Statement (.tInit c m) := fun h => ⟨fun _ e => (nomatch e), fun _ e => by cases e; exact h⟩
theorem Tabled.chkValWrite (c : CoreId) (m : Slot) : Tabled.Statement (.chkValWrite c m) := fun h => ⟨fun _ e => (nomatch e), fun _ e => by cases e; exact h⟩
theorem Tabled.chkExpWrite (c : CoreId) (m : Slot) : Tabled.Statement (.chkExpWrite c m) := fun h => ⟨fun _ e => (nomatch e), fun _ e => by cases e; exact h⟩
theorem Tabled.tCmp (c : CoreId) (m : Slot) : Tabled.Statement (.tCmp c m) := fun h => ⟨fun _ e => (nomatch e), fun _ e => by cases e; exact h⟩
theorem Tabled.tAbort (c : CoreId) (m : Slot) : Tabled.Statement (.tAbort c m) := fun h => ⟨fun _ e => (nomatch e), fun _ e => by cases e; exact h⟩
theorem Tabled.trcStimulus (c : CoreId) (port : BitVec 6) (m : Slot) : Tabled.Statement (.trcStimulus c port m) := fun h => ⟨fun _ e => (nomatch e), fun _ e => by cases e; exact h⟩
theorem Tabled.tFenceS (c : CoreId) (m : Slot) : Tabled.Statement (.tFenceS c m) := fun h => ⟨fun _ e => (nomatch e), fun _ e => by cases e; exact h⟩
theorem Tabled.tFenceL (c : CoreId) (m : Slot) : Tabled.Statement (.tFenceL c m) := fun h => ⟨fun _ e => (nomatch e), fun _ e => by cases e; exact h⟩
theorem Tabled.tFenceF (c : CoreId) (m : Slot) : Tabled.Statement (.tFenceF c m) := fun h => ⟨fun _ e => (nomatch e), fun _ e => by cases e; exact h⟩
theorem Tabled.tFenceD (c : CoreId) (m : Slot) : Tabled.Statement (.tFenceD c m) := fun h => ⟨fun _ e => (nomatch e), fun _ e => by cases e; exact h⟩
theorem Tabled.barrierWaitEnd (c : CoreId) : Tabled.Statement (.barrierWaitEnd c) := fun _ => ⟨fun _ e => (nomatch e), fun _ e => (nomatch e)⟩
theorem Tabled.tSrrd (c : CoreId) (m : Slot) : Tabled.Statement (.tSrrd c m) := fun h => ⟨fun _ e => (nomatch e), fun _ e => by cases e; exact h⟩
theorem Tabled.tSrwr (c : CoreId) (m : Slot) : Tabled.Statement (.tSrwr c m) := fun h => ⟨fun _ e => (nomatch e), fun _ e => by cases e; exact h⟩
theorem Tabled.sysTimeRead (c : CoreId) (m : Slot) (dst : BitVec 9) : Tabled.Statement (.sysTimeRead c m dst) := fun h => ⟨fun _ e => (nomatch e), fun _ e => by cases e; exact h⟩
theorem Tabled.tReturn (c : CoreId) (m : Slot) : Tabled.Statement (.tReturn c m) := fun h => ⟨fun _ e => (nomatch e), fun _ e => by cases e; exact h⟩
theorem Tabled.tGate (c : CoreId) (k : Fin 3) (m : Slot) : Tabled.Statement (.tGate c k m) := fun h => ⟨fun _ e => (nomatch e), fun _ e => by cases e; exact h⟩
theorem Tabled.tSeal (c : CoreId) (m : Slot) : Tabled.Statement (.tSeal c m) := fun h => ⟨fun _ e => (nomatch e), fun _ e => by cases e; exact h⟩
theorem Tabled.tJobend (c : CoreId) (m : Slot) : Tabled.Statement (.tJobend c m) := fun h => ⟨fun _ e => (nomatch e), fun _ e => by cases e; exact h⟩
theorem Tabled.tWait (c : CoreId) (m : Slot) : Tabled.Statement (.tWait c m) := fun h => ⟨fun _ e => (nomatch e), fun _ e => by cases e; exact h⟩
theorem Tabled.tBreak (c : CoreId) (m : Slot) : Tabled.Statement (.tBreak c m) := fun h => ⟨fun _ e => (nomatch e), fun _ e => by cases e; exact h⟩
theorem Tabled.exceptionEntry (c : CoreId) : Tabled.Statement (.exceptionEntry c) := fun _ => ⟨fun _ e => (nomatch e), fun _ e => (nomatch e)⟩
theorem Tabled.interruptTaken (c : CoreId) : Tabled.Statement (.interruptTaken c) := fun _ => ⟨fun _ e => (nomatch e), fun _ e => (nomatch e)⟩
theorem Tabled.preemptionTaken (c : CoreId) : Tabled.Statement (.preemptionTaken c) := fun _ => ⟨fun _ e => (nomatch e), fun _ e => (nomatch e)⟩
theorem Tabled.niwWindowEnd (c : CoreId) : Tabled.Statement (.niwWindowEnd c) := fun _ => ⟨fun _ e => (nomatch e), fun _ e => (nomatch e)⟩
theorem Tabled.icacheFillArrival (c : CoreId) : Tabled.Statement (.icacheFillArrival c) := fun _ => ⟨fun _ e => (nomatch e), fun _ e => (nomatch e)⟩
theorem Tabled.dcacheFillArrival (c : CoreId) : Tabled.Statement (.dcacheFillArrival c) := fun _ => ⟨fun _ e => (nomatch e), fun _ e => (nomatch e)⟩
theorem Tabled.specFillArrival (c : CoreId) (line : BitVec 38) : Tabled.Statement (.specFillArrival c line) := fun _ => ⟨fun _ e => (nomatch e), fun _ e => (nomatch e)⟩
theorem Tabled.deviceLoadAnswer (c : CoreId) : Tabled.Statement (.deviceLoadAnswer c) := fun _ => ⟨fun _ e => (nomatch e), fun _ e => (nomatch e)⟩
theorem Tabled.storeBufferDrain (c : CoreId) (i : Nat) : Tabled.Statement (.storeBufferDrain c i) := fun _ => ⟨fun _ e => (nomatch e), fun _ e => (nomatch e)⟩
theorem Tabled.savingClear (tcb : BitVec 16) : Tabled.Statement (.savingClear tcb) := fun _ => ⟨fun _ e => (nomatch e), fun _ e => (nomatch e)⟩
theorem Tabled.taskSwitchIn (c : CoreId) : Tabled.Statement (.taskSwitchIn c) := fun _ => ⟨fun _ e => (nomatch e), fun _ e => (nomatch e)⟩
theorem Tabled.groupLoadDone (c : CoreId) (grp : Fin 6) : Tabled.Statement (.groupLoadDone c grp) := fun _ => ⟨fun _ e => (nomatch e), fun _ e => (nomatch e)⟩
theorem Tabled.schedEventArrival : Tabled.Statement (.schedEventArrival) := fun _ => ⟨fun _ e => (nomatch e), fun _ e => (nomatch e)⟩
theorem Tabled.fretOpen (cl : CluId) (fret : BitVec 10) : Tabled.Statement (.fretOpen cl fret) := fun _ => ⟨fun _ e => (nomatch e), fun _ e => (nomatch e)⟩
theorem Tabled.fretClose (cl : CluId) (fret : BitVec 10) : Tabled.Statement (.fretClose cl fret) := fun _ => ⟨fun _ e => (nomatch e), fun _ e => (nomatch e)⟩
theorem Tabled.hvEventArrival : Tabled.Statement (.hvEventArrival) := fun _ => ⟨fun _ e => (nomatch e), fun _ e => (nomatch e)⟩
theorem Tabled.tcbReset (a : Access) (cl : CluId) (v : Word) : Tabled.Statement (.tcbReset a cl v) := fun h => ⟨fun _ e => by cases e; exact h, fun _ e => (nomatch e)⟩
theorem Tabled.tcbStart (a : Access) (cl : CluId) (v : Word) : Tabled.Statement (.tcbStart a cl v) := fun h => ⟨fun _ e => by cases e; exact h, fun _ e => (nomatch e)⟩
theorem Tabled.walkComplete (c : CoreId) : Tabled.Statement (.walkComplete c) := fun _ => ⟨fun _ e => (nomatch e), fun _ e => (nomatch e)⟩
theorem Tabled.tlbInvVa (c : CoreId) (m : Slot) : Tabled.Statement (.tlbInvVa c m) := fun h => ⟨fun _ e => (nomatch e), fun _ e => by cases e; exact h⟩
theorem Tabled.tlbInvAsid (c : CoreId) (m : Slot) : Tabled.Statement (.tlbInvAsid c m) := fun h => ⟨fun _ e => (nomatch e), fun _ e => by cases e; exact h⟩
theorem Tabled.tlbInvCellL1 (c : CoreId) (m : Slot) : Tabled.Statement (.tlbInvCellL1 c m) := fun h => ⟨fun _ e => (nomatch e), fun _ e => by cases e; exact h⟩
theorem Tabled.tlbInvIpa (c : CoreId) (m : Slot) : Tabled.Statement (.tlbInvIpa c m) := fun h => ⟨fun _ e => (nomatch e), fun _ e => by cases e; exact h⟩
theorem Tabled.tlbInvCellL2 (c : CoreId) (m : Slot) : Tabled.Statement (.tlbInvCellL2 c m) := fun h => ⟨fun _ e => (nomatch e), fun _ e => by cases e; exact h⟩
theorem Tabled.tlbInvHost (c : CoreId) (m : Slot) : Tabled.Statement (.tlbInvHost c m) := fun h => ⟨fun _ e => (nomatch e), fun _ e => by cases e; exact h⟩
theorem Tabled.tlbInvDone (c : CoreId) : Tabled.Statement (.tlbInvDone c) := fun _ => ⟨fun _ e => (nomatch e), fun _ e => (nomatch e)⟩
theorem Tabled.cellS2Write (c : CoreId) (m : Slot) : Tabled.Statement (.cellS2Write c m) := fun h => ⟨fun _ e => (nomatch e), fun _ e => by cases e; exact h⟩
theorem Tabled.htRootWrite (c : CoreId) (m : Slot) : Tabled.Statement (.htRootWrite c m) := fun h => ⟨fun _ e => (nomatch e), fun _ e => by cases e; exact h⟩
theorem Tabled.restart (c : CoreId) (m : Slot) : Tabled.Statement (.restart c m) := fun h => ⟨fun _ e => (nomatch e), fun _ e => by cases e; exact h⟩
theorem Tabled.cellStopped (c : CoreId) (m : Slot) : Tabled.Statement (.cellStopped c m) := fun h => ⟨fun _ e => (nomatch e), fun _ e => by cases e; exact h⟩
theorem Tabled.inboundPcieRequest (r : PcieReq) : Tabled.Statement (.inboundPcieRequest r) := fun _ => ⟨fun _ e => (nomatch e), fun _ e => (nomatch e)⟩
theorem Tabled.icInvLine (c : CoreId) (m : Slot) : Tabled.Statement (.icInvLine c m) := fun h => ⟨fun _ e => (nomatch e), fun _ e => by cases e; exact h⟩
theorem Tabled.icInvAll (c : CoreId) (m : Slot) : Tabled.Statement (.icInvAll c m) := fun h => ⟨fun _ e => (nomatch e), fun _ e => by cases e; exact h⟩
theorem Tabled.slcRequest (r : Req) (mt : Nat) : Tabled.Statement (.slcRequest r mt) := fun _ => ⟨fun _ e => (nomatch e), fun _ e => (nomatch e)⟩
theorem Tabled.coherenceRequest (line : BitVec 38) (cl : CluId) (keepClean : Bool) : Tabled.Statement (.coherenceRequest line cl keepClean) := fun _ => ⟨fun _ e => (nomatch e), fun _ e => (nomatch e)⟩
theorem Tabled.scratchAccess (r : Req) : Tabled.Statement (.scratchAccess r) := fun _ => ⟨fun _ e => (nomatch e), fun _ e => (nomatch e)⟩
theorem Tabled.cleanAddr (a : Access) (v : Word) : Tabled.Statement (.cleanAddr a v) := fun h => ⟨fun _ e => by cases e; exact h, fun _ e => (nomatch e)⟩
theorem Tabled.cleanInvAddr (a : Access) (v : Word) : Tabled.Statement (.cleanInvAddr a v) := fun h => ⟨fun _ e => by cases e; exact h, fun _ e => (nomatch e)⟩
theorem Tabled.cleanCell (a : Access) (v : Word) : Tabled.Statement (.cleanCell a v) := fun h => ⟨fun _ e => by cases e; exact h, fun _ e => (nomatch e)⟩
theorem Tabled.cleanInvCell (a : Access) (v : Word) : Tabled.Statement (.cleanInvCell a v) := fun h => ⟨fun _ e => by cases e; exact h, fun _ e => (nomatch e)⟩
theorem Tabled.cleanClass (a : Access) (v : Word) : Tabled.Statement (.cleanClass a v) := fun h => ⟨fun _ e => by cases e; exact h, fun _ e => (nomatch e)⟩
theorem Tabled.cleanInvClass (a : Access) (v : Word) : Tabled.Statement (.cleanInvClass a v) := fun h => ⟨fun _ e => by cases e; exact h, fun _ e => (nomatch e)⟩
theorem Tabled.remask (a : Access) (v : Word) : Tabled.Statement (.remask a v) := fun h => ⟨fun _ e => by cases e; exact h, fun _ e => (nomatch e)⟩
theorem Tabled.mntSliceDone (site : Fin 16) (wbOk : Bool) : Tabled.Statement (.mntSliceDone site wbOk) := fun _ => ⟨fun _ e => (nomatch e), fun _ e => (nomatch e)⟩
theorem Tabled.tokenGrant (site : Fin 16) : Tabled.Statement (.tokenGrant site) := fun _ => ⟨fun _ e => (nomatch e), fun _ e => (nomatch e)⟩
theorem Tabled.slcErrInject (a : Access) (v : Word) : Tabled.Statement (.slcErrInject a v) := fun h => ⟨fun _ e => by cases e; exact h, fun _ e => (nomatch e)⟩
theorem Tabled.hmcRequest (hmc : BitVec 6) (r : Req) : Tabled.Statement (.hmcRequest hmc r) := fun _ => ⟨fun _ e => (nomatch e), fun _ e => (nomatch e)⟩
theorem Tabled.hmcCommandIssue (hmc : BitVec 6) (pc : Fin 2) : Tabled.Statement (.hmcCommandIssue hmc pc) := fun _ => ⟨fun _ e => (nomatch e), fun _ e => (nomatch e)⟩
theorem Tabled.hmcReadData (hmc : BitVec 6) (pc : Fin 2) (e : EccResult) : Tabled.Statement (.hmcReadData hmc pc e) := fun _ => ⟨fun _ e => (nomatch e), fun _ e => (nomatch e)⟩
theorem Tabled.hbmParityError (hmc : BitVec 6) (pc : Fin 2) (ok : Bool) : Tabled.Statement (.hbmParityError hmc pc ok) := fun _ => ⟨fun _ e => (nomatch e), fun _ e => (nomatch e)⟩
theorem Tabled.trefiTick (hmc : BitVec 6) (pc : Fin 2) : Tabled.Statement (.trefiTick hmc pc) := fun _ => ⟨fun _ e => (nomatch e), fun _ e => (nomatch e)⟩
theorem Tabled.refreshDone (hmc : BitVec 6) (pc : Fin 2) : Tabled.Statement (.refreshDone hmc pc) := fun _ => ⟨fun _ e => (nomatch e), fun _ e => (nomatch e)⟩
theorem Tabled.hbmTempRead (hmc : BitVec 6) (temp : BitVec 8) : Tabled.Statement (.hbmTempRead hmc temp) := fun _ => ⟨fun _ e => (nomatch e), fun _ e => (nomatch e)⟩
theorem Tabled.bootTraining (a : Access) (hmc : BitVec 6) (v : Word) : Tabled.Statement (.bootTraining a hmc v) := fun h => ⟨fun _ e => by cases e; exact h, fun _ e => (nomatch e)⟩
theorem Tabled.retrain (a : Access) (hmc : BitVec 6) (v : Word) : Tabled.Statement (.retrain a hmc v) := fun h => ⟨fun _ e => by cases e; exact h, fun _ e => (nomatch e)⟩
theorem Tabled.scheduledTrainingStart (hmc : BitVec 6) : Tabled.Statement (.scheduledTrainingStart hmc) := fun _ => ⟨fun _ e => (nomatch e), fun _ e => (nomatch e)⟩
theorem Tabled.trainStepDone (hmc : BitVec 6) (ok : Bool) (lanes : BitVec 8) : Tabled.Statement (.trainStepDone hmc ok lanes) := fun _ => ⟨fun _ e => (nomatch e), fun _ e => (nomatch e)⟩
theorem Tabled.hmcErrInject (a : Access) (hmc : BitVec 6) (v : Word) : Tabled.Statement (.hmcErrInject a hmc v) := fun h => ⟨fun _ e => by cases e; exact h, fun _ e => (nomatch e)⟩
theorem Tabled.timeRateWrite (a : Access) (v : Word) : Tabled.Statement (.timeRateWrite a v) := fun h => ⟨fun _ e => by cases e; exact h, fun _ e => (nomatch e)⟩
theorem Tabled.timeStepWrite (a : Access) (v : Word) : Tabled.Statement (.timeStepWrite a v) := fun h => ⟨fun _ e => by cases e; exact h, fun _ e => (nomatch e)⟩
theorem Tabled.timeRefLoss : Tabled.Statement (.timeRefLoss) := fun _ => ⟨fun _ e => (nomatch e), fun _ e => (nomatch e)⟩
theorem Tabled.holdoverExit : Tabled.Statement (.holdoverExit) := fun _ => ⟨fun _ e => (nomatch e), fun _ e => (nomatch e)⟩
theorem Tabled.timePllUnlock : Tabled.Statement (.timePllUnlock) := fun _ => ⟨fun _ e => (nomatch e), fun _ e => (nomatch e)⟩
theorem Tabled.ppsOutRise : Tabled.Statement (.ppsOutRise) := fun _ => ⟨fun _ e => (nomatch e), fun _ e => (nomatch e)⟩
theorem Tabled.ppsOutFall : Tabled.Statement (.ppsOutFall) := fun _ => ⟨fun _ e => (nomatch e), fun _ e => (nomatch e)⟩
theorem Tabled.ppsInEdge : Tabled.Statement (.ppsInEdge) := fun _ => ⟨fun _ e => (nomatch e), fun _ e => (nomatch e)⟩
theorem Tabled.timerExpiry (t : BitVec 8) : Tabled.Statement (.timerExpiry t) := fun _ => ⟨fun _ e => (nomatch e), fun _ e => (nomatch e)⟩
theorem Tabled.timerCtrlWrite (a : Access) (t : BitVec 8) (v : Word) : Tabled.Statement (.timerCtrlWrite a t v) := fun h => ⟨fun _ e => by cases e; exact h, fun _ e => (nomatch e)⟩
theorem Tabled.timerCmpWrite (a : Access) (t : BitVec 8) (v : Word) : Tabled.Statement (.timerCmpWrite a t v) := fun h => ⟨fun _ e => by cases e; exact h, fun _ e => (nomatch e)⟩
theorem Tabled.jobReleasePeriodic (j : BitVec 14) : Tabled.Statement (.jobReleasePeriodic j) := fun _ => ⟨fun _ e => (nomatch e), fun _ e => (nomatch e)⟩
theorem Tabled.jobCloseArrival : Tabled.Statement (.jobCloseArrival) := fun _ => ⟨fun _ e => (nomatch e), fun _ e => (nomatch e)⟩
theorem Tabled.deadlineExpiry (j : BitVec 14) : Tabled.Statement (.deadlineExpiry j) := fun _ => ⟨fun _ e => (nomatch e), fun _ e => (nomatch e)⟩
theorem Tabled.budgetExhaustion (j : BitVec 14) : Tabled.Statement (.budgetExhaustion j) := fun _ => ⟨fun _ e => (nomatch e), fun _ e => (nomatch e)⟩
theorem Tabled.wdKick (a : Access) (v : Word) : Tabled.Statement (.wdKick a v) := fun h => ⟨fun _ e => by cases e; exact h, fun _ e => (nomatch e)⟩
theorem Tabled.wdExpired (cell : CellId) : Tabled.Statement (.wdExpired cell) := fun _ => ⟨fun _ e => (nomatch e), fun _ e => (nomatch e)⟩
theorem Tabled.devWdKick (a : Access) (v : Word) : Tabled.Statement (.devWdKick a v) := fun h => ⟨fun _ e => by cases e; exact h, fun _ e => (nomatch e)⟩
theorem Tabled.devWatchdog : Tabled.Statement (.devWatchdog) := fun _ => ⟨fun _ e => (nomatch e), fun _ e => (nomatch e)⟩
theorem Tabled.devWdLock (a : Access) (v : Word) : Tabled.Statement (.devWdLock a v) := fun h => ⟨fun _ e => by cases e; exact h, fun _ e => (nomatch e)⟩
theorem Tabled.faultRecordArrival : Tabled.Statement (.faultRecordArrival) := fun _ => ⟨fun _ e => (nomatch e), fun _ e => (nomatch e)⟩
theorem Tabled.faultRecordStore : Tabled.Statement (.faultRecordStore) := fun _ => ⟨fun _ e => (nomatch e), fun _ e => (nomatch e)⟩
theorem Tabled.ringEnWrite (a : Access) (v : Word) : Tabled.Statement (.ringEnWrite a v) := fun h => ⟨fun _ e => by cases e; exact h, fun _ e => (nomatch e)⟩
theorem Tabled.ringTailWrite (a : Access) (v : Word) : Tabled.Statement (.ringTailWrite a v) := fun h => ⟨fun _ e => by cases e; exact h, fun _ e => (nomatch e)⟩
theorem Tabled.blockRelease (a : Access) (v : Word) : Tabled.Statement (.blockRelease a v) := fun h => ⟨fun _ e => by cases e; exact h, fun _ e => (nomatch e)⟩
theorem Tabled.blockDiscard (a : Access) (v : Word) : Tabled.Statement (.blockDiscard a v) := fun h => ⟨fun _ e => by cases e; exact h, fun _ e => (nomatch e)⟩
theorem Tabled.fltSafeCmd (a : Access) (v : Word) : Tabled.Statement (.fltSafeCmd a v) := fun h => ⟨fun _ e => by cases e; exact h, fun _ e => (nomatch e)⟩
theorem Tabled.safeRelease (a : Access) (v : Word) : Tabled.Statement (.safeRelease a v) := fun h => ⟨fun _ e => by cases e; exact h, fun _ e => (nomatch e)⟩
theorem Tabled.fwFault (a : Access) (v : Word) : Tabled.Statement (.fwFault a v) := fun h => ⟨fun _ e => by cases e; exact h, fun _ e => (nomatch e)⟩
theorem Tabled.extSafeNFall : Tabled.Statement (.extSafeNFall) := fun _ => ⟨fun _ e => (nomatch e), fun _ e => (nomatch e)⟩
theorem Tabled.extSafe : Tabled.Statement (.extSafe) := fun _ => ⟨fun _ e => (nomatch e), fun _ e => (nomatch e)⟩
theorem Tabled.lockstepMismatch (pair : Fin 2) : Tabled.Statement (.lockstepMismatch pair) := fun _ => ⟨fun _ e => (nomatch e), fun _ e => (nomatch e)⟩
theorem Tabled.ethFrameReceive (port : Fin 10) (f : List Byte) (fcsOk : Bool) : Tabled.Statement (.ethFrameReceive port f fcsOk) := fun _ => ⟨fun _ e => (nomatch e), fun _ e => (nomatch e)⟩
theorem Tabled.frerResetTimeout (f : BitVec 14) : Tabled.Statement (.frerResetTimeout f) := fun _ => ⟨fun _ e => (nomatch e), fun _ e => (nomatch e)⟩
theorem Tabled.rxHdrWriteDone (e : BitVec 12) : Tabled.Statement (.rxHdrWriteDone e) := fun _ => ⟨fun _ e => (nomatch e), fun _ e => (nomatch e)⟩
theorem Tabled.ringConsWrite (a : Access) (kind : Fin 3) (i : BitVec 12) (v : Word) : Tabled.Statement (.ringConsWrite a kind i v) := fun h => ⟨fun _ e => by cases e; exact (Bool.and_eq_true_iff.mp h).1, fun _ e => (nomatch e)⟩
theorem Tabled.ringEnable (a : Access) (kind : Fin 3) (i : BitVec 12) (v : Word) : Tabled.Statement (.ringEnable a kind i v) := fun h => ⟨fun _ e => by cases e; exact (Bool.and_eq_true_iff.mp h).1, fun _ e => (nomatch e)⟩
theorem Tabled.egressHdrReport (s : BitVec 12) : Tabled.Statement (.egressHdrReport s) := fun _ => ⟨fun _ e => (nomatch e), fun _ e => (nomatch e)⟩
theorem Tabled.portTransmitStart (port : Fin 12) : Tabled.Statement (.portTransmitStart port) := fun _ => ⟨fun _ e => (nomatch e), fun _ e => (nomatch e)⟩
theorem Tabled.portTransmitEnd (port : Fin 12) : Tabled.Statement (.portTransmitEnd port) := fun _ => ⟨fun _ e => (nomatch e), fun _ e => (nomatch e)⟩
theorem Tabled.gateListEntry (port : Fin 10) : Tabled.Statement (.gateListEntry port) := fun _ => ⟨fun _ e => (nomatch e), fun _ e => (nomatch e)⟩
theorem Tabled.streamFreshExpiry (s : BitVec 12) : Tabled.Statement (.streamFreshExpiry s) := fun _ => ⟨fun _ e => (nomatch e), fun _ e => (nomatch e)⟩
theorem Tabled.safeFrameInstant (s : BitVec 12) : Tabled.Statement (.safeFrameInstant s) := fun _ => ⟨fun _ e => (nomatch e), fun _ e => (nomatch e)⟩
theorem Tabled.ethLinkDown (port : Fin 10) : Tabled.Statement (.ethLinkDown port) := fun _ => ⟨fun _ e => (nomatch e), fun _ e => (nomatch e)⟩
theorem Tabled.canxlFrameReceive (ch : Fin 2) (f : List Byte) : Tabled.Statement (.canxlFrameReceive ch f) := fun _ => ⟨fun _ e => (nomatch e), fun _ e => (nomatch e)⟩
theorem Tabled.canxlBusOff (ch : Fin 2) : Tabled.Statement (.canxlBusOff ch) := fun _ => ⟨fun _ e => (nomatch e), fun _ e => (nomatch e)⟩
theorem Tabled.canxlBusOffRecovery (ch : Fin 2) : Tabled.Statement (.canxlBusOffRecovery ch) := fun _ => ⟨fun _ e => (nomatch e), fun _ e => (nomatch e)⟩
theorem Tabled.hostTxCommit (a : Access) (v : Word) : Tabled.Statement (.hostTxCommit a v) := fun h => ⟨fun _ e => by cases e; exact h, fun _ e => (nomatch e)⟩
theorem Tabled.pwrVoteAssert (a : Access) (v : Word) : Tabled.Statement (.pwrVoteAssert a v) := fun h => ⟨fun _ e => by cases e; exact h, fun _ e => (nomatch e)⟩
theorem Tabled.pwrVoteWithdraw (a : Access) (v : Word) : Tabled.Statement (.pwrVoteWithdraw a v) := fun h => ⟨fun _ e => by cases e; exact h, fun _ e => (nomatch e)⟩
theorem Tabled.hvVoteWrite (a : Access) (v : Word) : Tabled.Statement (.hvVoteWrite a v) := fun h => ⟨fun _ e => by cases e; exact h, fun _ e => (nomatch e)⟩
theorem Tabled.targetPsWrite (a : Access) (v : Word) : Tabled.Statement (.targetPsWrite a v) := fun h => ⟨fun _ e => by cases e; exact h, fun _ e => (nomatch e)⟩
theorem Tabled.domainEntryQuiet (d : Fin 39) : Tabled.Statement (.domainEntryQuiet d) := fun _ => ⟨fun _ e => (nomatch e), fun _ e => (nomatch e)⟩
theorem Tabled.domainEntryFenced (d : Fin 39) : Tabled.Statement (.domainEntryFenced d) := fun _ => ⟨fun _ e => (nomatch e), fun _ e => (nomatch e)⟩
theorem Tabled.domainEntryCommit (d : Fin 39) : Tabled.Statement (.domainEntryCommit d) := fun _ => ⟨fun _ e => (nomatch e), fun _ e => (nomatch e)⟩
theorem Tabled.domainEntryDone (d : Fin 39) : Tabled.Statement (.domainEntryDone d) := fun _ => ⟨fun _ e => (nomatch e), fun _ e => (nomatch e)⟩
theorem Tabled.entryAbortDone (d : Fin 39) : Tabled.Statement (.entryAbortDone d) := fun _ => ⟨fun _ e => (nomatch e), fun _ e => (nomatch e)⟩
theorem Tabled.domainWakeDone (d : Fin 39) : Tabled.Statement (.domainWakeDone d) := fun _ => ⟨fun _ e => (nomatch e), fun _ e => (nomatch e)⟩
theorem Tabled.thermalSample (sensor : BitVec 6) (temp : BitVec 8) : Tabled.Statement (.thermalSample sensor temp) := fun _ => ⟨fun _ e => (nomatch e), fun _ e => (nomatch e)⟩
theorem Tabled.thermalStepTimer (d : Fin 39) : Tabled.Statement (.thermalStepTimer d) := fun _ => ⟨fun _ e => (nomatch e), fun _ e => (nomatch e)⟩
theorem Tabled.pmicEcho : Tabled.Statement (.pmicEcho) := fun _ => ⟨fun _ e => (nomatch e), fun _ e => (nomatch e)⟩
theorem Tabled.pwrPmicFail : Tabled.Statement (.pwrPmicFail) := fun _ => ⟨fun _ e => (nomatch e), fun _ e => (nomatch e)⟩
theorem Tabled.railOutOfRange : Tabled.Statement (.railOutOfRange) := fun _ => ⟨fun _ e => (nomatch e), fun _ e => (nomatch e)⟩
theorem Tabled.powerOnReset : Tabled.Statement (.powerOnReset) := fun _ => ⟨fun _ e => (nomatch e), fun _ e => (nomatch e)⟩
theorem Tabled.porstNAssert : Tabled.Statement (.porstNAssert) := fun _ => ⟨fun _ e => (nomatch e), fun _ e => (nomatch e)⟩
theorem Tabled.porstNRelease (straps : BitVec 4) : Tabled.Statement (.porstNRelease straps) := fun _ => ⟨fun _ e => (nomatch e), fun _ e => (nomatch e)⟩
theorem Tabled.warmN (straps : BitVec 4) : Tabled.Statement (.warmN straps) := fun _ => ⟨fun _ e => (nomatch e), fun _ e => (nomatch e)⟩
theorem Tabled.bootResetCmd (a : Access) (v : Word) : Tabled.Statement (.bootResetCmd a v) := fun h => ⟨fun _ e => by cases e; exact h, fun _ e => (nomatch e)⟩
theorem Tabled.bootLcCmd (a : Access) (v : Word) : Tabled.Statement (.bootLcCmd a v) := fun h => ⟨fun _ e => by cases e; exact h, fun _ e => (nomatch e)⟩
theorem Tabled.bootRollbackSet (a : Access) (v : Word) : Tabled.Statement (.bootRollbackSet a v) := fun h => ⟨fun _ e => by cases e; exact h, fun _ e => (nomatch e)⟩
theorem Tabled.checkHmac (a : Access) (v : Word) : Tabled.Statement (.checkHmac a v) := fun h => ⟨fun _ e => by cases e; exact h, fun _ e => (nomatch e)⟩
theorem Tabled.checkEcdsa (a : Access) (v : Word) : Tabled.Statement (.checkEcdsa a v) := fun h => ⟨fun _ e => by cases e; exact h, fun _ e => (nomatch e)⟩
theorem Tabled.unlock (a : Access) (v : Word) : Tabled.Statement (.unlock a v) := fun h => ⟨fun _ e => by cases e; exact h, fun _ e => (nomatch e)⟩
theorem Tabled.kgCheckDone (region : Fin 17) : Tabled.Statement (.kgCheckDone region) := fun _ => ⟨fun _ e => (nomatch e), fun _ e => (nomatch e)⟩
theorem Tabled.coreRelease (a : Access) (v : Word) : Tabled.Statement (.coreRelease a v) := fun h => ⟨fun _ e => by cases e; exact h, fun _ e => (nomatch e)⟩
theorem Tabled.coreReset (a : Access) (v : Word) : Tabled.Statement (.coreReset a v) := fun h => ⟨fun _ e => by cases e; exact h, fun _ e => (nomatch e)⟩
theorem Tabled.bootMailboxInWrite (a : Access) (v : Word) : Tabled.Statement (.bootMailboxInWrite a v) := fun h => ⟨fun _ e => by cases e; exact h, fun _ e => (nomatch e)⟩
theorem Tabled.bootMailboxOutWrite (a : Access) (v : Word) : Tabled.Statement (.bootMailboxOutWrite a v) := fun h => ⟨fun _ e => by cases e; exact h, fun _ e => (nomatch e)⟩
theorem Tabled.bootSourceTimeout : Tabled.Statement (.bootSourceTimeout) := fun _ => ⟨fun _ e => (nomatch e), fun _ e => (nomatch e)⟩
theorem Tabled.bootFrame (f : List Byte) : Tabled.Statement (.bootFrame f) := fun _ => ⟨fun _ e => (nomatch e), fun _ e => (nomatch e)⟩
theorem Tabled.pcieDoorbellWrite (a : Access) (v : Word) : Tabled.Statement (.pcieDoorbellWrite a v) := fun h => ⟨fun _ e => by cases e; exact h, fun _ e => (nomatch e)⟩
theorem Tabled.helloFrame : Tabled.Statement (.helloFrame) := fun _ => ⟨fun _ e => (nomatch e), fun _ e => (nomatch e)⟩
theorem Tabled.beginFrame (f : List Byte) : Tabled.Statement (.beginFrame f) := fun _ => ⟨fun _ e => (nomatch e), fun _ e => (nomatch e)⟩
theorem Tabled.dataFrame (f : List Byte) : Tabled.Statement (.dataFrame f) := fun _ => ⟨fun _ e => (nomatch e), fun _ e => (nomatch e)⟩
theorem Tabled.endFrame (f : List Byte) : Tabled.Statement (.endFrame f) := fun _ => ⟨fun _ e => (nomatch e), fun _ e => (nomatch e)⟩
theorem Tabled.dbgregUpdate (scan : BitVec 80) : Tabled.Statement (.dbgregUpdate scan) := fun _ => ⟨fun _ e => (nomatch e), fun _ e => (nomatch e)⟩
theorem Tabled.dbgBegin (a : Access) (v : Word) : Tabled.Statement (.dbgBegin a v) := fun h => ⟨fun _ e => by cases e; exact h, fun _ e => (nomatch e)⟩
theorem Tabled.dbgCertCheckDone : Tabled.Statement (.dbgCertCheckDone) := fun _ => ⟨fun _ e => (nomatch e), fun _ e => (nomatch e)⟩
theorem Tabled.dbgRespond (a : Access) (v : Word) : Tabled.Statement (.dbgRespond a v) := fun h => ⟨fun _ e => by cases e; exact h, fun _ e => (nomatch e)⟩
theorem Tabled.dbgRespondCheckDone : Tabled.Statement (.dbgRespondCheckDone) := fun _ => ⟨fun _ e => (nomatch e), fun _ e => (nomatch e)⟩
theorem Tabled.dbgRespondTimeout : Tabled.Statement (.dbgRespondTimeout) := fun _ => ⟨fun _ e => (nomatch e), fun _ e => (nomatch e)⟩
theorem Tabled.dbgLockoutEnd : Tabled.Statement (.dbgLockoutEnd) := fun _ => ⟨fun _ e => (nomatch e), fun _ e => (nomatch e)⟩
theorem Tabled.closeSession (a : Access) (v : Word) : Tabled.Statement (.closeSession a v) := fun h => ⟨fun _ e => by cases e; exact h, fun _ e => (nomatch e)⟩
theorem Tabled.dbgHvLimitWrite (a : Access) (v : Word) : Tabled.Statement (.dbgHvLimitWrite a v) := fun h => ⟨fun _ e => by cases e; exact h, fun _ e => (nomatch e)⟩
theorem Tabled.dbgCellHalt (a : Access) (v : Word) : Tabled.Statement (.dbgCellHalt a v) := fun h => ⟨fun _ e => by cases e; exact h, fun _ e => (nomatch e)⟩
theorem Tabled.dbgCellResume (a : Access) (v : Word) : Tabled.Statement (.dbgCellResume a v) := fun h => ⟨fun _ e => by cases e; exact h, fun _ e => (nomatch e)⟩
theorem Tabled.dbgCtiPulse (a : Access) (v : Word) : Tabled.Statement (.dbgCtiPulse a v) := fun h => ⟨fun _ e => by cases e; exact h, fun _ e => (nomatch e)⟩
theorem Tabled.coreStop (c : CoreId) : Tabled.Statement (.coreStop c) := fun _ => ⟨fun _ e => (nomatch e), fun _ e => (nomatch e)⟩
theorem Tabled.dbgCoreStep (a : Access) (v : Word) : Tabled.Statement (.dbgCoreStep a v) := fun h => ⟨fun _ e => by cases e; exact h, fun _ e => (nomatch e)⟩
theorem Tabled.dbgCoreHalt (a : Access) (v : Word) : Tabled.Statement (.dbgCoreHalt a v) := fun h => ⟨fun _ e => by cases e; exact h, fun _ e => (nomatch e)⟩
theorem Tabled.dbgCoreResume (a : Access) (v : Word) : Tabled.Statement (.dbgCoreResume a v) := fun h => ⟨fun _ e => by cases e; exact h, fun _ e => (nomatch e)⟩
theorem Tabled.dbgCoreAcc (a : Access) (v : Word) : Tabled.Statement (.dbgCoreAcc a v) := fun h => ⟨fun _ e => by cases e; exact h, fun _ e => (nomatch e)⟩
theorem Tabled.dbgBusRead (a : Access) (v : Word) : Tabled.Statement (.dbgBusRead a v) := fun h => ⟨fun _ e => by cases e; exact h, fun _ e => (nomatch e)⟩
theorem Tabled.dbgBusWrite (a : Access) (v : Word) : Tabled.Statement (.dbgBusWrite a v) := fun h => ⟨fun _ e => by cases e; exact h, fun _ e => (nomatch e)⟩
theorem Tabled.traceEnable (a : Access) (v : Word) : Tabled.Statement (.traceEnable a v) := fun h => ⟨fun _ e => by cases e; exact h, fun _ e => (nomatch e)⟩
theorem Tabled.bifurWrite (a : Access) (v : Word) : Tabled.Statement (.bifurWrite a v) := fun h => ⟨fun _ e => by cases e; exact h, fun _ e => (nomatch e)⟩
theorem Tabled.pcieLinkChange (port : Fin 4) (e : PcieEvent) : Tabled.Statement (.pcieLinkChange port e) := fun _ => ⟨fun _ e => (nomatch e), fun _ e => (nomatch e)⟩
theorem Tabled.dmaStart (a : Access) (v : Word) : Tabled.Statement (.dmaStart a v) := fun h => ⟨fun _ e => by cases e; exact h, fun _ e => (nomatch e)⟩
theorem Tabled.dmaDescriptorDone (ch : Fin 16) : Tabled.Statement (.dmaDescriptorDone ch) := fun _ => ⟨fun _ e => (nomatch e), fun _ e => (nomatch e)⟩
theorem Tabled.gpioEdge (pin : Fin 32) (level : Bool) : Tabled.Statement (.gpioEdge pin level) := fun _ => ⟨fun _ e => (nomatch e), fun _ e => (nomatch e)⟩
theorem Tabled.uartRxEvent (i : Fin 2) (e : UartEvent) : Tabled.Statement (.uartRxEvent i e) := fun _ => ⟨fun _ e => (nomatch e), fun _ e => (nomatch e)⟩
theorem Tabled.i3cTransferDone (e : I3cEvent) : Tabled.Statement (.i3cTransferDone e) := fun _ => ⟨fun _ e => (nomatch e), fun _ e => (nomatch e)⟩
theorem Tabled.xspiCommandDone (i : Fin 2) : Tabled.Statement (.xspiCommandDone i) := fun _ => ⟨fun _ e => (nomatch e), fun _ e => (nomatch e)⟩
theorem Tabled.ufsCompletion : Tabled.Statement (.ufsCompletion) := fun _ => ⟨fun _ e => (nomatch e), fun _ e => (nomatch e)⟩
theorem Tabled.extSafeNRise : Tabled.Statement (.extSafeNRise) := fun _ => ⟨fun _ e => (nomatch e), fun _ e => (nomatch e)⟩
theorem Tabled.ethLinkUp (port : Fin 10) : Tabled.Statement (.ethLinkUp port) := fun _ => ⟨fun _ e => (nomatch e), fun _ e => (nomatch e)⟩
theorem Tabled.refOk : Tabled.Statement (.refOk) := fun _ => ⟨fun _ e => (nomatch e), fun _ e => (nomatch e)⟩
theorem Tabled.powerOnResetEnd : Tabled.Statement (.powerOnResetEnd) := fun _ => ⟨fun _ e => (nomatch e), fun _ e => (nomatch e)⟩
theorem Tabled.updateIr (ir : BitVec 5) : Tabled.Statement (.updateIr ir) := fun _ => ⟨fun _ e => (nomatch e), fun _ e => (nomatch e)⟩
theorem Tabled.blockEntryFreed (e : BitVec 9) : Tabled.Statement (.blockEntryFreed e) := fun _ => ⟨fun _ e => (nomatch e), fun _ e => (nomatch e)⟩
theorem Tabled.dataPop (a : Access) (pa : BitVec 44) : Tabled.Statement (.dataPop a pa) := fun h => ⟨fun _ e => by cases e; exact (Bool.and_eq_true_iff.mp h).1, fun _ e => (nomatch e)⟩

end Sys2Proof.Laws
end

