-- ==== Sys2Proof/Laws/Tables.lean ====
section
/-! SUPPORT. Sparse tables: what a table reads after one of its entries is set or dropped, and that setting an entry twice
keeps the last. -/
namespace Sys2Proof.Machine

/-- What a table reads after entry `j` is set. -/
theorem look_put {α : Type} (d : α) (k j : Nat) (x : α) (t : Tbl α) : look d k (put j x t) = if j = k then x else look d k t := by
  induction t with
  | nil => simp [put, look]
  | cons h t ih =>
    obtain ⟨i, y⟩ := h
    simp only [put]
    split
    · simp [look]
    · split
      · subst_vars; simp only [look]; split <;> simp_all
      · simp only [look, ih]; split <;> split <;> simp_all

@[simp] theorem look_put_same {α : Type} (d : α) (k : Nat) (x : α) (t : Tbl α) : look d k (put k x t) = x := by simp [look_put]

theorem look_put_other {α : Type} (d : α) {k j : Nat} (h : j ≠ k) (x : α) (t : Tbl α) : look d k (put j x t) = look d k t := by
  simp [look_put, h]

@[simp] theorem put_put {α : Type} (j : Nat) (x y : α) (t : Tbl α) : put j x (put j y t) = put j x t := by
  induction t with
  | nil => simp [put]
  | cons h t ih =>
    obtain ⟨i, z⟩ := h
    simp only [put]
    split
    · simp [put]
    · split
      · simp [put]
      · simp [put, *]

@[simp] theorem look_nil {α : Type} (d : α) (k : Nat) : look d k ([] : Tbl α) = d := rfl

theorem look_drop' {α : Type} (d : α) (k j : Nat) (t : Tbl α) : look d k (drop' j t) = if j = k then d else look d k t := by
  induction t with
  | nil => simp [drop', look]
  | cons h t ih =>
    obtain ⟨i, y⟩ := h
    simp only [drop', look]
    by_cases h1 : i = j <;> by_cases h2 : j = k <;> by_cases h3 : i = k <;> simp_all [look]

/-! ### Cores, cells, task control blocks, clusters and sites -/

@[simp] theorem getCore_setCore (s : State) (c : Nat) (k : Core) : getCore (setCore s c k) c = k := by simp [getCore, setCore]
theorem getCore_setCore_other (s : State) {c d : Nat} (h : c ≠ d) (k : Core) : getCore (setCore s c k) d = getCore s d := by
  simp [getCore, setCore, look_put, h]
@[simp] theorem setCore_setCore (s : State) (c : Nat) (k k' : Core) : setCore (setCore s c k) c k' = setCore s c k' := by simp [setCore]
@[simp] theorem updCore_setCore (s : State) (c : Nat) (k : Core) (f : Core → Core) : updCore (setCore s c k) c f = setCore s c (f k) := by
  simp [updCore]
@[simp] theorem getCore_updCore (s : State) (c : Nat) (f : Core → Core) : getCore (updCore s c f) c = f (getCore s c) := by simp [updCore]
theorem getCore_updCore_other (s : State) {c d : Nat} (h : c ≠ d) (f : Core → Core) : getCore (updCore s c f) d = getCore s d := by
  simp [updCore, getCore_setCore_other s h]
@[simp] theorem getCell_updCell (s : State) (c : Nat) (f : Cell → Cell) : getCell (updCell s c f) c = f (getCell s c) := by
  simp [getCell, updCell]
@[simp] theorem getTcb_updTcb (s : State) (t : Nat) (f : Tcb → Tcb) : getTcb (updTcb s t f) t = f (getTcb s t) := by
  simp [getTcb, updTcb]
@[simp] theorem getClu_updClu (s : State) (n : Nat) (f : Clu → Clu) : getClu (updClu s n f) n = f (getClu s n) := by
  simp [getClu, updClu]
@[simp] theorem getSite_updSite (s : State) (n : Nat) (f : Site → Site) : getSite (updSite s n f) n = f (getSite s n) := by
  simp [getSite, updSite]
theorem getCell_updCell_other (s : State) {c d : Nat} (h : c ≠ d) (f : Cell → Cell) : getCell (updCell s c f) d = getCell s d := by
  simp [getCell, updCell, look_put, h]
theorem getTcb_updTcb_other (s : State) {t u : Nat} (h : t ≠ u) (f : Tcb → Tcb) : getTcb (updTcb s t f) u = getTcb s u := by
  simp [getTcb, updTcb, look_put, h]
theorem getSite_updSite_other (s : State) {n k : Nat} (h : n ≠ k) (f : Site → Site) : getSite (updSite s n f) k = getSite s k := by
  simp [getSite, updSite, look_put, h]

end Sys2Proof.Machine
end

