-- ==== Sys2Proof/Laws/Slot.lean ====
section
/-! SUPPORT. The transport of a slot and the end of its word, said once: what a ready core does with a slot, and what a word
with nothing left to be done leaves behind. Claims about moves and triggers cite these and unfold neither. -/
namespace Sys2Proof.Machine

/-! ### Nothing in flight, nothing to wait for -/

theorem settle_nil (k : Ctx) (u : Nat) (h : k.flights = []) : settle k u = k := by simp [settle, h, settleN]

theorem settleAll_nil (us : List Nat) (k : Ctx) (h : k.flights = []) : settleAll us k = k := by
  induction us with
  | nil => rfl
  | cons u us ih => simp only [settleAll, List.foldl_cons] at *; rw [settle_nil k u h]; exact ih

theorem settleOld_nil (us : List Nat) (p k : Ctx) (h : k.flights = []) : settleOld us p k = k := by
  induction us with
  | nil => rfl
  | cons u us ih => simp only [settleOld, List.foldl_cons] at *; simp only [h, settleN]; exact ih

theorem settleBoth_nil (us : List Nat) (k : Core) (x : Ctx) (hp : k.pre = some x) (h : x.flights = []) (h' : k.ctx.flights = []) :
    settleBoth us k = k := by
  simp only [settleBoth, hp, settleAll_nil _ _ h, settleOld_nil _ _ _ h']
  rw [← hp]

/-! ### The core that has begun a word -/

theorem openCore_pre (k : Core) : (openCore k).pre = some (opened k.ctx) := rfl
theorem openCore_ctx (k : Core) : (openCore k).ctx = opened k.ctx := rfl

theorem beginWord_straight {k : Core} (h : Straight k) (p : Pos) : beginWord k p = openCore k := by
  simp [beginWord, h.between, openCore, opened]

theorem takesWords_straight {k : Core} (h : Straight k) : takesWords k = true := by
  unfold takesWords
  rcases h.queue with hq | ⟨d, t, hq, h1, h2, -⟩
  · simp [h.runs, h.noExc, hq]
  · simp [h.runs, h.noExc, hq, h2]

/-- A legal encoding decides no exception. -/
theorem slotExc_none {c : Nat} {k : Core} {m : Slot} {dst : Nat} (h : SlotLegal c k m dst) : slotExc c (openCore k) m dst = none := by
  unfold slotExc
  have hl : (openCore k).level = k.level := rfl
  unfold SlotLegal at h
  cases hm : m.src <;> simp_all

/-- What `act` is given by the transport of a slot of a ready core: the core with its word begun; of a move into a CHK port,
with its feeds finished (R373). -/
def actCore (s : State) (c : CoreId) (dst : Nat) : Core :=
  if 352 ≤ dst ∧ dst ≤ 354 then finishChk (openCore (getCore s c.val)) else openCore (getCore s c.val)

/-- The transport of a slot of a ready core. -/
theorem slotAct_ready (s : State) (c : CoreId) (m : Slot) (dst : Nat) (act : Core → VWord → Ctx → Ctx) (h : Ready s c m dst) :
    slotAct s c.val m dst act =
      .done (setCore s c.val { actCore s c dst with ctx := act (actCore s c dst) (moved s c m) (regsOf s c) }) := by
  obtain ⟨h1, -, hl, h3, h4⟩ := h
  have he := slotExc_none hl
  have hpre : (openCore (getCore s c.val)).pre = some (regsOf s c) := rfl
  have hctx : (openCore (getCore s c.val)).ctx = regsOf s c := rfl
  have hfc : (finishChk (openCore (getCore s c.val))).ctx = regsOf s c := rfl
  have hra : ∀ a, readAddr c.val (openCore (getCore s c.val)) (regsOf s c) a = readAddr c.val (getCore s c.val) (getCore s c.val).ctx a := fun _ => rfl
  have hf : (regsOf s c).flights = [] := h1.noFlights
  have ht : (regsOf s c).traps = [] := h1.noTraps
  have hpo : (regsOf s c).poison = [] := h1.noPoison
  have hg : (regsOf s c).pendGroups = 0 := h1.noGroups
  have hgu : guardTrue (regsOf s c) m.guard = true := h3
  simp only [slotAct, beginWord_straight h1, actCore]
  generalize hk : openCore (getCore s c.val) = k at *
  have hsb : ∀ us, settleBoth us k = k := fun us => settleBoth_nil us k _ hpre hf (hctx ▸ hf)
  have ht0 : ∀ n, fpFault k n m.slotB m.long = none := by
    intro n; simp [fpFault, trapOn, ht, hpre]
  have hgw : groupWaits k m dst = false := by
    simp only [groupWaits, hctx, hg]; cases m.src <;> simp <;> (repeat' split) <;> simp
  have hr : readSlot s c.val k m = (k, moved s c m) := by
    unfold readSlot moved
    cases hm : m.src with
    | imm v => simp [wide]
    | port a =>
      simp only [hm] at h4
      simp [hsb, h4.1, h4.2, hpre, hra]
  have hs : srcFault k m = none := by
    unfold srcFault
    cases hm : m.src with
    | imm v => rfl
    | port a => simp [ht0, hpre, hpo]
  simp only [he, hsb, ht0, ite_self, hpre, hctx, Option.getD_some, hgu, hgw, hr, hs, if_false, Bool.not_true, Bool.false_eq_true]
  have hcx : (if 352 ≤ dst ∧ dst ≤ 354 then finishChk k else k).ctx = regsOf s c := by split <;> assumption
  rw [hcx]
  cases hm : m.src with
  | imm v => simp
  | port a =>
    simp only [hm] at h4
    have : a ≠ 354 := by intro h; subst h; exact h4.2 (by decide)
    simp only [if_neg this]

/-- A slot whose guard does not hold leaves the registers as they are. -/
theorem slotAct_off (s : State) (c : CoreId) (m : Slot) (dst : Nat) (act : Core → VWord → Ctx → Ctx)
    (h1 : Straight (getCore s c.val)) (hl : SlotLegal c.val (getCore s c.val) m dst)
    (hg : guardTrue (getCore s c.val).ctx m.guard = false) :
    slotAct s c.val m dst act = .done (setCore s c.val (openCore (getCore s c.val))) := by
  have he := slotExc_none hl
  have hpre : (openCore (getCore s c.val)).pre = some (regsOf s c) := rfl
  have hctx : (openCore (getCore s c.val)).ctx = regsOf s c := rfl
  have hf : (regsOf s c).flights = [] := h1.noFlights
  have ht : (regsOf s c).traps = [] := h1.noTraps
  have hgu : guardTrue (regsOf s c) m.guard = false := hg
  simp only [slotAct, beginWord_straight h1]
  generalize hk : openCore (getCore s c.val) = k at *
  have hsb : ∀ us, settleBoth us k = k := fun us => settleBoth_nil us k _ hpre hf (hctx ▸ hf)
  have ht0 : ∀ n, fpFault k n m.slotB m.long = none := by
    intro n; simp [fpFault, trapOn, ht, hpre]
  simp only [he, hsb, ht0, ite_self, hpre, Option.getD_some, hgu, Bool.not_false, if_true]

/-- A slot whose encoding decides an exception leaves that exception to the end of its word. -/
theorem slotAct_illegal (s : State) (c : CoreId) (m : Slot) (dst : Nat) (act : Core → VWord → Ctx → Ctx) (e : Exc)
    (h1 : Straight (getCore s c.val)) (he : slotExc c.val (openCore (getCore s c.val)) m dst = some e) :
    slotAct s c.val m dst act = .done (setCore s c.val (addFault (openCore (getCore s c.val)) e)) := by
  simp only [slotAct, beginWord_straight h1, he]

/-! ### The end of a word -/

/-- A word predicted right, or with no word decoded after it, is left for the next one. -/
theorem wordClosed_advance {k : Core} {x : Ctx} {c : Nat} (h : Straight k) :
    wordClosed (advance c { openCore k with ctx := { opened x with mprog := none } } false (k.pc + 8, none, false)) = wordOver k x := by
  unfold wordOver advance
  rcases h.queue with hq | ⟨d, t, hq, h1, h2, h3, h4⟩
  · simp only [openCore, hq, wordTo, Bool.false_eq_true, false_and, if_false, if_true]
    unfold trimQueue
    cases hf : k.fq with
    | nil => simp [wordClosed, dropFailed]
    | cons f fs =>
      simp only [nextDecode, List.getLast?_nil]
      by_cases he : some (k.pc + 8) = some f.addr
      · simp only [he, if_true]; rfl
      · simp only [he, if_false]; rfl
  · simp [openCore, hq, h1, h3, h4, wordClosed, dropFailed]

theorem trimQueue_stepOne (k : Core) : (trimQueue k).stepOne = k.stepOne := by
  unfold trimQueue; split <;> (try split) <;> rfl
theorem trimQueue_mode (k : Core) : (trimQueue k).mode = k.mode := by
  unfold trimQueue; split <;> (try split) <;> rfl
theorem wordOver_stepOne (k : Core) (x : Ctx) : (wordOver k x).stepOne = k.stepOne := by
  unfold wordOver; split
  · exact trimQueue_stepOne _
  · rfl

/-- The end of a word with nothing left to be done. -/
theorem endWord_plain (s : State) (c : Nat) (x : Ctx) (hs : Straight (getCore s c)) (hf : s.flt.safe = false)
    (ha : x.after = []) (hfa : x.faults = []) (hl : x.flights.any (fun f => f.long) = false) (hr : x.rep = false) :
    endWord (setCore s c { openCore (getCore s c) with ctx := x }) c = setCore s c (wordOver (getCore s c) x) := by
  have h0 : lsuOf { openCore (getCore s c) with ctx := x } = none := by simp [lsuOf, ha]
  have h1 : longLeft x = false := by simp [longLeft, ha, hl]
  unfold endWord
  simp only [getCore_setCore, h0, ha, hfa, h1, List.filterMap_nil, List.append_nil, firstExc, List.find?_nil, List.findSome?_nil, Bool.false_eq_true, if_false]
  unfold endWord.commitLsu
  simp only [getCore_setCore, h0]
  unfold commit
  simp only [getCore_setCore, ha, List.foldl_nil]
  have hi : installFetched (setCore s c { openCore (getCore s c) with ctx := x }) c = setCore s c { openCore (getCore s c) with ctx := x } := by
    unfold installFetched
    simp [openCore, hs.noSpec]
  rw [hi]
  have hw : wordCtx { openCore (getCore s c) with ctx := { x with after := [] } } = ({ opened x with mprog := none }, false) := by
    unfold wordCtx
    simp [hr, opened]
  have hfl : flowOf { openCore (getCore s c) with ctx := { x with after := [] } } = ((getCore s c).pc + 8, none, false) := by
    rfl
  have hbr : branches { openCore (getCore s c) with ctx := { x with after := [] } } = false := by
    simp [branches]
  simp only [getCore_setCore, hw, hfl, hbr, Bool.false_eq_true, if_false]
  unfold afterWord
  simp only [List.foldl_nil, getCore_setCore, setCore_setCore]
  rw [wordClosed_advance hs]
  have hsf : ∀ k', (setCore s c k').flt.safe = false := fun _ => hf
  simp [hsf, wordOver_stepOne, hs.noStep]

/-! ### A slot and its word together -/

/-- A slot of a ready core, with what its word's end does still to be said. -/
theorem slotStep_ready (s : State) (c : CoreId) (m : Slot) (dst : Nat) (act : Core → VWord → Ctx → Ctx) (h : Ready s c m dst) :
    slotStep s c.val m dst act =
      if m.pos = .first then setCore s c.val { actCore s c dst with ctx := act (actCore s c dst) (moved s c m) (regsOf s c) }
      else endWord (setCore s c.val { actCore s c dst with ctx := act (actCore s c dst) (moved s c m) (regsOf s c) }) c.val := by
  simp only [slotStep, takesWords_straight h.1, slotAct_ready s c m dst act h, Bool.not_true, Bool.false_eq_true, if_false]

/-- A slot of a ready core that leaves the registers `x` and no effect for the end of its word. -/
theorem slotStep_done (s : State) (c : CoreId) (m : Slot) (dst : Nat) (act : Core → VWord → Ctx → Ctx) (x : Ctx) (h : Ready s c m dst)
    (hd : ¬ (352 ≤ dst ∧ dst ≤ 354)) (hx : act (openCore (getCore s c.val)) (moved s c m) (regsOf s c) = x)
    (ha : x.after = []) (hfa : x.faults = []) (hl : x.flights.any (fun f => f.long) = false) (hr : x.rep = false) :
    slotStep s c.val m dst act = slotDone s c m x := by
  rw [slotStep_ready s c m dst act h]
  simp only [actCore, hd, if_false, hx]
  by_cases hp : m.pos = .first
  · simp only [hp, if_true, slotDone, openCore]
  · simp only [hp, if_false, slotDone]
    exact endWord_plain s c.val x h.1 h.2.1 ha hfa hl hr

/-- A slot of a ready core that sets a long operation in flight and leaves nothing else. -/
theorem slotStep_long (s : State) (c : CoreId) (m : Slot) (dst : Nat) (act : Core → VWord → Ctx → Ctx) (x : Ctx) (h : Ready s c m dst)
    (hd : ¬ (352 ≤ dst ∧ dst ≤ 354)) (hx : act (openCore (getCore s c.val)) (moved s c m) (regsOf s c) = x)
    (ha : x.after = []) (hfa : x.faults = []) (hl : x.flights.any (fun f => f.long) = true) :
    slotStep s c.val m dst act = slotLong s c m x := by
  rw [slotStep_ready s c m dst act h]
  simp only [actCore, hd, if_false, hx]
  by_cases hp : m.pos = .first
  · simp only [hp, if_true, slotLong, openCore]
  · have h0 : lsuOf { openCore (getCore s c.val) with ctx := x } = none := by simp [lsuOf, ha]
    have h1 : longLeft x = true := by simp [longLeft, hl]
    simp only [hp, if_false, slotLong]
    unfold endWord
    simp only [getCore_setCore, h0, ha, hfa, h1, List.filterMap_nil, List.append_nil, firstExc, setCore_setCore, if_true]
    rfl

/-- The first slot of a word that leaves one effect. -/
theorem slotStep_leaves (s : State) (c : CoreId) (m : Slot) (dst : Nat) (f : Core → Ctx → VWord → After) (h : Ready s c m dst)
    (hd : ¬ (352 ≤ dst ∧ dst ≤ 354)) (hp : m.pos = .first) :
    slotStep s c.val m dst (trigAfter m f) = slotLeaves s c m (regsOf s c) (f (openCore (getCore s c.val)) (regsOf s c) (moved s c m)) := by
  rw [slotStep_ready s c m dst _ h]
  simp only [hp, if_true, actCore, hd, if_false]
  rfl

/-- A slot whose guard does not hold. -/
theorem slotStep_off (s : State) (c : CoreId) (m : Slot) (dst : Nat) (act : Core → VWord → Ctx → Ctx)
    (h1 : Straight (getCore s c.val)) (hs : s.flt.safe = false) (hl : SlotLegal c.val (getCore s c.val) m dst)
    (hg : guardTrue (getCore s c.val).ctx m.guard = false) :
    slotStep s c.val m dst act = slotDone s c m (regsOf s c) := by
  simp only [slotStep, takesWords_straight h1, slotAct_off s c m dst act h1 hl hg, Bool.not_true, Bool.false_eq_true, if_false]
  by_cases hp : m.pos = .first
  · simp only [hp, if_true, slotDone]; rfl
  · simp only [hp, if_false, slotDone]
    have hf : (regsOf s c).flights = [] := h1.noFlights
    exact endWord_plain s c.val (regsOf s c) h1 hs rfl rfl (by simp [hf]) h1.noRepeat

/-- A core that does not run words, or that has an exception to enter, ignores a slot. -/
theorem slotStep_ignored (s : State) (c : Nat) (m : Slot) (dst : Nat) (act : Core → VWord → Ctx → Ctx) (h : takesWords (getCore s c) = false) :
    slotStep s c m dst act = s := by
  simp [slotStep, h]

end Sys2Proof.Machine
end

