-- ==== Sys2Proof/Laws/State.lean ====
section
/-! SUPPORT. One lemma per field of the state and per named update: what the update leaves as it was. -/
namespace Sys2Proof.Machine

/-! setCore changes `cores` alone. -/
@[simp] theorem setCore_pending (s : State) (c : Nat) (k : Core) : (setCore s c k).pending = s.pending := rfl
@[simp] theorem setCore_free (s : State) (c : Nat) (k : Core) : (setCore s c k).free = s.free := rfl
@[simp] theorem setCore_now (s : State) (c : Nat) (k : Core) : (setCore s c k).now = s.now := rfl
@[simp] theorem setCore_regs (s : State) (c : Nat) (k : Core) : (setCore s c k).regs = s.regs := rfl
@[simp] theorem setCore_mem (s : State) (c : Nat) (k : Core) : (setCore s c k).mem = s.mem := rfl
@[simp] theorem setCore_poison (s : State) (c : Nat) (k : Core) : (setCore s c k).poison = s.poison := rfl
@[simp] theorem setCore_sched (s : State) (c : Nat) (k : Core) : (setCore s c k).sched = s.sched := rfl
@[simp] theorem setCore_cells (s : State) (c : Nat) (k : Core) : (setCore s c k).cells = s.cells := rfl
@[simp] theorem setCore_comp (s : State) (c : Nat) (k : Core) : (setCore s c k).comp = s.comp := rfl
@[simp] theorem setCore_fab (s : State) (c : Nat) (k : Core) : (setCore s c k).fab = s.fab := rfl
@[simp] theorem setCore_flt (s : State) (c : Nat) (k : Core) : (setCore s c k).flt = s.flt := rfl
@[simp] theorem setCore_cache (s : State) (c : Nat) (k : Core) : (setCore s c k).cache = s.cache := rfl
@[simp] theorem setCore_iommu (s : State) (c : Nat) (k : Core) : (setCore s c k).iommu = s.iommu := rfl
@[simp] theorem setCore_time (s : State) (c : Nat) (k : Core) : (setCore s c k).time = s.time := rfl
@[simp] theorem setCore_net (s : State) (c : Nat) (k : Core) : (setCore s c k).net = s.net := rfl
@[simp] theorem setCore_hbm (s : State) (c : Nat) (k : Core) : (setCore s c k).hbm = s.hbm := rfl
@[simp] theorem setCore_pwr (s : State) (c : Nat) (k : Core) : (setCore s c k).pwr = s.pwr := rfl
@[simp] theorem setCore_boot (s : State) (c : Nat) (k : Core) : (setCore s c k).boot = s.boot := rfl
@[simp] theorem setCore_dbg (s : State) (c : Nat) (k : Core) : (setCore s c k).dbg = s.dbg := rfl
@[simp] theorem setCore_peri (s : State) (c : Nat) (k : Core) : (setCore s c k).peri = s.peri := rfl
@[simp] theorem setCore_cores (s : State) (c : Nat) (k : Core) : (setCore s c k).cores = put c k s.cores := rfl

/-! updCore changes `cores` alone. -/
@[simp] theorem updCore_pending (s : State) (c : Nat) (f : Core → Core) : (updCore s c f).pending = s.pending := rfl
@[simp] theorem updCore_free (s : State) (c : Nat) (f : Core → Core) : (updCore s c f).free = s.free := rfl
@[simp] theorem updCore_now (s : State) (c : Nat) (f : Core → Core) : (updCore s c f).now = s.now := rfl
@[simp] theorem updCore_regs (s : State) (c : Nat) (f : Core → Core) : (updCore s c f).regs = s.regs := rfl
@[simp] theorem updCore_mem (s : State) (c : Nat) (f : Core → Core) : (updCore s c f).mem = s.mem := rfl
@[simp] theorem updCore_poison (s : State) (c : Nat) (f : Core → Core) : (updCore s c f).poison = s.poison := rfl
@[simp] theorem updCore_sched (s : State) (c : Nat) (f : Core → Core) : (updCore s c f).sched = s.sched := rfl
@[simp] theorem updCore_cells (s : State) (c : Nat) (f : Core → Core) : (updCore s c f).cells = s.cells := rfl
@[simp] theorem updCore_comp (s : State) (c : Nat) (f : Core → Core) : (updCore s c f).comp = s.comp := rfl
@[simp] theorem updCore_fab (s : State) (c : Nat) (f : Core → Core) : (updCore s c f).fab = s.fab := rfl
@[simp] theorem updCore_flt (s : State) (c : Nat) (f : Core → Core) : (updCore s c f).flt = s.flt := rfl
@[simp] theorem updCore_cache (s : State) (c : Nat) (f : Core → Core) : (updCore s c f).cache = s.cache := rfl
@[simp] theorem updCore_iommu (s : State) (c : Nat) (f : Core → Core) : (updCore s c f).iommu = s.iommu := rfl
@[simp] theorem updCore_time (s : State) (c : Nat) (f : Core → Core) : (updCore s c f).time = s.time := rfl
@[simp] theorem updCore_net (s : State) (c : Nat) (f : Core → Core) : (updCore s c f).net = s.net := rfl
@[simp] theorem updCore_hbm (s : State) (c : Nat) (f : Core → Core) : (updCore s c f).hbm = s.hbm := rfl
@[simp] theorem updCore_pwr (s : State) (c : Nat) (f : Core → Core) : (updCore s c f).pwr = s.pwr := rfl
@[simp] theorem updCore_boot (s : State) (c : Nat) (f : Core → Core) : (updCore s c f).boot = s.boot := rfl
@[simp] theorem updCore_dbg (s : State) (c : Nat) (f : Core → Core) : (updCore s c f).dbg = s.dbg := rfl
@[simp] theorem updCore_peri (s : State) (c : Nat) (f : Core → Core) : (updCore s c f).peri = s.peri := rfl

/-! updCell changes `cells` alone. -/
@[simp] theorem updCell_pending (s : State) (c : Nat) (f : Cell → Cell) : (updCell s c f).pending = s.pending := rfl
@[simp] theorem updCell_free (s : State) (c : Nat) (f : Cell → Cell) : (updCell s c f).free = s.free := rfl
@[simp] theorem updCell_now (s : State) (c : Nat) (f : Cell → Cell) : (updCell s c f).now = s.now := rfl
@[simp] theorem updCell_regs (s : State) (c : Nat) (f : Cell → Cell) : (updCell s c f).regs = s.regs := rfl
@[simp] theorem updCell_mem (s : State) (c : Nat) (f : Cell → Cell) : (updCell s c f).mem = s.mem := rfl
@[simp] theorem updCell_poison (s : State) (c : Nat) (f : Cell → Cell) : (updCell s c f).poison = s.poison := rfl
@[simp] theorem updCell_cores (s : State) (c : Nat) (f : Cell → Cell) : (updCell s c f).cores = s.cores := rfl
@[simp] theorem updCell_sched (s : State) (c : Nat) (f : Cell → Cell) : (updCell s c f).sched = s.sched := rfl
@[simp] theorem updCell_comp (s : State) (c : Nat) (f : Cell → Cell) : (updCell s c f).comp = s.comp := rfl
@[simp] theorem updCell_fab (s : State) (c : Nat) (f : Cell → Cell) : (updCell s c f).fab = s.fab := rfl
@[simp] theorem updCell_flt (s : State) (c : Nat) (f : Cell → Cell) : (updCell s c f).flt = s.flt := rfl
@[simp] theorem updCell_cache (s : State) (c : Nat) (f : Cell → Cell) : (updCell s c f).cache = s.cache := rfl
@[simp] theorem updCell_iommu (s : State) (c : Nat) (f : Cell → Cell) : (updCell s c f).iommu = s.iommu := rfl
@[simp] theorem updCell_time (s : State) (c : Nat) (f : Cell → Cell) : (updCell s c f).time = s.time := rfl
@[simp] theorem updCell_net (s : State) (c : Nat) (f : Cell → Cell) : (updCell s c f).net = s.net := rfl
@[simp] theorem updCell_hbm (s : State) (c : Nat) (f : Cell → Cell) : (updCell s c f).hbm = s.hbm := rfl
@[simp] theorem updCell_pwr (s : State) (c : Nat) (f : Cell → Cell) : (updCell s c f).pwr = s.pwr := rfl
@[simp] theorem updCell_boot (s : State) (c : Nat) (f : Cell → Cell) : (updCell s c f).boot = s.boot := rfl
@[simp] theorem updCell_dbg (s : State) (c : Nat) (f : Cell → Cell) : (updCell s c f).dbg = s.dbg := rfl
@[simp] theorem updCell_peri (s : State) (c : Nat) (f : Cell → Cell) : (updCell s c f).peri = s.peri := rfl
@[simp] theorem updCell_cells (s : State) (c : Nat) (f : Cell → Cell) : (updCell s c f).cells = put c (f (getCell s c)) s.cells := rfl

/-! updTcb changes `sched` alone. -/
@[simp] theorem updTcb_pending (s : State) (t : Nat) (f : Tcb → Tcb) : (updTcb s t f).pending = s.pending := rfl
@[simp] theorem updTcb_free (s : State) (t : Nat) (f : Tcb → Tcb) : (updTcb s t f).free = s.free := rfl
@[simp] theorem updTcb_now (s : State) (t : Nat) (f : Tcb → Tcb) : (updTcb s t f).now = s.now := rfl
@[simp] theorem updTcb_regs (s : State) (t : Nat) (f : Tcb → Tcb) : (updTcb s t f).regs = s.regs := rfl
@[simp] theorem updTcb_mem (s : State) (t : Nat) (f : Tcb → Tcb) : (updTcb s t f).mem = s.mem := rfl
@[simp] theorem updTcb_poison (s : State) (t : Nat) (f : Tcb → Tcb) : (updTcb s t f).poison = s.poison := rfl
@[simp] theorem updTcb_cores (s : State) (t : Nat) (f : Tcb → Tcb) : (updTcb s t f).cores = s.cores := rfl
@[simp] theorem updTcb_cells (s : State) (t : Nat) (f : Tcb → Tcb) : (updTcb s t f).cells = s.cells := rfl
@[simp] theorem updTcb_comp (s : State) (t : Nat) (f : Tcb → Tcb) : (updTcb s t f).comp = s.comp := rfl
@[simp] theorem updTcb_fab (s : State) (t : Nat) (f : Tcb → Tcb) : (updTcb s t f).fab = s.fab := rfl
@[simp] theorem updTcb_flt (s : State) (t : Nat) (f : Tcb → Tcb) : (updTcb s t f).flt = s.flt := rfl
@[simp] theorem updTcb_cache (s : State) (t : Nat) (f : Tcb → Tcb) : (updTcb s t f).cache = s.cache := rfl
@[simp] theorem updTcb_iommu (s : State) (t : Nat) (f : Tcb → Tcb) : (updTcb s t f).iommu = s.iommu := rfl
@[simp] theorem updTcb_time (s : State) (t : Nat) (f : Tcb → Tcb) : (updTcb s t f).time = s.time := rfl
@[simp] theorem updTcb_net (s : State) (t : Nat) (f : Tcb → Tcb) : (updTcb s t f).net = s.net := rfl
@[simp] theorem updTcb_hbm (s : State) (t : Nat) (f : Tcb → Tcb) : (updTcb s t f).hbm = s.hbm := rfl
@[simp] theorem updTcb_pwr (s : State) (t : Nat) (f : Tcb → Tcb) : (updTcb s t f).pwr = s.pwr := rfl
@[simp] theorem updTcb_boot (s : State) (t : Nat) (f : Tcb → Tcb) : (updTcb s t f).boot = s.boot := rfl
@[simp] theorem updTcb_dbg (s : State) (t : Nat) (f : Tcb → Tcb) : (updTcb s t f).dbg = s.dbg := rfl
@[simp] theorem updTcb_peri (s : State) (t : Nat) (f : Tcb → Tcb) : (updTcb s t f).peri = s.peri := rfl
@[simp] theorem updTcb_sched (s : State) (t : Nat) (f : Tcb → Tcb) : (updTcb s t f).sched = { s.sched with tcbs := put t (f (getTcb s t)) s.sched.tcbs } := rfl

/-! updClu changes `sched` alone. -/
@[simp] theorem updClu_pending (s : State) (n : Nat) (f : Clu → Clu) : (updClu s n f).pending = s.pending := rfl
@[simp] theorem updClu_free (s : State) (n : Nat) (f : Clu → Clu) : (updClu s n f).free = s.free := rfl
@[simp] theorem updClu_now (s : State) (n : Nat) (f : Clu → Clu) : (updClu s n f).now = s.now := rfl
@[simp] theorem updClu_regs (s : State) (n : Nat) (f : Clu → Clu) : (updClu s n f).regs = s.regs := rfl
@[simp] theorem updClu_mem (s : State) (n : Nat) (f : Clu → Clu) : (updClu s n f).mem = s.mem := rfl
@[simp] theorem updClu_poison (s : State) (n : Nat) (f : Clu → Clu) : (updClu s n f).poison = s.poison := rfl
@[simp] theorem updClu_cores (s : State) (n : Nat) (f : Clu → Clu) : (updClu s n f).cores = s.cores := rfl
@[simp] theorem updClu_cells (s : State) (n : Nat) (f : Clu → Clu) : (updClu s n f).cells = s.cells := rfl
@[simp] theorem updClu_comp (s : State) (n : Nat) (f : Clu → Clu) : (updClu s n f).comp = s.comp := rfl
@[simp] theorem updClu_fab (s : State) (n : Nat) (f : Clu → Clu) : (updClu s n f).fab = s.fab := rfl
@[simp] theorem updClu_flt (s : State) (n : Nat) (f : Clu → Clu) : (updClu s n f).flt = s.flt := rfl
@[simp] theorem updClu_cache (s : State) (n : Nat) (f : Clu → Clu) : (updClu s n f).cache = s.cache := rfl
@[simp] theorem updClu_iommu (s : State) (n : Nat) (f : Clu → Clu) : (updClu s n f).iommu = s.iommu := rfl
@[simp] theorem updClu_time (s : State) (n : Nat) (f : Clu → Clu) : (updClu s n f).time = s.time := rfl
@[simp] theorem updClu_net (s : State) (n : Nat) (f : Clu → Clu) : (updClu s n f).net = s.net := rfl
@[simp] theorem updClu_hbm (s : State) (n : Nat) (f : Clu → Clu) : (updClu s n f).hbm = s.hbm := rfl
@[simp] theorem updClu_pwr (s : State) (n : Nat) (f : Clu → Clu) : (updClu s n f).pwr = s.pwr := rfl
@[simp] theorem updClu_boot (s : State) (n : Nat) (f : Clu → Clu) : (updClu s n f).boot = s.boot := rfl
@[simp] theorem updClu_dbg (s : State) (n : Nat) (f : Clu → Clu) : (updClu s n f).dbg = s.dbg := rfl
@[simp] theorem updClu_peri (s : State) (n : Nat) (f : Clu → Clu) : (updClu s n f).peri = s.peri := rfl
@[simp] theorem updClu_sched (s : State) (n : Nat) (f : Clu → Clu) : (updClu s n f).sched = { s.sched with clus := put n (f (getClu s n)) s.sched.clus } := rfl

/-! updSite changes `cache` alone. -/
@[simp] theorem updSite_pending (s : State) (n : Nat) (f : Site → Site) : (updSite s n f).pending = s.pending := rfl
@[simp] theorem updSite_free (s : State) (n : Nat) (f : Site → Site) : (updSite s n f).free = s.free := rfl
@[simp] theorem updSite_now (s : State) (n : Nat) (f : Site → Site) : (updSite s n f).now = s.now := rfl
@[simp] theorem updSite_regs (s : State) (n : Nat) (f : Site → Site) : (updSite s n f).regs = s.regs := rfl
@[simp] theorem updSite_mem (s : State) (n : Nat) (f : Site → Site) : (updSite s n f).mem = s.mem := rfl
@[simp] theorem updSite_poison (s : State) (n : Nat) (f : Site → Site) : (updSite s n f).poison = s.poison := rfl
@[simp] theorem updSite_cores (s : State) (n : Nat) (f : Site → Site) : (updSite s n f).cores = s.cores := rfl
@[simp] theorem updSite_sched (s : State) (n : Nat) (f : Site → Site) : (updSite s n f).sched = s.sched := rfl
@[simp] theorem updSite_cells (s : State) (n : Nat) (f : Site → Site) : (updSite s n f).cells = s.cells := rfl
@[simp] theorem updSite_comp (s : State) (n : Nat) (f : Site → Site) : (updSite s n f).comp = s.comp := rfl
@[simp] theorem updSite_fab (s : State) (n : Nat) (f : Site → Site) : (updSite s n f).fab = s.fab := rfl
@[simp] theorem updSite_flt (s : State) (n : Nat) (f : Site → Site) : (updSite s n f).flt = s.flt := rfl
@[simp] theorem updSite_iommu (s : State) (n : Nat) (f : Site → Site) : (updSite s n f).iommu = s.iommu := rfl
@[simp] theorem updSite_time (s : State) (n : Nat) (f : Site → Site) : (updSite s n f).time = s.time := rfl
@[simp] theorem updSite_net (s : State) (n : Nat) (f : Site → Site) : (updSite s n f).net = s.net := rfl
@[simp] theorem updSite_hbm (s : State) (n : Nat) (f : Site → Site) : (updSite s n f).hbm = s.hbm := rfl
@[simp] theorem updSite_pwr (s : State) (n : Nat) (f : Site → Site) : (updSite s n f).pwr = s.pwr := rfl
@[simp] theorem updSite_boot (s : State) (n : Nat) (f : Site → Site) : (updSite s n f).boot = s.boot := rfl
@[simp] theorem updSite_dbg (s : State) (n : Nat) (f : Site → Site) : (updSite s n f).dbg = s.dbg := rfl
@[simp] theorem updSite_peri (s : State) (n : Nat) (f : Site → Site) : (updSite s n f).peri = s.peri := rfl
@[simp] theorem updSite_cache (s : State) (n : Nat) (f : Site → Site) : (updSite s n f).cache = { s.cache with sites := put n (f (getSite s n)) s.cache.sites } := rfl

/-! raise changes `flt` alone. -/
@[simp] theorem raise_pending (s : State) (m : FaultMsg) : (raise s m).pending = s.pending := rfl
@[simp] theorem raise_free (s : State) (m : FaultMsg) : (raise s m).free = s.free := rfl
@[simp] theorem raise_now (s : State) (m : FaultMsg) : (raise s m).now = s.now := rfl
@[simp] theorem raise_regs (s : State) (m : FaultMsg) : (raise s m).regs = s.regs := rfl
@[simp] theorem raise_mem (s : State) (m : FaultMsg) : (raise s m).mem = s.mem := rfl
@[simp] theorem raise_poison (s : State) (m : FaultMsg) : (raise s m).poison = s.poison := rfl
@[simp] theorem raise_cores (s : State) (m : FaultMsg) : (raise s m).cores = s.cores := rfl
@[simp] theorem raise_sched (s : State) (m : FaultMsg) : (raise s m).sched = s.sched := rfl
@[simp] theorem raise_cells (s : State) (m : FaultMsg) : (raise s m).cells = s.cells := rfl
@[simp] theorem raise_comp (s : State) (m : FaultMsg) : (raise s m).comp = s.comp := rfl
@[simp] theorem raise_fab (s : State) (m : FaultMsg) : (raise s m).fab = s.fab := rfl
@[simp] theorem raise_cache (s : State) (m : FaultMsg) : (raise s m).cache = s.cache := rfl
@[simp] theorem raise_iommu (s : State) (m : FaultMsg) : (raise s m).iommu = s.iommu := rfl
@[simp] theorem raise_time (s : State) (m : FaultMsg) : (raise s m).time = s.time := rfl
@[simp] theorem raise_net (s : State) (m : FaultMsg) : (raise s m).net = s.net := rfl
@[simp] theorem raise_hbm (s : State) (m : FaultMsg) : (raise s m).hbm = s.hbm := rfl
@[simp] theorem raise_pwr (s : State) (m : FaultMsg) : (raise s m).pwr = s.pwr := rfl
@[simp] theorem raise_boot (s : State) (m : FaultMsg) : (raise s m).boot = s.boot := rfl
@[simp] theorem raise_dbg (s : State) (m : FaultMsg) : (raise s m).dbg = s.dbg := rfl
@[simp] theorem raise_peri (s : State) (m : FaultMsg) : (raise s m).peri = s.peri := rfl
@[simp] theorem raise_flt (s : State) (m : FaultMsg) : (raise s m).flt = { s.flt with raised := s.flt.raised ++ [{ m with time := s.now }] } := rfl

/-! submit changes `fab` alone. -/
@[simp] theorem submit_pending (s : State) (t : Txn) : (submit s t).pending = s.pending := rfl
@[simp] theorem submit_free (s : State) (t : Txn) : (submit s t).free = s.free := rfl
@[simp] theorem submit_now (s : State) (t : Txn) : (submit s t).now = s.now := rfl
@[simp] theorem submit_regs (s : State) (t : Txn) : (submit s t).regs = s.regs := rfl
@[simp] theorem submit_mem (s : State) (t : Txn) : (submit s t).mem = s.mem := rfl
@[simp] theorem submit_poison (s : State) (t : Txn) : (submit s t).poison = s.poison := rfl
@[simp] theorem submit_cores (s : State) (t : Txn) : (submit s t).cores = s.cores := rfl
@[simp] theorem submit_sched (s : State) (t : Txn) : (submit s t).sched = s.sched := rfl
@[simp] theorem submit_cells (s : State) (t : Txn) : (submit s t).cells = s.cells := rfl
@[simp] theorem submit_comp (s : State) (t : Txn) : (submit s t).comp = s.comp := rfl
@[simp] theorem submit_flt (s : State) (t : Txn) : (submit s t).flt = s.flt := rfl
@[simp] theorem submit_cache (s : State) (t : Txn) : (submit s t).cache = s.cache := rfl
@[simp] theorem submit_iommu (s : State) (t : Txn) : (submit s t).iommu = s.iommu := rfl
@[simp] theorem submit_time (s : State) (t : Txn) : (submit s t).time = s.time := rfl
@[simp] theorem submit_net (s : State) (t : Txn) : (submit s t).net = s.net := rfl
@[simp] theorem submit_hbm (s : State) (t : Txn) : (submit s t).hbm = s.hbm := rfl
@[simp] theorem submit_pwr (s : State) (t : Txn) : (submit s t).pwr = s.pwr := rfl
@[simp] theorem submit_boot (s : State) (t : Txn) : (submit s t).boot = s.boot := rfl
@[simp] theorem submit_dbg (s : State) (t : Txn) : (submit s t).dbg = s.dbg := rfl
@[simp] theorem submit_peri (s : State) (t : Txn) : (submit s t).peri = s.peri := rfl
@[simp] theorem submit_fab (s : State) (t : Txn) : (submit s t).fab = { s.fab with waiting := s.fab.waiting ++ [{ t with id := s.fab.nextId, issued := s.now }], nextId := s.fab.nextId + 1 } := rfl

/-! store changes `regs` alone. -/
@[simp] theorem store_pending (s : State) (key : Nat) (w : Word) : (store s key w).pending = s.pending := rfl
@[simp] theorem store_free (s : State) (key : Nat) (w : Word) : (store s key w).free = s.free := rfl
@[simp] theorem store_now (s : State) (key : Nat) (w : Word) : (store s key w).now = s.now := rfl
@[simp] theorem store_mem (s : State) (key : Nat) (w : Word) : (store s key w).mem = s.mem := rfl
@[simp] theorem store_poison (s : State) (key : Nat) (w : Word) : (store s key w).poison = s.poison := rfl
@[simp] theorem store_cores (s : State) (key : Nat) (w : Word) : (store s key w).cores = s.cores := rfl
@[simp] theorem store_sched (s : State) (key : Nat) (w : Word) : (store s key w).sched = s.sched := rfl
@[simp] theorem store_cells (s : State) (key : Nat) (w : Word) : (store s key w).cells = s.cells := rfl
@[simp] theorem store_comp (s : State) (key : Nat) (w : Word) : (store s key w).comp = s.comp := rfl
@[simp] theorem store_fab (s : State) (key : Nat) (w : Word) : (store s key w).fab = s.fab := rfl
@[simp] theorem store_flt (s : State) (key : Nat) (w : Word) : (store s key w).flt = s.flt := rfl
@[simp] theorem store_cache (s : State) (key : Nat) (w : Word) : (store s key w).cache = s.cache := rfl
@[simp] theorem store_iommu (s : State) (key : Nat) (w : Word) : (store s key w).iommu = s.iommu := rfl
@[simp] theorem store_time (s : State) (key : Nat) (w : Word) : (store s key w).time = s.time := rfl
@[simp] theorem store_net (s : State) (key : Nat) (w : Word) : (store s key w).net = s.net := rfl
@[simp] theorem store_hbm (s : State) (key : Nat) (w : Word) : (store s key w).hbm = s.hbm := rfl
@[simp] theorem store_pwr (s : State) (key : Nat) (w : Word) : (store s key w).pwr = s.pwr := rfl
@[simp] theorem store_boot (s : State) (key : Nat) (w : Word) : (store s key w).boot = s.boot := rfl
@[simp] theorem store_dbg (s : State) (key : Nat) (w : Word) : (store s key w).dbg = s.dbg := rfl
@[simp] theorem store_peri (s : State) (key : Nat) (w : Word) : (store s key w).peri = s.peri := rfl
@[simp] theorem store_regs (s : State) (key : Nat) (w : Word) : (store s key w).regs = put key w s.regs := rfl

/-! setPoison changes `poison` alone. -/
@[simp] theorem setPoison_pending (s : State) (a : Nat) : (setPoison s a).pending = s.pending := rfl
@[simp] theorem setPoison_free (s : State) (a : Nat) : (setPoison s a).free = s.free := rfl
@[simp] theorem setPoison_now (s : State) (a : Nat) : (setPoison s a).now = s.now := rfl
@[simp] theorem setPoison_regs (s : State) (a : Nat) : (setPoison s a).regs = s.regs := rfl
@[simp] theorem setPoison_mem (s : State) (a : Nat) : (setPoison s a).mem = s.mem := rfl
@[simp] theorem setPoison_cores (s : State) (a : Nat) : (setPoison s a).cores = s.cores := rfl
@[simp] theorem setPoison_sched (s : State) (a : Nat) : (setPoison s a).sched = s.sched := rfl
@[simp] theorem setPoison_cells (s : State) (a : Nat) : (setPoison s a).cells = s.cells := rfl
@[simp] theorem setPoison_comp (s : State) (a : Nat) : (setPoison s a).comp = s.comp := rfl
@[simp] theorem setPoison_fab (s : State) (a : Nat) : (setPoison s a).fab = s.fab := rfl
@[simp] theorem setPoison_flt (s : State) (a : Nat) : (setPoison s a).flt = s.flt := rfl
@[simp] theorem setPoison_cache (s : State) (a : Nat) : (setPoison s a).cache = s.cache := rfl
@[simp] theorem setPoison_iommu (s : State) (a : Nat) : (setPoison s a).iommu = s.iommu := rfl
@[simp] theorem setPoison_time (s : State) (a : Nat) : (setPoison s a).time = s.time := rfl
@[simp] theorem setPoison_net (s : State) (a : Nat) : (setPoison s a).net = s.net := rfl
@[simp] theorem setPoison_hbm (s : State) (a : Nat) : (setPoison s a).hbm = s.hbm := rfl
@[simp] theorem setPoison_pwr (s : State) (a : Nat) : (setPoison s a).pwr = s.pwr := rfl
@[simp] theorem setPoison_boot (s : State) (a : Nat) : (setPoison s a).boot = s.boot := rfl
@[simp] theorem setPoison_dbg (s : State) (a : Nat) : (setPoison s a).dbg = s.dbg := rfl
@[simp] theorem setPoison_peri (s : State) (a : Nat) : (setPoison s a).peri = s.peri := rfl
@[simp] theorem setPoison_poison (s : State) (a : Nat) : (setPoison s a).poison = addSorted (a / 8) s.poison := rfl

/-! wrByte changes `mem` alone. -/
@[simp] theorem wrByte_pending (s : State) (a : Nat) (x : Byte) : (wrByte s a x).pending = s.pending := rfl
@[simp] theorem wrByte_free (s : State) (a : Nat) (x : Byte) : (wrByte s a x).free = s.free := rfl
@[simp] theorem wrByte_now (s : State) (a : Nat) (x : Byte) : (wrByte s a x).now = s.now := rfl
@[simp] theorem wrByte_regs (s : State) (a : Nat) (x : Byte) : (wrByte s a x).regs = s.regs := rfl
@[simp] theorem wrByte_poison (s : State) (a : Nat) (x : Byte) : (wrByte s a x).poison = s.poison := rfl
@[simp] theorem wrByte_cores (s : State) (a : Nat) (x : Byte) : (wrByte s a x).cores = s.cores := rfl
@[simp] theorem wrByte_sched (s : State) (a : Nat) (x : Byte) : (wrByte s a x).sched = s.sched := rfl
@[simp] theorem wrByte_cells (s : State) (a : Nat) (x : Byte) : (wrByte s a x).cells = s.cells := rfl
@[simp] theorem wrByte_comp (s : State) (a : Nat) (x : Byte) : (wrByte s a x).comp = s.comp := rfl
@[simp] theorem wrByte_fab (s : State) (a : Nat) (x : Byte) : (wrByte s a x).fab = s.fab := rfl
@[simp] theorem wrByte_flt (s : State) (a : Nat) (x : Byte) : (wrByte s a x).flt = s.flt := rfl
@[simp] theorem wrByte_cache (s : State) (a : Nat) (x : Byte) : (wrByte s a x).cache = s.cache := rfl
@[simp] theorem wrByte_iommu (s : State) (a : Nat) (x : Byte) : (wrByte s a x).iommu = s.iommu := rfl
@[simp] theorem wrByte_time (s : State) (a : Nat) (x : Byte) : (wrByte s a x).time = s.time := rfl
@[simp] theorem wrByte_net (s : State) (a : Nat) (x : Byte) : (wrByte s a x).net = s.net := rfl
@[simp] theorem wrByte_hbm (s : State) (a : Nat) (x : Byte) : (wrByte s a x).hbm = s.hbm := rfl
@[simp] theorem wrByte_pwr (s : State) (a : Nat) (x : Byte) : (wrByte s a x).pwr = s.pwr := rfl
@[simp] theorem wrByte_boot (s : State) (a : Nat) (x : Byte) : (wrByte s a x).boot = s.boot := rfl
@[simp] theorem wrByte_dbg (s : State) (a : Nat) (x : Byte) : (wrByte s a x).dbg = s.dbg := rfl
@[simp] theorem wrByte_peri (s : State) (a : Nat) (x : Byte) : (wrByte s a x).peri = s.peri := rfl
@[simp] theorem wrByte_mem (s : State) (a : Nat) (x : Byte) : (wrByte s a x).mem = cellPut a x s.mem := rfl

/-! updBoot changes `boot` alone. -/
@[simp] theorem updBoot_pending (s : State) (f : BootSt → BootSt) : (updBoot s f).pending = s.pending := rfl
@[simp] theorem updBoot_free (s : State) (f : BootSt → BootSt) : (updBoot s f).free = s.free := rfl
@[simp] theorem updBoot_now (s : State) (f : BootSt → BootSt) : (updBoot s f).now = s.now := rfl
@[simp] theorem updBoot_regs (s : State) (f : BootSt → BootSt) : (updBoot s f).regs = s.regs := rfl
@[simp] theorem updBoot_mem (s : State) (f : BootSt → BootSt) : (updBoot s f).mem = s.mem := rfl
@[simp] theorem updBoot_poison (s : State) (f : BootSt → BootSt) : (updBoot s f).poison = s.poison := rfl
@[simp] theorem updBoot_cores (s : State) (f : BootSt → BootSt) : (updBoot s f).cores = s.cores := rfl
@[simp] theorem updBoot_sched (s : State) (f : BootSt → BootSt) : (updBoot s f).sched = s.sched := rfl
@[simp] theorem updBoot_cells (s : State) (f : BootSt → BootSt) : (updBoot s f).cells = s.cells := rfl
@[simp] theorem updBoot_comp (s : State) (f : BootSt → BootSt) : (updBoot s f).comp = s.comp := rfl
@[simp] theorem updBoot_fab (s : State) (f : BootSt → BootSt) : (updBoot s f).fab = s.fab := rfl
@[simp] theorem updBoot_flt (s : State) (f : BootSt → BootSt) : (updBoot s f).flt = s.flt := rfl
@[simp] theorem updBoot_cache (s : State) (f : BootSt → BootSt) : (updBoot s f).cache = s.cache := rfl
@[simp] theorem updBoot_iommu (s : State) (f : BootSt → BootSt) : (updBoot s f).iommu = s.iommu := rfl
@[simp] theorem updBoot_time (s : State) (f : BootSt → BootSt) : (updBoot s f).time = s.time := rfl
@[simp] theorem updBoot_net (s : State) (f : BootSt → BootSt) : (updBoot s f).net = s.net := rfl
@[simp] theorem updBoot_hbm (s : State) (f : BootSt → BootSt) : (updBoot s f).hbm = s.hbm := rfl
@[simp] theorem updBoot_pwr (s : State) (f : BootSt → BootSt) : (updBoot s f).pwr = s.pwr := rfl
@[simp] theorem updBoot_dbg (s : State) (f : BootSt → BootSt) : (updBoot s f).dbg = s.dbg := rfl
@[simp] theorem updBoot_peri (s : State) (f : BootSt → BootSt) : (updBoot s f).peri = s.peri := rfl
@[simp] theorem updBoot_boot (s : State) (f : BootSt → BootSt) : (updBoot s f).boot = f s.boot := rfl

/-! updComp changes `comp` alone. -/
@[simp] theorem updComp_pending (s : State) (f : Comp → Comp) : (updComp s f).pending = s.pending := rfl
@[simp] theorem updComp_free (s : State) (f : Comp → Comp) : (updComp s f).free = s.free := rfl
@[simp] theorem updComp_now (s : State) (f : Comp → Comp) : (updComp s f).now = s.now := rfl
@[simp] theorem updComp_regs (s : State) (f : Comp → Comp) : (updComp s f).regs = s.regs := rfl
@[simp] theorem updComp_mem (s : State) (f : Comp → Comp) : (updComp s f).mem = s.mem := rfl
@[simp] theorem updComp_poison (s : State) (f : Comp → Comp) : (updComp s f).poison = s.poison := rfl
@[simp] theorem updComp_cores (s : State) (f : Comp → Comp) : (updComp s f).cores = s.cores := rfl
@[simp] theorem updComp_sched (s : State) (f : Comp → Comp) : (updComp s f).sched = s.sched := rfl
@[simp] theorem updComp_cells (s : State) (f : Comp → Comp) : (updComp s f).cells = s.cells := rfl
@[simp] theorem updComp_fab (s : State) (f : Comp → Comp) : (updComp s f).fab = s.fab := rfl
@[simp] theorem updComp_flt (s : State) (f : Comp → Comp) : (updComp s f).flt = s.flt := rfl
@[simp] theorem updComp_cache (s : State) (f : Comp → Comp) : (updComp s f).cache = s.cache := rfl
@[simp] theorem updComp_iommu (s : State) (f : Comp → Comp) : (updComp s f).iommu = s.iommu := rfl
@[simp] theorem updComp_time (s : State) (f : Comp → Comp) : (updComp s f).time = s.time := rfl
@[simp] theorem updComp_net (s : State) (f : Comp → Comp) : (updComp s f).net = s.net := rfl
@[simp] theorem updComp_hbm (s : State) (f : Comp → Comp) : (updComp s f).hbm = s.hbm := rfl
@[simp] theorem updComp_pwr (s : State) (f : Comp → Comp) : (updComp s f).pwr = s.pwr := rfl
@[simp] theorem updComp_boot (s : State) (f : Comp → Comp) : (updComp s f).boot = s.boot := rfl
@[simp] theorem updComp_dbg (s : State) (f : Comp → Comp) : (updComp s f).dbg = s.dbg := rfl
@[simp] theorem updComp_peri (s : State) (f : Comp → Comp) : (updComp s f).peri = s.peri := rfl
@[simp] theorem updComp_comp (s : State) (f : Comp → Comp) : (updComp s f).comp = f s.comp := rfl

/-! updJob changes `time` alone. -/
@[simp] theorem updJob_pending (s : State) (j : Nat) (f : Job → Job) : (updJob s j f).pending = s.pending := rfl
@[simp] theorem updJob_free (s : State) (j : Nat) (f : Job → Job) : (updJob s j f).free = s.free := rfl
@[simp] theorem updJob_now (s : State) (j : Nat) (f : Job → Job) : (updJob s j f).now = s.now := rfl
@[simp] theorem updJob_regs (s : State) (j : Nat) (f : Job → Job) : (updJob s j f).regs = s.regs := rfl
@[simp] theorem updJob_mem (s : State) (j : Nat) (f : Job → Job) : (updJob s j f).mem = s.mem := rfl
@[simp] theorem updJob_poison (s : State) (j : Nat) (f : Job → Job) : (updJob s j f).poison = s.poison := rfl
@[simp] theorem updJob_cores (s : State) (j : Nat) (f : Job → Job) : (updJob s j f).cores = s.cores := rfl
@[simp] theorem updJob_sched (s : State) (j : Nat) (f : Job → Job) : (updJob s j f).sched = s.sched := rfl
@[simp] theorem updJob_cells (s : State) (j : Nat) (f : Job → Job) : (updJob s j f).cells = s.cells := rfl
@[simp] theorem updJob_comp (s : State) (j : Nat) (f : Job → Job) : (updJob s j f).comp = s.comp := rfl
@[simp] theorem updJob_fab (s : State) (j : Nat) (f : Job → Job) : (updJob s j f).fab = s.fab := rfl
@[simp] theorem updJob_flt (s : State) (j : Nat) (f : Job → Job) : (updJob s j f).flt = s.flt := rfl
@[simp] theorem updJob_cache (s : State) (j : Nat) (f : Job → Job) : (updJob s j f).cache = s.cache := rfl
@[simp] theorem updJob_iommu (s : State) (j : Nat) (f : Job → Job) : (updJob s j f).iommu = s.iommu := rfl
@[simp] theorem updJob_net (s : State) (j : Nat) (f : Job → Job) : (updJob s j f).net = s.net := rfl
@[simp] theorem updJob_hbm (s : State) (j : Nat) (f : Job → Job) : (updJob s j f).hbm = s.hbm := rfl
@[simp] theorem updJob_pwr (s : State) (j : Nat) (f : Job → Job) : (updJob s j f).pwr = s.pwr := rfl
@[simp] theorem updJob_boot (s : State) (j : Nat) (f : Job → Job) : (updJob s j f).boot = s.boot := rfl
@[simp] theorem updJob_dbg (s : State) (j : Nat) (f : Job → Job) : (updJob s j f).dbg = s.dbg := rfl
@[simp] theorem updJob_peri (s : State) (j : Nat) (f : Job → Job) : (updJob s j f).peri = s.peri := rfl
@[simp] theorem updJob_time (s : State) (j : Nat) (f : Job → Job) : (updJob s j f).time = { s.time with jobs := put j (f (getJob s j)) s.time.jobs } := rfl

/-! updTimer changes `time` alone. -/
@[simp] theorem updTimer_pending (s : State) (t : Nat) (f : Timer → Timer) : (updTimer s t f).pending = s.pending := rfl
@[simp] theorem updTimer_free (s : State) (t : Nat) (f : Timer → Timer) : (updTimer s t f).free = s.free := rfl
@[simp] theorem updTimer_now (s : State) (t : Nat) (f : Timer → Timer) : (updTimer s t f).now = s.now := rfl
@[simp] theorem updTimer_regs (s : State) (t : Nat) (f : Timer → Timer) : (updTimer s t f).regs = s.regs := rfl
@[simp] theorem updTimer_mem (s : State) (t : Nat) (f : Timer → Timer) : (updTimer s t f).mem = s.mem := rfl
@[simp] theorem updTimer_poison (s : State) (t : Nat) (f : Timer → Timer) : (updTimer s t f).poison = s.poison := rfl
@[simp] theorem updTimer_cores (s : State) (t : Nat) (f : Timer → Timer) : (updTimer s t f).cores = s.cores := rfl
@[simp] theorem updTimer_sched (s : State) (t : Nat) (f : Timer → Timer) : (updTimer s t f).sched = s.sched := rfl
@[simp] theorem updTimer_cells (s : State) (t : Nat) (f : Timer → Timer) : (updTimer s t f).cells = s.cells := rfl
@[simp] theorem updTimer_comp (s : State) (t : Nat) (f : Timer → Timer) : (updTimer s t f).comp = s.comp := rfl
@[simp] theorem updTimer_fab (s : State) (t : Nat) (f : Timer → Timer) : (updTimer s t f).fab = s.fab := rfl
@[simp] theorem updTimer_flt (s : State) (t : Nat) (f : Timer → Timer) : (updTimer s t f).flt = s.flt := rfl
@[simp] theorem updTimer_cache (s : State) (t : Nat) (f : Timer → Timer) : (updTimer s t f).cache = s.cache := rfl
@[simp] theorem updTimer_iommu (s : State) (t : Nat) (f : Timer → Timer) : (updTimer s t f).iommu = s.iommu := rfl
@[simp] theorem updTimer_net (s : State) (t : Nat) (f : Timer → Timer) : (updTimer s t f).net = s.net := rfl
@[simp] theorem updTimer_hbm (s : State) (t : Nat) (f : Timer → Timer) : (updTimer s t f).hbm = s.hbm := rfl
@[simp] theorem updTimer_pwr (s : State) (t : Nat) (f : Timer → Timer) : (updTimer s t f).pwr = s.pwr := rfl
@[simp] theorem updTimer_boot (s : State) (t : Nat) (f : Timer → Timer) : (updTimer s t f).boot = s.boot := rfl
@[simp] theorem updTimer_dbg (s : State) (t : Nat) (f : Timer → Timer) : (updTimer s t f).dbg = s.dbg := rfl
@[simp] theorem updTimer_peri (s : State) (t : Nat) (f : Timer → Timer) : (updTimer s t f).peri = s.peri := rfl
@[simp] theorem updTimer_time (s : State) (t : Nat) (f : Timer → Timer) : (updTimer s t f).time = { s.time with timers := put t (f (getTimer s t)) s.time.timers } := rfl

/-! updWd changes `time` alone. -/
@[simp] theorem updWd_pending (s : State) (c : Nat) (f : CellWd → CellWd) : (updWd s c f).pending = s.pending := rfl
@[simp] theorem updWd_free (s : State) (c : Nat) (f : CellWd → CellWd) : (updWd s c f).free = s.free := rfl
@[simp] theorem updWd_now (s : State) (c : Nat) (f : CellWd → CellWd) : (updWd s c f).now = s.now := rfl
@[simp] theorem updWd_regs (s : State) (c : Nat) (f : CellWd → CellWd) : (updWd s c f).regs = s.regs := rfl
@[simp] theorem updWd_mem (s : State) (c : Nat) (f : CellWd → CellWd) : (updWd s c f).mem = s.mem := rfl
@[simp] theorem updWd_poison (s : State) (c : Nat) (f : CellWd → CellWd) : (updWd s c f).poison = s.poison := rfl
@[simp] theorem updWd_cores (s : State) (c : Nat) (f : CellWd → CellWd) : (updWd s c f).cores = s.cores := rfl
@[simp] theorem updWd_sched (s : State) (c : Nat) (f : CellWd → CellWd) : (updWd s c f).sched = s.sched := rfl
@[simp] theorem updWd_cells (s : State) (c : Nat) (f : CellWd → CellWd) : (updWd s c f).cells = s.cells := rfl
@[simp] theorem updWd_comp (s : State) (c : Nat) (f : CellWd → CellWd) : (updWd s c f).comp = s.comp := rfl
@[simp] theorem updWd_fab (s : State) (c : Nat) (f : CellWd → CellWd) : (updWd s c f).fab = s.fab := rfl
@[simp] theorem updWd_flt (s : State) (c : Nat) (f : CellWd → CellWd) : (updWd s c f).flt = s.flt := rfl
@[simp] theorem updWd_cache (s : State) (c : Nat) (f : CellWd → CellWd) : (updWd s c f).cache = s.cache := rfl
@[simp] theorem updWd_iommu (s : State) (c : Nat) (f : CellWd → CellWd) : (updWd s c f).iommu = s.iommu := rfl
@[simp] theorem updWd_net (s : State) (c : Nat) (f : CellWd → CellWd) : (updWd s c f).net = s.net := rfl
@[simp] theorem updWd_hbm (s : State) (c : Nat) (f : CellWd → CellWd) : (updWd s c f).hbm = s.hbm := rfl
@[simp] theorem updWd_pwr (s : State) (c : Nat) (f : CellWd → CellWd) : (updWd s c f).pwr = s.pwr := rfl
@[simp] theorem updWd_boot (s : State) (c : Nat) (f : CellWd → CellWd) : (updWd s c f).boot = s.boot := rfl
@[simp] theorem updWd_dbg (s : State) (c : Nat) (f : CellWd → CellWd) : (updWd s c f).dbg = s.dbg := rfl
@[simp] theorem updWd_peri (s : State) (c : Nat) (f : CellWd → CellWd) : (updWd s c f).peri = s.peri := rfl
@[simp] theorem updWd_time (s : State) (c : Nat) (f : CellWd → CellWd) : (updWd s c f).time = { s.time with wds := put c (f (getWd s c)) s.time.wds } := rfl

/-! updFab changes `fab` alone. -/
@[simp] theorem updFab_pending (s : State) (f : Fab → Fab) : (updFab s f).pending = s.pending := rfl
@[simp] theorem updFab_free (s : State) (f : Fab → Fab) : (updFab s f).free = s.free := rfl
@[simp] theorem updFab_now (s : State) (f : Fab → Fab) : (updFab s f).now = s.now := rfl
@[simp] theorem updFab_regs (s : State) (f : Fab → Fab) : (updFab s f).regs = s.regs := rfl
@[simp] theorem updFab_mem (s : State) (f : Fab → Fab) : (updFab s f).mem = s.mem := rfl
@[simp] theorem updFab_poison (s : State) (f : Fab → Fab) : (updFab s f).poison = s.poison := rfl
@[simp] theorem updFab_cores (s : State) (f : Fab → Fab) : (updFab s f).cores = s.cores := rfl
@[simp] theorem updFab_sched (s : State) (f : Fab → Fab) : (updFab s f).sched = s.sched := rfl
@[simp] theorem updFab_cells (s : State) (f : Fab → Fab) : (updFab s f).cells = s.cells := rfl
@[simp] theorem updFab_comp (s : State) (f : Fab → Fab) : (updFab s f).comp = s.comp := rfl
@[simp] theorem updFab_flt (s : State) (f : Fab → Fab) : (updFab s f).flt = s.flt := rfl
@[simp] theorem updFab_cache (s : State) (f : Fab → Fab) : (updFab s f).cache = s.cache := rfl
@[simp] theorem updFab_iommu (s : State) (f : Fab → Fab) : (updFab s f).iommu = s.iommu := rfl
@[simp] theorem updFab_time (s : State) (f : Fab → Fab) : (updFab s f).time = s.time := rfl
@[simp] theorem updFab_net (s : State) (f : Fab → Fab) : (updFab s f).net = s.net := rfl
@[simp] theorem updFab_hbm (s : State) (f : Fab → Fab) : (updFab s f).hbm = s.hbm := rfl
@[simp] theorem updFab_pwr (s : State) (f : Fab → Fab) : (updFab s f).pwr = s.pwr := rfl
@[simp] theorem updFab_boot (s : State) (f : Fab → Fab) : (updFab s f).boot = s.boot := rfl
@[simp] theorem updFab_dbg (s : State) (f : Fab → Fab) : (updFab s f).dbg = s.dbg := rfl
@[simp] theorem updFab_peri (s : State) (f : Fab → Fab) : (updFab s f).peri = s.peri := rfl
@[simp] theorem updFab_fab (s : State) (f : Fab → Fab) : (updFab s f).fab = f s.fab := rfl

/-! updLane changes `fab` alone. -/
@[simp] theorem updLane_pending (s : State) (k : Nat) (f : Lane → Lane) : (updLane s k f).pending = s.pending := rfl
@[simp] theorem updLane_free (s : State) (k : Nat) (f : Lane → Lane) : (updLane s k f).free = s.free := rfl
@[simp] theorem updLane_now (s : State) (k : Nat) (f : Lane → Lane) : (updLane s k f).now = s.now := rfl
@[simp] theorem updLane_regs (s : State) (k : Nat) (f : Lane → Lane) : (updLane s k f).regs = s.regs := rfl
@[simp] theorem updLane_mem (s : State) (k : Nat) (f : Lane → Lane) : (updLane s k f).mem = s.mem := rfl
@[simp] theorem updLane_poison (s : State) (k : Nat) (f : Lane → Lane) : (updLane s k f).poison = s.poison := rfl
@[simp] theorem updLane_cores (s : State) (k : Nat) (f : Lane → Lane) : (updLane s k f).cores = s.cores := rfl
@[simp] theorem updLane_sched (s : State) (k : Nat) (f : Lane → Lane) : (updLane s k f).sched = s.sched := rfl
@[simp] theorem updLane_cells (s : State) (k : Nat) (f : Lane → Lane) : (updLane s k f).cells = s.cells := rfl
@[simp] theorem updLane_comp (s : State) (k : Nat) (f : Lane → Lane) : (updLane s k f).comp = s.comp := rfl
@[simp] theorem updLane_flt (s : State) (k : Nat) (f : Lane → Lane) : (updLane s k f).flt = s.flt := rfl
@[simp] theorem updLane_cache (s : State) (k : Nat) (f : Lane → Lane) : (updLane s k f).cache = s.cache := rfl
@[simp] theorem updLane_iommu (s : State) (k : Nat) (f : Lane → Lane) : (updLane s k f).iommu = s.iommu := rfl
@[simp] theorem updLane_time (s : State) (k : Nat) (f : Lane → Lane) : (updLane s k f).time = s.time := rfl
@[simp] theorem updLane_net (s : State) (k : Nat) (f : Lane → Lane) : (updLane s k f).net = s.net := rfl
@[simp] theorem updLane_hbm (s : State) (k : Nat) (f : Lane → Lane) : (updLane s k f).hbm = s.hbm := rfl
@[simp] theorem updLane_pwr (s : State) (k : Nat) (f : Lane → Lane) : (updLane s k f).pwr = s.pwr := rfl
@[simp] theorem updLane_boot (s : State) (k : Nat) (f : Lane → Lane) : (updLane s k f).boot = s.boot := rfl
@[simp] theorem updLane_dbg (s : State) (k : Nat) (f : Lane → Lane) : (updLane s k f).dbg = s.dbg := rfl
@[simp] theorem updLane_peri (s : State) (k : Nat) (f : Lane → Lane) : (updLane s k f).peri = s.peri := rfl

/-! updLink changes `fab` alone. -/
@[simp] theorem updLink_pending (s : State) (sp port : Nat) (f : LinkDir → LinkDir) : (updLink s sp port f).pending = s.pending := rfl
@[simp] theorem updLink_free (s : State) (sp port : Nat) (f : LinkDir → LinkDir) : (updLink s sp port f).free = s.free := rfl
@[simp] theorem updLink_now (s : State) (sp port : Nat) (f : LinkDir → LinkDir) : (updLink s sp port f).now = s.now := rfl
@[simp] theorem updLink_regs (s : State) (sp port : Nat) (f : LinkDir → LinkDir) : (updLink s sp port f).regs = s.regs := rfl
@[simp] theorem updLink_mem (s : State) (sp port : Nat) (f : LinkDir → LinkDir) : (updLink s sp port f).mem = s.mem := rfl
@[simp] theorem updLink_poison (s : State) (sp port : Nat) (f : LinkDir → LinkDir) : (updLink s sp port f).poison = s.poison := rfl
@[simp] theorem updLink_cores (s : State) (sp port : Nat) (f : LinkDir → LinkDir) : (updLink s sp port f).cores = s.cores := rfl
@[simp] theorem updLink_sched (s : State) (sp port : Nat) (f : LinkDir → LinkDir) : (updLink s sp port f).sched = s.sched := rfl
@[simp] theorem updLink_cells (s : State) (sp port : Nat) (f : LinkDir → LinkDir) : (updLink s sp port f).cells = s.cells := rfl
@[simp] theorem updLink_comp (s : State) (sp port : Nat) (f : LinkDir → LinkDir) : (updLink s sp port f).comp = s.comp := rfl
@[simp] theorem updLink_flt (s : State) (sp port : Nat) (f : LinkDir → LinkDir) : (updLink s sp port f).flt = s.flt := rfl
@[simp] theorem updLink_cache (s : State) (sp port : Nat) (f : LinkDir → LinkDir) : (updLink s sp port f).cache = s.cache := rfl
@[simp] theorem updLink_iommu (s : State) (sp port : Nat) (f : LinkDir → LinkDir) : (updLink s sp port f).iommu = s.iommu := rfl
@[simp] theorem updLink_time (s : State) (sp port : Nat) (f : LinkDir → LinkDir) : (updLink s sp port f).time = s.time := rfl
@[simp] theorem updLink_net (s : State) (sp port : Nat) (f : LinkDir → LinkDir) : (updLink s sp port f).net = s.net := rfl
@[simp] theorem updLink_hbm (s : State) (sp port : Nat) (f : LinkDir → LinkDir) : (updLink s sp port f).hbm = s.hbm := rfl
@[simp] theorem updLink_pwr (s : State) (sp port : Nat) (f : LinkDir → LinkDir) : (updLink s sp port f).pwr = s.pwr := rfl
@[simp] theorem updLink_boot (s : State) (sp port : Nat) (f : LinkDir → LinkDir) : (updLink s sp port f).boot = s.boot := rfl
@[simp] theorem updLink_dbg (s : State) (sp port : Nat) (f : LinkDir → LinkDir) : (updLink s sp port f).dbg = s.dbg := rfl
@[simp] theorem updLink_peri (s : State) (sp port : Nat) (f : LinkDir → LinkDir) : (updLink s sp port f).peri = s.peri := rfl

/-! updFlt changes `flt` alone. -/
@[simp] theorem updFlt_pending (s : State) (f : Flt → Flt) : (updFlt s f).pending = s.pending := rfl
@[simp] theorem updFlt_free (s : State) (f : Flt → Flt) : (updFlt s f).free = s.free := rfl
@[simp] theorem updFlt_now (s : State) (f : Flt → Flt) : (updFlt s f).now = s.now := rfl
@[simp] theorem updFlt_regs (s : State) (f : Flt → Flt) : (updFlt s f).regs = s.regs := rfl
@[simp] theorem updFlt_mem (s : State) (f : Flt → Flt) : (updFlt s f).mem = s.mem := rfl
@[simp] theorem updFlt_poison (s : State) (f : Flt → Flt) : (updFlt s f).poison = s.poison := rfl
@[simp] theorem updFlt_cores (s : State) (f : Flt → Flt) : (updFlt s f).cores = s.cores := rfl
@[simp] theorem updFlt_sched (s : State) (f : Flt → Flt) : (updFlt s f).sched = s.sched := rfl
@[simp] theorem updFlt_cells (s : State) (f : Flt → Flt) : (updFlt s f).cells = s.cells := rfl
@[simp] theorem updFlt_comp (s : State) (f : Flt → Flt) : (updFlt s f).comp = s.comp := rfl
@[simp] theorem updFlt_fab (s : State) (f : Flt → Flt) : (updFlt s f).fab = s.fab := rfl
@[simp] theorem updFlt_cache (s : State) (f : Flt → Flt) : (updFlt s f).cache = s.cache := rfl
@[simp] theorem updFlt_iommu (s : State) (f : Flt → Flt) : (updFlt s f).iommu = s.iommu := rfl
@[simp] theorem updFlt_time (s : State) (f : Flt → Flt) : (updFlt s f).time = s.time := rfl
@[simp] theorem updFlt_net (s : State) (f : Flt → Flt) : (updFlt s f).net = s.net := rfl
@[simp] theorem updFlt_hbm (s : State) (f : Flt → Flt) : (updFlt s f).hbm = s.hbm := rfl
@[simp] theorem updFlt_pwr (s : State) (f : Flt → Flt) : (updFlt s f).pwr = s.pwr := rfl
@[simp] theorem updFlt_boot (s : State) (f : Flt → Flt) : (updFlt s f).boot = s.boot := rfl
@[simp] theorem updFlt_dbg (s : State) (f : Flt → Flt) : (updFlt s f).dbg = s.dbg := rfl
@[simp] theorem updFlt_peri (s : State) (f : Flt → Flt) : (updFlt s f).peri = s.peri := rfl
@[simp] theorem updFlt_flt (s : State) (f : Flt → Flt) : (updFlt s f).flt = f s.flt := rfl

/-! setBlock changes `flt` alone. -/
@[simp] theorem setBlock_pending (s : State) (e : Nat) (b : BlockEntry) : (setBlock s e b).pending = s.pending := rfl
@[simp] theorem setBlock_free (s : State) (e : Nat) (b : BlockEntry) : (setBlock s e b).free = s.free := rfl
@[simp] theorem setBlock_now (s : State) (e : Nat) (b : BlockEntry) : (setBlock s e b).now = s.now := rfl
@[simp] theorem setBlock_regs (s : State) (e : Nat) (b : BlockEntry) : (setBlock s e b).regs = s.regs := rfl
@[simp] theorem setBlock_mem (s : State) (e : Nat) (b : BlockEntry) : (setBlock s e b).mem = s.mem := rfl
@[simp] theorem setBlock_poison (s : State) (e : Nat) (b : BlockEntry) : (setBlock s e b).poison = s.poison := rfl
@[simp] theorem setBlock_cores (s : State) (e : Nat) (b : BlockEntry) : (setBlock s e b).cores = s.cores := rfl
@[simp] theorem setBlock_sched (s : State) (e : Nat) (b : BlockEntry) : (setBlock s e b).sched = s.sched := rfl
@[simp] theorem setBlock_cells (s : State) (e : Nat) (b : BlockEntry) : (setBlock s e b).cells = s.cells := rfl
@[simp] theorem setBlock_comp (s : State) (e : Nat) (b : BlockEntry) : (setBlock s e b).comp = s.comp := rfl
@[simp] theorem setBlock_fab (s : State) (e : Nat) (b : BlockEntry) : (setBlock s e b).fab = s.fab := rfl
@[simp] theorem setBlock_cache (s : State) (e : Nat) (b : BlockEntry) : (setBlock s e b).cache = s.cache := rfl
@[simp] theorem setBlock_iommu (s : State) (e : Nat) (b : BlockEntry) : (setBlock s e b).iommu = s.iommu := rfl
@[simp] theorem setBlock_time (s : State) (e : Nat) (b : BlockEntry) : (setBlock s e b).time = s.time := rfl
@[simp] theorem setBlock_net (s : State) (e : Nat) (b : BlockEntry) : (setBlock s e b).net = s.net := rfl
@[simp] theorem setBlock_hbm (s : State) (e : Nat) (b : BlockEntry) : (setBlock s e b).hbm = s.hbm := rfl
@[simp] theorem setBlock_pwr (s : State) (e : Nat) (b : BlockEntry) : (setBlock s e b).pwr = s.pwr := rfl
@[simp] theorem setBlock_boot (s : State) (e : Nat) (b : BlockEntry) : (setBlock s e b).boot = s.boot := rfl
@[simp] theorem setBlock_dbg (s : State) (e : Nat) (b : BlockEntry) : (setBlock s e b).dbg = s.dbg := rfl
@[simp] theorem setBlock_peri (s : State) (e : Nat) (b : BlockEntry) : (setBlock s e b).peri = s.peri := rfl

/-! updHmc changes `hbm` alone. -/
@[simp] theorem updHmc_pending (s : State) (m : Nat) (f : Hmc → Hmc) : (updHmc s m f).pending = s.pending := rfl
@[simp] theorem updHmc_free (s : State) (m : Nat) (f : Hmc → Hmc) : (updHmc s m f).free = s.free := rfl
@[simp] theorem updHmc_now (s : State) (m : Nat) (f : Hmc → Hmc) : (updHmc s m f).now = s.now := rfl
@[simp] theorem updHmc_regs (s : State) (m : Nat) (f : Hmc → Hmc) : (updHmc s m f).regs = s.regs := rfl
@[simp] theorem updHmc_mem (s : State) (m : Nat) (f : Hmc → Hmc) : (updHmc s m f).mem = s.mem := rfl
@[simp] theorem updHmc_poison (s : State) (m : Nat) (f : Hmc → Hmc) : (updHmc s m f).poison = s.poison := rfl
@[simp] theorem updHmc_cores (s : State) (m : Nat) (f : Hmc → Hmc) : (updHmc s m f).cores = s.cores := rfl
@[simp] theorem updHmc_sched (s : State) (m : Nat) (f : Hmc → Hmc) : (updHmc s m f).sched = s.sched := rfl
@[simp] theorem updHmc_cells (s : State) (m : Nat) (f : Hmc → Hmc) : (updHmc s m f).cells = s.cells := rfl
@[simp] theorem updHmc_comp (s : State) (m : Nat) (f : Hmc → Hmc) : (updHmc s m f).comp = s.comp := rfl
@[simp] theorem updHmc_fab (s : State) (m : Nat) (f : Hmc → Hmc) : (updHmc s m f).fab = s.fab := rfl
@[simp] theorem updHmc_flt (s : State) (m : Nat) (f : Hmc → Hmc) : (updHmc s m f).flt = s.flt := rfl
@[simp] theorem updHmc_cache (s : State) (m : Nat) (f : Hmc → Hmc) : (updHmc s m f).cache = s.cache := rfl
@[simp] theorem updHmc_iommu (s : State) (m : Nat) (f : Hmc → Hmc) : (updHmc s m f).iommu = s.iommu := rfl
@[simp] theorem updHmc_time (s : State) (m : Nat) (f : Hmc → Hmc) : (updHmc s m f).time = s.time := rfl
@[simp] theorem updHmc_net (s : State) (m : Nat) (f : Hmc → Hmc) : (updHmc s m f).net = s.net := rfl
@[simp] theorem updHmc_pwr (s : State) (m : Nat) (f : Hmc → Hmc) : (updHmc s m f).pwr = s.pwr := rfl
@[simp] theorem updHmc_boot (s : State) (m : Nat) (f : Hmc → Hmc) : (updHmc s m f).boot = s.boot := rfl
@[simp] theorem updHmc_dbg (s : State) (m : Nat) (f : Hmc → Hmc) : (updHmc s m f).dbg = s.dbg := rfl
@[simp] theorem updHmc_peri (s : State) (m : Nat) (f : Hmc → Hmc) : (updHmc s m f).peri = s.peri := rfl
@[simp] theorem updHmc_hbm (s : State) (m : Nat) (f : Hmc → Hmc) : (updHmc s m f).hbm = put m (f (getHmc s m)) s.hbm := rfl

/-! updPc changes `hbm` alone. -/
@[simp] theorem updPc_pending (s : State) (m p : Nat) (f : PseudoChan → PseudoChan) : (updPc s m p f).pending = s.pending := rfl
@[simp] theorem updPc_free (s : State) (m p : Nat) (f : PseudoChan → PseudoChan) : (updPc s m p f).free = s.free := rfl
@[simp] theorem updPc_now (s : State) (m p : Nat) (f : PseudoChan → PseudoChan) : (updPc s m p f).now = s.now := rfl
@[simp] theorem updPc_regs (s : State) (m p : Nat) (f : PseudoChan → PseudoChan) : (updPc s m p f).regs = s.regs := rfl
@[simp] theorem updPc_mem (s : State) (m p : Nat) (f : PseudoChan → PseudoChan) : (updPc s m p f).mem = s.mem := rfl
@[simp] theorem updPc_poison (s : State) (m p : Nat) (f : PseudoChan → PseudoChan) : (updPc s m p f).poison = s.poison := rfl
@[simp] theorem updPc_cores (s : State) (m p : Nat) (f : PseudoChan → PseudoChan) : (updPc s m p f).cores = s.cores := rfl
@[simp] theorem updPc_sched (s : State) (m p : Nat) (f : PseudoChan → PseudoChan) : (updPc s m p f).sched = s.sched := rfl
@[simp] theorem updPc_cells (s : State) (m p : Nat) (f : PseudoChan → PseudoChan) : (updPc s m p f).cells = s.cells := rfl
@[simp] theorem updPc_comp (s : State) (m p : Nat) (f : PseudoChan → PseudoChan) : (updPc s m p f).comp = s.comp := rfl
@[simp] theorem updPc_fab (s : State) (m p : Nat) (f : PseudoChan → PseudoChan) : (updPc s m p f).fab = s.fab := rfl
@[simp] theorem updPc_flt (s : State) (m p : Nat) (f : PseudoChan → PseudoChan) : (updPc s m p f).flt = s.flt := rfl
@[simp] theorem updPc_cache (s : State) (m p : Nat) (f : PseudoChan → PseudoChan) : (updPc s m p f).cache = s.cache := rfl
@[simp] theorem updPc_iommu (s : State) (m p : Nat) (f : PseudoChan → PseudoChan) : (updPc s m p f).iommu = s.iommu := rfl
@[simp] theorem updPc_time (s : State) (m p : Nat) (f : PseudoChan → PseudoChan) : (updPc s m p f).time = s.time := rfl
@[simp] theorem updPc_net (s : State) (m p : Nat) (f : PseudoChan → PseudoChan) : (updPc s m p f).net = s.net := rfl
@[simp] theorem updPc_pwr (s : State) (m p : Nat) (f : PseudoChan → PseudoChan) : (updPc s m p f).pwr = s.pwr := rfl
@[simp] theorem updPc_boot (s : State) (m p : Nat) (f : PseudoChan → PseudoChan) : (updPc s m p f).boot = s.boot := rfl
@[simp] theorem updPc_dbg (s : State) (m p : Nat) (f : PseudoChan → PseudoChan) : (updPc s m p f).dbg = s.dbg := rfl
@[simp] theorem updPc_peri (s : State) (m p : Nat) (f : PseudoChan → PseudoChan) : (updPc s m p f).peri = s.peri := rfl

/-! updStream changes `net` alone. -/
@[simp] theorem updStream_pending (s : State) (i : Nat) (f : Stream → Stream) : (updStream s i f).pending = s.pending := rfl
@[simp] theorem updStream_free (s : State) (i : Nat) (f : Stream → Stream) : (updStream s i f).free = s.free := rfl
@[simp] theorem updStream_now (s : State) (i : Nat) (f : Stream → Stream) : (updStream s i f).now = s.now := rfl
@[simp] theorem updStream_regs (s : State) (i : Nat) (f : Stream → Stream) : (updStream s i f).regs = s.regs := rfl
@[simp] theorem updStream_mem (s : State) (i : Nat) (f : Stream → Stream) : (updStream s i f).mem = s.mem := rfl
@[simp] theorem updStream_poison (s : State) (i : Nat) (f : Stream → Stream) : (updStream s i f).poison = s.poison := rfl
@[simp] theorem updStream_cores (s : State) (i : Nat) (f : Stream → Stream) : (updStream s i f).cores = s.cores := rfl
@[simp] theorem updStream_sched (s : State) (i : Nat) (f : Stream → Stream) : (updStream s i f).sched = s.sched := rfl
@[simp] theorem updStream_cells (s : State) (i : Nat) (f : Stream → Stream) : (updStream s i f).cells = s.cells := rfl
@[simp] theorem updStream_comp (s : State) (i : Nat) (f : Stream → Stream) : (updStream s i f).comp = s.comp := rfl
@[simp] theorem updStream_fab (s : State) (i : Nat) (f : Stream → Stream) : (updStream s i f).fab = s.fab := rfl
@[simp] theorem updStream_flt (s : State) (i : Nat) (f : Stream → Stream) : (updStream s i f).flt = s.flt := rfl
@[simp] theorem updStream_cache (s : State) (i : Nat) (f : Stream → Stream) : (updStream s i f).cache = s.cache := rfl
@[simp] theorem updStream_iommu (s : State) (i : Nat) (f : Stream → Stream) : (updStream s i f).iommu = s.iommu := rfl
@[simp] theorem updStream_time (s : State) (i : Nat) (f : Stream → Stream) : (updStream s i f).time = s.time := rfl
@[simp] theorem updStream_hbm (s : State) (i : Nat) (f : Stream → Stream) : (updStream s i f).hbm = s.hbm := rfl
@[simp] theorem updStream_pwr (s : State) (i : Nat) (f : Stream → Stream) : (updStream s i f).pwr = s.pwr := rfl
@[simp] theorem updStream_boot (s : State) (i : Nat) (f : Stream → Stream) : (updStream s i f).boot = s.boot := rfl
@[simp] theorem updStream_dbg (s : State) (i : Nat) (f : Stream → Stream) : (updStream s i f).dbg = s.dbg := rfl
@[simp] theorem updStream_peri (s : State) (i : Nat) (f : Stream → Stream) : (updStream s i f).peri = s.peri := rfl
@[simp] theorem updStream_net (s : State) (i : Nat) (f : Stream → Stream) : (updStream s i f).net = { s.net with streams := put i (f (getStream s i)) s.net.streams } := rfl

/-! updPort changes `net` alone. -/
@[simp] theorem updPort_pending (s : State) (p : Nat) (f : Port → Port) : (updPort s p f).pending = s.pending := rfl
@[simp] theorem updPort_free (s : State) (p : Nat) (f : Port → Port) : (updPort s p f).free = s.free := rfl
@[simp] theorem updPort_now (s : State) (p : Nat) (f : Port → Port) : (updPort s p f).now = s.now := rfl
@[simp] theorem updPort_regs (s : State) (p : Nat) (f : Port → Port) : (updPort s p f).regs = s.regs := rfl
@[simp] theorem updPort_mem (s : State) (p : Nat) (f : Port → Port) : (updPort s p f).mem = s.mem := rfl
@[simp] theorem updPort_poison (s : State) (p : Nat) (f : Port → Port) : (updPort s p f).poison = s.poison := rfl
@[simp] theorem updPort_cores (s : State) (p : Nat) (f : Port → Port) : (updPort s p f).cores = s.cores := rfl
@[simp] theorem updPort_sched (s : State) (p : Nat) (f : Port → Port) : (updPort s p f).sched = s.sched := rfl
@[simp] theorem updPort_cells (s : State) (p : Nat) (f : Port → Port) : (updPort s p f).cells = s.cells := rfl
@[simp] theorem updPort_comp (s : State) (p : Nat) (f : Port → Port) : (updPort s p f).comp = s.comp := rfl
@[simp] theorem updPort_fab (s : State) (p : Nat) (f : Port → Port) : (updPort s p f).fab = s.fab := rfl
@[simp] theorem updPort_flt (s : State) (p : Nat) (f : Port → Port) : (updPort s p f).flt = s.flt := rfl
@[simp] theorem updPort_cache (s : State) (p : Nat) (f : Port → Port) : (updPort s p f).cache = s.cache := rfl
@[simp] theorem updPort_iommu (s : State) (p : Nat) (f : Port → Port) : (updPort s p f).iommu = s.iommu := rfl
@[simp] theorem updPort_time (s : State) (p : Nat) (f : Port → Port) : (updPort s p f).time = s.time := rfl
@[simp] theorem updPort_hbm (s : State) (p : Nat) (f : Port → Port) : (updPort s p f).hbm = s.hbm := rfl
@[simp] theorem updPort_pwr (s : State) (p : Nat) (f : Port → Port) : (updPort s p f).pwr = s.pwr := rfl
@[simp] theorem updPort_boot (s : State) (p : Nat) (f : Port → Port) : (updPort s p f).boot = s.boot := rfl
@[simp] theorem updPort_dbg (s : State) (p : Nat) (f : Port → Port) : (updPort s p f).dbg = s.dbg := rfl
@[simp] theorem updPort_peri (s : State) (p : Nat) (f : Port → Port) : (updPort s p f).peri = s.peri := rfl
@[simp] theorem updPort_net (s : State) (p : Nat) (f : Port → Port) : (updPort s p f).net = { s.net with ports := put p (f (getPort s p)) s.net.ports } := rfl

/-! setRing changes `net` alone. -/
@[simp] theorem setRing_pending (s : State) (kind i : Nat) (r : Ring) : (setRing s kind i r).pending = s.pending := by unfold setRing; split <;> rfl
@[simp] theorem setRing_free (s : State) (kind i : Nat) (r : Ring) : (setRing s kind i r).free = s.free := by unfold setRing; split <;> rfl
@[simp] theorem setRing_now (s : State) (kind i : Nat) (r : Ring) : (setRing s kind i r).now = s.now := by unfold setRing; split <;> rfl
@[simp] theorem setRing_regs (s : State) (kind i : Nat) (r : Ring) : (setRing s kind i r).regs = s.regs := by unfold setRing; split <;> rfl
@[simp] theorem setRing_mem (s : State) (kind i : Nat) (r : Ring) : (setRing s kind i r).mem = s.mem := by unfold setRing; split <;> rfl
@[simp] theorem setRing_poison (s : State) (kind i : Nat) (r : Ring) : (setRing s kind i r).poison = s.poison := by unfold setRing; split <;> rfl
@[simp] theorem setRing_cores (s : State) (kind i : Nat) (r : Ring) : (setRing s kind i r).cores = s.cores := by unfold setRing; split <;> rfl
@[simp] theorem setRing_sched (s : State) (kind i : Nat) (r : Ring) : (setRing s kind i r).sched = s.sched := by unfold setRing; split <;> rfl
@[simp] theorem setRing_cells (s : State) (kind i : Nat) (r : Ring) : (setRing s kind i r).cells = s.cells := by unfold setRing; split <;> rfl
@[simp] theorem setRing_comp (s : State) (kind i : Nat) (r : Ring) : (setRing s kind i r).comp = s.comp := by unfold setRing; split <;> rfl
@[simp] theorem setRing_fab (s : State) (kind i : Nat) (r : Ring) : (setRing s kind i r).fab = s.fab := by unfold setRing; split <;> rfl
@[simp] theorem setRing_flt (s : State) (kind i : Nat) (r : Ring) : (setRing s kind i r).flt = s.flt := by unfold setRing; split <;> rfl
@[simp] theorem setRing_cache (s : State) (kind i : Nat) (r : Ring) : (setRing s kind i r).cache = s.cache := by unfold setRing; split <;> rfl
@[simp] theorem setRing_iommu (s : State) (kind i : Nat) (r : Ring) : (setRing s kind i r).iommu = s.iommu := by unfold setRing; split <;> rfl
@[simp] theorem setRing_time (s : State) (kind i : Nat) (r : Ring) : (setRing s kind i r).time = s.time := by unfold setRing; split <;> rfl
@[simp] theorem setRing_hbm (s : State) (kind i : Nat) (r : Ring) : (setRing s kind i r).hbm = s.hbm := by unfold setRing; split <;> rfl
@[simp] theorem setRing_pwr (s : State) (kind i : Nat) (r : Ring) : (setRing s kind i r).pwr = s.pwr := by unfold setRing; split <;> rfl
@[simp] theorem setRing_boot (s : State) (kind i : Nat) (r : Ring) : (setRing s kind i r).boot = s.boot := by unfold setRing; split <;> rfl
@[simp] theorem setRing_dbg (s : State) (kind i : Nat) (r : Ring) : (setRing s kind i r).dbg = s.dbg := by unfold setRing; split <;> rfl
@[simp] theorem setRing_peri (s : State) (kind i : Nat) (r : Ring) : (setRing s kind i r).peri = s.peri := by unfold setRing; split <;> rfl

/-! updPeri changes `peri` alone. -/
@[simp] theorem updPeri_pending (s : State) (f : PeriSt → PeriSt) : (updPeri s f).pending = s.pending := rfl
@[simp] theorem updPeri_free (s : State) (f : PeriSt → PeriSt) : (updPeri s f).free = s.free := rfl
@[simp] theorem updPeri_now (s : State) (f : PeriSt → PeriSt) : (updPeri s f).now = s.now := rfl
@[simp] theorem updPeri_regs (s : State) (f : PeriSt → PeriSt) : (updPeri s f).regs = s.regs := rfl
@[simp] theorem updPeri_mem (s : State) (f : PeriSt → PeriSt) : (updPeri s f).mem = s.mem := rfl
@[simp] theorem updPeri_poison (s : State) (f : PeriSt → PeriSt) : (updPeri s f).poison = s.poison := rfl
@[simp] theorem updPeri_cores (s : State) (f : PeriSt → PeriSt) : (updPeri s f).cores = s.cores := rfl
@[simp] theorem updPeri_sched (s : State) (f : PeriSt → PeriSt) : (updPeri s f).sched = s.sched := rfl
@[simp] theorem updPeri_cells (s : State) (f : PeriSt → PeriSt) : (updPeri s f).cells = s.cells := rfl
@[simp] theorem updPeri_comp (s : State) (f : PeriSt → PeriSt) : (updPeri s f).comp = s.comp := rfl
@[simp] theorem updPeri_fab (s : State) (f : PeriSt → PeriSt) : (updPeri s f).fab = s.fab := rfl
@[simp] theorem updPeri_flt (s : State) (f : PeriSt → PeriSt) : (updPeri s f).flt = s.flt := rfl
@[simp] theorem updPeri_cache (s : State) (f : PeriSt → PeriSt) : (updPeri s f).cache = s.cache := rfl
@[simp] theorem updPeri_iommu (s : State) (f : PeriSt → PeriSt) : (updPeri s f).iommu = s.iommu := rfl
@[simp] theorem updPeri_time (s : State) (f : PeriSt → PeriSt) : (updPeri s f).time = s.time := rfl
@[simp] theorem updPeri_net (s : State) (f : PeriSt → PeriSt) : (updPeri s f).net = s.net := rfl
@[simp] theorem updPeri_hbm (s : State) (f : PeriSt → PeriSt) : (updPeri s f).hbm = s.hbm := rfl
@[simp] theorem updPeri_pwr (s : State) (f : PeriSt → PeriSt) : (updPeri s f).pwr = s.pwr := rfl
@[simp] theorem updPeri_boot (s : State) (f : PeriSt → PeriSt) : (updPeri s f).boot = s.boot := rfl
@[simp] theorem updPeri_dbg (s : State) (f : PeriSt → PeriSt) : (updPeri s f).dbg = s.dbg := rfl
@[simp] theorem updPeri_peri (s : State) (f : PeriSt → PeriSt) : (updPeri s f).peri = f s.peri := rfl

/-! updIommu changes `iommu` alone. -/
@[simp] theorem updIommu_pending (s : State) (f : Iommu → Iommu) : (updIommu s f).pending = s.pending := rfl
@[simp] theorem updIommu_free (s : State) (f : Iommu → Iommu) : (updIommu s f).free = s.free := rfl
@[simp] theorem updIommu_now (s : State) (f : Iommu → Iommu) : (updIommu s f).now = s.now := rfl
@[simp] theorem updIommu_regs (s : State) (f : Iommu → Iommu) : (updIommu s f).regs = s.regs := rfl
@[simp] theorem updIommu_mem (s : State) (f : Iommu → Iommu) : (updIommu s f).mem = s.mem := rfl
@[simp] theorem updIommu_poison (s : State) (f : Iommu → Iommu) : (updIommu s f).poison = s.poison := rfl
@[simp] theorem updIommu_cores (s : State) (f : Iommu → Iommu) : (updIommu s f).cores = s.cores := rfl
@[simp] theorem updIommu_sched (s : State) (f : Iommu → Iommu) : (updIommu s f).sched = s.sched := rfl
@[simp] theorem updIommu_cells (s : State) (f : Iommu → Iommu) : (updIommu s f).cells = s.cells := rfl
@[simp] theorem updIommu_comp (s : State) (f : Iommu → Iommu) : (updIommu s f).comp = s.comp := rfl
@[simp] theorem updIommu_fab (s : State) (f : Iommu → Iommu) : (updIommu s f).fab = s.fab := rfl
@[simp] theorem updIommu_flt (s : State) (f : Iommu → Iommu) : (updIommu s f).flt = s.flt := rfl
@[simp] theorem updIommu_cache (s : State) (f : Iommu → Iommu) : (updIommu s f).cache = s.cache := rfl
@[simp] theorem updIommu_time (s : State) (f : Iommu → Iommu) : (updIommu s f).time = s.time := rfl
@[simp] theorem updIommu_net (s : State) (f : Iommu → Iommu) : (updIommu s f).net = s.net := rfl
@[simp] theorem updIommu_hbm (s : State) (f : Iommu → Iommu) : (updIommu s f).hbm = s.hbm := rfl
@[simp] theorem updIommu_pwr (s : State) (f : Iommu → Iommu) : (updIommu s f).pwr = s.pwr := rfl
@[simp] theorem updIommu_boot (s : State) (f : Iommu → Iommu) : (updIommu s f).boot = s.boot := rfl
@[simp] theorem updIommu_dbg (s : State) (f : Iommu → Iommu) : (updIommu s f).dbg = s.dbg := rfl
@[simp] theorem updIommu_peri (s : State) (f : Iommu → Iommu) : (updIommu s f).peri = s.peri := rfl

/-! updPcie changes `peri` alone. -/
@[simp] theorem updPcie_pending (s : State) (p : Nat) (f : PcPort → PcPort) : (updPcie s p f).pending = s.pending := rfl
@[simp] theorem updPcie_free (s : State) (p : Nat) (f : PcPort → PcPort) : (updPcie s p f).free = s.free := rfl
@[simp] theorem updPcie_now (s : State) (p : Nat) (f : PcPort → PcPort) : (updPcie s p f).now = s.now := rfl
@[simp] theorem updPcie_regs (s : State) (p : Nat) (f : PcPort → PcPort) : (updPcie s p f).regs = s.regs := rfl
@[simp] theorem updPcie_mem (s : State) (p : Nat) (f : PcPort → PcPort) : (updPcie s p f).mem = s.mem := rfl
@[simp] theorem updPcie_poison (s : State) (p : Nat) (f : PcPort → PcPort) : (updPcie s p f).poison = s.poison := rfl
@[simp] theorem updPcie_cores (s : State) (p : Nat) (f : PcPort → PcPort) : (updPcie s p f).cores = s.cores := rfl
@[simp] theorem updPcie_sched (s : State) (p : Nat) (f : PcPort → PcPort) : (updPcie s p f).sched = s.sched := rfl
@[simp] theorem updPcie_cells (s : State) (p : Nat) (f : PcPort → PcPort) : (updPcie s p f).cells = s.cells := rfl
@[simp] theorem updPcie_comp (s : State) (p : Nat) (f : PcPort → PcPort) : (updPcie s p f).comp = s.comp := rfl
@[simp] theorem updPcie_fab (s : State) (p : Nat) (f : PcPort → PcPort) : (updPcie s p f).fab = s.fab := rfl
@[simp] theorem updPcie_flt (s : State) (p : Nat) (f : PcPort → PcPort) : (updPcie s p f).flt = s.flt := rfl
@[simp] theorem updPcie_cache (s : State) (p : Nat) (f : PcPort → PcPort) : (updPcie s p f).cache = s.cache := rfl
@[simp] theorem updPcie_iommu (s : State) (p : Nat) (f : PcPort → PcPort) : (updPcie s p f).iommu = s.iommu := rfl
@[simp] theorem updPcie_time (s : State) (p : Nat) (f : PcPort → PcPort) : (updPcie s p f).time = s.time := rfl
@[simp] theorem updPcie_net (s : State) (p : Nat) (f : PcPort → PcPort) : (updPcie s p f).net = s.net := rfl
@[simp] theorem updPcie_hbm (s : State) (p : Nat) (f : PcPort → PcPort) : (updPcie s p f).hbm = s.hbm := rfl
@[simp] theorem updPcie_pwr (s : State) (p : Nat) (f : PcPort → PcPort) : (updPcie s p f).pwr = s.pwr := rfl
@[simp] theorem updPcie_boot (s : State) (p : Nat) (f : PcPort → PcPort) : (updPcie s p f).boot = s.boot := rfl
@[simp] theorem updPcie_dbg (s : State) (p : Nat) (f : PcPort → PcPort) : (updPcie s p f).dbg = s.dbg := rfl

/-! updSerial changes `peri` alone. -/
@[simp] theorem updSerial_pending (s : State) (i : Nat) (f : Serial → Serial) : (updSerial s i f).pending = s.pending := rfl
@[simp] theorem updSerial_free (s : State) (i : Nat) (f : Serial → Serial) : (updSerial s i f).free = s.free := rfl
@[simp] theorem updSerial_now (s : State) (i : Nat) (f : Serial → Serial) : (updSerial s i f).now = s.now := rfl
@[simp] theorem updSerial_regs (s : State) (i : Nat) (f : Serial → Serial) : (updSerial s i f).regs = s.regs := rfl
@[simp] theorem updSerial_mem (s : State) (i : Nat) (f : Serial → Serial) : (updSerial s i f).mem = s.mem := rfl
@[simp] theorem updSerial_poison (s : State) (i : Nat) (f : Serial → Serial) : (updSerial s i f).poison = s.poison := rfl
@[simp] theorem updSerial_cores (s : State) (i : Nat) (f : Serial → Serial) : (updSerial s i f).cores = s.cores := rfl
@[simp] theorem updSerial_sched (s : State) (i : Nat) (f : Serial → Serial) : (updSerial s i f).sched = s.sched := rfl
@[simp] theorem updSerial_cells (s : State) (i : Nat) (f : Serial → Serial) : (updSerial s i f).cells = s.cells := rfl
@[simp] theorem updSerial_comp (s : State) (i : Nat) (f : Serial → Serial) : (updSerial s i f).comp = s.comp := rfl
@[simp] theorem updSerial_fab (s : State) (i : Nat) (f : Serial → Serial) : (updSerial s i f).fab = s.fab := rfl
@[simp] theorem updSerial_flt (s : State) (i : Nat) (f : Serial → Serial) : (updSerial s i f).flt = s.flt := rfl
@[simp] theorem updSerial_cache (s : State) (i : Nat) (f : Serial → Serial) : (updSerial s i f).cache = s.cache := rfl
@[simp] theorem updSerial_iommu (s : State) (i : Nat) (f : Serial → Serial) : (updSerial s i f).iommu = s.iommu := rfl
@[simp] theorem updSerial_time (s : State) (i : Nat) (f : Serial → Serial) : (updSerial s i f).time = s.time := rfl
@[simp] theorem updSerial_net (s : State) (i : Nat) (f : Serial → Serial) : (updSerial s i f).net = s.net := rfl
@[simp] theorem updSerial_hbm (s : State) (i : Nat) (f : Serial → Serial) : (updSerial s i f).hbm = s.hbm := rfl
@[simp] theorem updSerial_pwr (s : State) (i : Nat) (f : Serial → Serial) : (updSerial s i f).pwr = s.pwr := rfl
@[simp] theorem updSerial_boot (s : State) (i : Nat) (f : Serial → Serial) : (updSerial s i f).boot = s.boot := rfl
@[simp] theorem updSerial_dbg (s : State) (i : Nat) (f : Serial → Serial) : (updSerial s i f).dbg = s.dbg := rfl

/-! updDma changes `peri` alone. -/
@[simp] theorem updDma_pending (s : State) (k : Nat) (f : DmaChan → DmaChan) : (updDma s k f).pending = s.pending := rfl
@[simp] theorem updDma_free (s : State) (k : Nat) (f : DmaChan → DmaChan) : (updDma s k f).free = s.free := rfl
@[simp] theorem updDma_now (s : State) (k : Nat) (f : DmaChan → DmaChan) : (updDma s k f).now = s.now := rfl
@[simp] theorem updDma_regs (s : State) (k : Nat) (f : DmaChan → DmaChan) : (updDma s k f).regs = s.regs := rfl
@[simp] theorem updDma_mem (s : State) (k : Nat) (f : DmaChan → DmaChan) : (updDma s k f).mem = s.mem := rfl
@[simp] theorem updDma_poison (s : State) (k : Nat) (f : DmaChan → DmaChan) : (updDma s k f).poison = s.poison := rfl
@[simp] theorem updDma_cores (s : State) (k : Nat) (f : DmaChan → DmaChan) : (updDma s k f).cores = s.cores := rfl
@[simp] theorem updDma_sched (s : State) (k : Nat) (f : DmaChan → DmaChan) : (updDma s k f).sched = s.sched := rfl
@[simp] theorem updDma_cells (s : State) (k : Nat) (f : DmaChan → DmaChan) : (updDma s k f).cells = s.cells := rfl
@[simp] theorem updDma_comp (s : State) (k : Nat) (f : DmaChan → DmaChan) : (updDma s k f).comp = s.comp := rfl
@[simp] theorem updDma_fab (s : State) (k : Nat) (f : DmaChan → DmaChan) : (updDma s k f).fab = s.fab := rfl
@[simp] theorem updDma_flt (s : State) (k : Nat) (f : DmaChan → DmaChan) : (updDma s k f).flt = s.flt := rfl
@[simp] theorem updDma_cache (s : State) (k : Nat) (f : DmaChan → DmaChan) : (updDma s k f).cache = s.cache := rfl
@[simp] theorem updDma_iommu (s : State) (k : Nat) (f : DmaChan → DmaChan) : (updDma s k f).iommu = s.iommu := rfl
@[simp] theorem updDma_time (s : State) (k : Nat) (f : DmaChan → DmaChan) : (updDma s k f).time = s.time := rfl
@[simp] theorem updDma_net (s : State) (k : Nat) (f : DmaChan → DmaChan) : (updDma s k f).net = s.net := rfl
@[simp] theorem updDma_hbm (s : State) (k : Nat) (f : DmaChan → DmaChan) : (updDma s k f).hbm = s.hbm := rfl
@[simp] theorem updDma_pwr (s : State) (k : Nat) (f : DmaChan → DmaChan) : (updDma s k f).pwr = s.pwr := rfl
@[simp] theorem updDma_boot (s : State) (k : Nat) (f : DmaChan → DmaChan) : (updDma s k f).boot = s.boot := rfl
@[simp] theorem updDma_dbg (s : State) (k : Nat) (f : DmaChan → DmaChan) : (updDma s k f).dbg = s.dbg := rfl

/-! updDom changes `pwr` alone. -/
@[simp] theorem updDom_pending (s : State) (d : Nat) (f : Dom → Dom) : (updDom s d f).pending = s.pending := rfl
@[simp] theorem updDom_free (s : State) (d : Nat) (f : Dom → Dom) : (updDom s d f).free = s.free := rfl
@[simp] theorem updDom_now (s : State) (d : Nat) (f : Dom → Dom) : (updDom s d f).now = s.now := rfl
@[simp] theorem updDom_regs (s : State) (d : Nat) (f : Dom → Dom) : (updDom s d f).regs = s.regs := rfl
@[simp] theorem updDom_mem (s : State) (d : Nat) (f : Dom → Dom) : (updDom s d f).mem = s.mem := rfl
@[simp] theorem updDom_poison (s : State) (d : Nat) (f : Dom → Dom) : (updDom s d f).poison = s.poison := rfl
@[simp] theorem updDom_cores (s : State) (d : Nat) (f : Dom → Dom) : (updDom s d f).cores = s.cores := rfl
@[simp] theorem updDom_sched (s : State) (d : Nat) (f : Dom → Dom) : (updDom s d f).sched = s.sched := rfl
@[simp] theorem updDom_cells (s : State) (d : Nat) (f : Dom → Dom) : (updDom s d f).cells = s.cells := rfl
@[simp] theorem updDom_comp (s : State) (d : Nat) (f : Dom → Dom) : (updDom s d f).comp = s.comp := rfl
@[simp] theorem updDom_fab (s : State) (d : Nat) (f : Dom → Dom) : (updDom s d f).fab = s.fab := rfl
@[simp] theorem updDom_flt (s : State) (d : Nat) (f : Dom → Dom) : (updDom s d f).flt = s.flt := rfl
@[simp] theorem updDom_cache (s : State) (d : Nat) (f : Dom → Dom) : (updDom s d f).cache = s.cache := rfl
@[simp] theorem updDom_iommu (s : State) (d : Nat) (f : Dom → Dom) : (updDom s d f).iommu = s.iommu := rfl
@[simp] theorem updDom_time (s : State) (d : Nat) (f : Dom → Dom) : (updDom s d f).time = s.time := rfl
@[simp] theorem updDom_net (s : State) (d : Nat) (f : Dom → Dom) : (updDom s d f).net = s.net := rfl
@[simp] theorem updDom_hbm (s : State) (d : Nat) (f : Dom → Dom) : (updDom s d f).hbm = s.hbm := rfl
@[simp] theorem updDom_boot (s : State) (d : Nat) (f : Dom → Dom) : (updDom s d f).boot = s.boot := rfl
@[simp] theorem updDom_dbg (s : State) (d : Nat) (f : Dom → Dom) : (updDom s d f).dbg = s.dbg := rfl
@[simp] theorem updDom_peri (s : State) (d : Nat) (f : Dom → Dom) : (updDom s d f).peri = s.peri := rfl
@[simp] theorem updDom_pwr (s : State) (d : Nat) (f : Dom → Dom) : (updDom s d f).pwr = { s.pwr with doms := put d (f (getDom s d)) s.pwr.doms } := rfl

/-! updCanary changes `pwr` alone. -/
@[simp] theorem updCanary_pending (s : State) (c : Nat) (f : Canary → Canary) : (updCanary s c f).pending = s.pending := rfl
@[simp] theorem updCanary_free (s : State) (c : Nat) (f : Canary → Canary) : (updCanary s c f).free = s.free := rfl
@[simp] theorem updCanary_now (s : State) (c : Nat) (f : Canary → Canary) : (updCanary s c f).now = s.now := rfl
@[simp] theorem updCanary_regs (s : State) (c : Nat) (f : Canary → Canary) : (updCanary s c f).regs = s.regs := rfl
@[simp] theorem updCanary_mem (s : State) (c : Nat) (f : Canary → Canary) : (updCanary s c f).mem = s.mem := rfl
@[simp] theorem updCanary_poison (s : State) (c : Nat) (f : Canary → Canary) : (updCanary s c f).poison = s.poison := rfl
@[simp] theorem updCanary_cores (s : State) (c : Nat) (f : Canary → Canary) : (updCanary s c f).cores = s.cores := rfl
@[simp] theorem updCanary_sched (s : State) (c : Nat) (f : Canary → Canary) : (updCanary s c f).sched = s.sched := rfl
@[simp] theorem updCanary_cells (s : State) (c : Nat) (f : Canary → Canary) : (updCanary s c f).cells = s.cells := rfl
@[simp] theorem updCanary_comp (s : State) (c : Nat) (f : Canary → Canary) : (updCanary s c f).comp = s.comp := rfl
@[simp] theorem updCanary_fab (s : State) (c : Nat) (f : Canary → Canary) : (updCanary s c f).fab = s.fab := rfl
@[simp] theorem updCanary_flt (s : State) (c : Nat) (f : Canary → Canary) : (updCanary s c f).flt = s.flt := rfl
@[simp] theorem updCanary_cache (s : State) (c : Nat) (f : Canary → Canary) : (updCanary s c f).cache = s.cache := rfl
@[simp] theorem updCanary_iommu (s : State) (c : Nat) (f : Canary → Canary) : (updCanary s c f).iommu = s.iommu := rfl
@[simp] theorem updCanary_time (s : State) (c : Nat) (f : Canary → Canary) : (updCanary s c f).time = s.time := rfl
@[simp] theorem updCanary_net (s : State) (c : Nat) (f : Canary → Canary) : (updCanary s c f).net = s.net := rfl
@[simp] theorem updCanary_hbm (s : State) (c : Nat) (f : Canary → Canary) : (updCanary s c f).hbm = s.hbm := rfl
@[simp] theorem updCanary_boot (s : State) (c : Nat) (f : Canary → Canary) : (updCanary s c f).boot = s.boot := rfl
@[simp] theorem updCanary_dbg (s : State) (c : Nat) (f : Canary → Canary) : (updCanary s c f).dbg = s.dbg := rfl
@[simp] theorem updCanary_peri (s : State) (c : Nat) (f : Canary → Canary) : (updCanary s c f).peri = s.peri := rfl
@[simp] theorem updCanary_pwr (s : State) (c : Nat) (f : Canary → Canary) : (updCanary s c f).pwr = { s.pwr with canaries := put c (f (getCanary s c)) s.pwr.canaries } := rfl

/-! updTime changes `time` alone. -/
@[simp] theorem updTime_pending (s : State) (f : TimeSt → TimeSt) : (updTime s f).pending = s.pending := rfl
@[simp] theorem updTime_free (s : State) (f : TimeSt → TimeSt) : (updTime s f).free = s.free := rfl
@[simp] theorem updTime_now (s : State) (f : TimeSt → TimeSt) : (updTime s f).now = s.now := rfl
@[simp] theorem updTime_regs (s : State) (f : TimeSt → TimeSt) : (updTime s f).regs = s.regs := rfl
@[simp] theorem updTime_mem (s : State) (f : TimeSt → TimeSt) : (updTime s f).mem = s.mem := rfl
@[simp] theorem updTime_poison (s : State) (f : TimeSt → TimeSt) : (updTime s f).poison = s.poison := rfl
@[simp] theorem updTime_cores (s : State) (f : TimeSt → TimeSt) : (updTime s f).cores = s.cores := rfl
@[simp] theorem updTime_sched (s : State) (f : TimeSt → TimeSt) : (updTime s f).sched = s.sched := rfl
@[simp] theorem updTime_cells (s : State) (f : TimeSt → TimeSt) : (updTime s f).cells = s.cells := rfl
@[simp] theorem updTime_comp (s : State) (f : TimeSt → TimeSt) : (updTime s f).comp = s.comp := rfl
@[simp] theorem updTime_fab (s : State) (f : TimeSt → TimeSt) : (updTime s f).fab = s.fab := rfl
@[simp] theorem updTime_flt (s : State) (f : TimeSt → TimeSt) : (updTime s f).flt = s.flt := rfl
@[simp] theorem updTime_cache (s : State) (f : TimeSt → TimeSt) : (updTime s f).cache = s.cache := rfl
@[simp] theorem updTime_iommu (s : State) (f : TimeSt → TimeSt) : (updTime s f).iommu = s.iommu := rfl
@[simp] theorem updTime_net (s : State) (f : TimeSt → TimeSt) : (updTime s f).net = s.net := rfl
@[simp] theorem updTime_hbm (s : State) (f : TimeSt → TimeSt) : (updTime s f).hbm = s.hbm := rfl
@[simp] theorem updTime_pwr (s : State) (f : TimeSt → TimeSt) : (updTime s f).pwr = s.pwr := rfl
@[simp] theorem updTime_boot (s : State) (f : TimeSt → TimeSt) : (updTime s f).boot = s.boot := rfl
@[simp] theorem updTime_dbg (s : State) (f : TimeSt → TimeSt) : (updTime s f).dbg = s.dbg := rfl
@[simp] theorem updTime_peri (s : State) (f : TimeSt → TimeSt) : (updTime s f).peri = s.peri := rfl
@[simp] theorem updTime_time (s : State) (f : TimeSt → TimeSt) : (updTime s f).time = f s.time := rfl

/-! updDbg changes `dbg` alone. -/
@[simp] theorem updDbg_pending (s : State) (f : DbgSt → DbgSt) : (updDbg s f).pending = s.pending := rfl
@[simp] theorem updDbg_free (s : State) (f : DbgSt → DbgSt) : (updDbg s f).free = s.free := rfl
@[simp] theorem updDbg_now (s : State) (f : DbgSt → DbgSt) : (updDbg s f).now = s.now := rfl
@[simp] theorem updDbg_regs (s : State) (f : DbgSt → DbgSt) : (updDbg s f).regs = s.regs := rfl
@[simp] theorem updDbg_mem (s : State) (f : DbgSt → DbgSt) : (updDbg s f).mem = s.mem := rfl
@[simp] theorem updDbg_poison (s : State) (f : DbgSt → DbgSt) : (updDbg s f).poison = s.poison := rfl
@[simp] theorem updDbg_cores (s : State) (f : DbgSt → DbgSt) : (updDbg s f).cores = s.cores := rfl
@[simp] theorem updDbg_sched (s : State) (f : DbgSt → DbgSt) : (updDbg s f).sched = s.sched := rfl
@[simp] theorem updDbg_cells (s : State) (f : DbgSt → DbgSt) : (updDbg s f).cells = s.cells := rfl
@[simp] theorem updDbg_comp (s : State) (f : DbgSt → DbgSt) : (updDbg s f).comp = s.comp := rfl
@[simp] theorem updDbg_fab (s : State) (f : DbgSt → DbgSt) : (updDbg s f).fab = s.fab := rfl
@[simp] theorem updDbg_flt (s : State) (f : DbgSt → DbgSt) : (updDbg s f).flt = s.flt := rfl
@[simp] theorem updDbg_cache (s : State) (f : DbgSt → DbgSt) : (updDbg s f).cache = s.cache := rfl
@[simp] theorem updDbg_iommu (s : State) (f : DbgSt → DbgSt) : (updDbg s f).iommu = s.iommu := rfl
@[simp] theorem updDbg_time (s : State) (f : DbgSt → DbgSt) : (updDbg s f).time = s.time := rfl
@[simp] theorem updDbg_net (s : State) (f : DbgSt → DbgSt) : (updDbg s f).net = s.net := rfl
@[simp] theorem updDbg_hbm (s : State) (f : DbgSt → DbgSt) : (updDbg s f).hbm = s.hbm := rfl
@[simp] theorem updDbg_pwr (s : State) (f : DbgSt → DbgSt) : (updDbg s f).pwr = s.pwr := rfl
@[simp] theorem updDbg_boot (s : State) (f : DbgSt → DbgSt) : (updDbg s f).boot = s.boot := rfl
@[simp] theorem updDbg_peri (s : State) (f : DbgSt → DbgSt) : (updDbg s f).peri = s.peri := rfl
@[simp] theorem updDbg_dbg (s : State) (f : DbgSt → DbgSt) : (updDbg s f).dbg = f s.dbg := rfl

/-! updDbgCell changes `dbg` alone. -/
@[simp] theorem updDbgCell_pending (s : State) (c : Nat) (f : DbgCell → DbgCell) : (updDbgCell s c f).pending = s.pending := rfl
@[simp] theorem updDbgCell_free (s : State) (c : Nat) (f : DbgCell → DbgCell) : (updDbgCell s c f).free = s.free := rfl
@[simp] theorem updDbgCell_now (s : State) (c : Nat) (f : DbgCell → DbgCell) : (updDbgCell s c f).now = s.now := rfl
@[simp] theorem updDbgCell_regs (s : State) (c : Nat) (f : DbgCell → DbgCell) : (updDbgCell s c f).regs = s.regs := rfl
@[simp] theorem updDbgCell_mem (s : State) (c : Nat) (f : DbgCell → DbgCell) : (updDbgCell s c f).mem = s.mem := rfl
@[simp] theorem updDbgCell_poison (s : State) (c : Nat) (f : DbgCell → DbgCell) : (updDbgCell s c f).poison = s.poison := rfl
@[simp] theorem updDbgCell_cores (s : State) (c : Nat) (f : DbgCell → DbgCell) : (updDbgCell s c f).cores = s.cores := rfl
@[simp] theorem updDbgCell_sched (s : State) (c : Nat) (f : DbgCell → DbgCell) : (updDbgCell s c f).sched = s.sched := rfl
@[simp] theorem updDbgCell_cells (s : State) (c : Nat) (f : DbgCell → DbgCell) : (updDbgCell s c f).cells = s.cells := rfl
@[simp] theorem updDbgCell_comp (s : State) (c : Nat) (f : DbgCell → DbgCell) : (updDbgCell s c f).comp = s.comp := rfl
@[simp] theorem updDbgCell_fab (s : State) (c : Nat) (f : DbgCell → DbgCell) : (updDbgCell s c f).fab = s.fab := rfl
@[simp] theorem updDbgCell_flt (s : State) (c : Nat) (f : DbgCell → DbgCell) : (updDbgCell s c f).flt = s.flt := rfl
@[simp] theorem updDbgCell_cache (s : State) (c : Nat) (f : DbgCell → DbgCell) : (updDbgCell s c f).cache = s.cache := rfl
@[simp] theorem updDbgCell_iommu (s : State) (c : Nat) (f : DbgCell → DbgCell) : (updDbgCell s c f).iommu = s.iommu := rfl
@[simp] theorem updDbgCell_time (s : State) (c : Nat) (f : DbgCell → DbgCell) : (updDbgCell s c f).time = s.time := rfl
@[simp] theorem updDbgCell_net (s : State) (c : Nat) (f : DbgCell → DbgCell) : (updDbgCell s c f).net = s.net := rfl
@[simp] theorem updDbgCell_hbm (s : State) (c : Nat) (f : DbgCell → DbgCell) : (updDbgCell s c f).hbm = s.hbm := rfl
@[simp] theorem updDbgCell_pwr (s : State) (c : Nat) (f : DbgCell → DbgCell) : (updDbgCell s c f).pwr = s.pwr := rfl
@[simp] theorem updDbgCell_boot (s : State) (c : Nat) (f : DbgCell → DbgCell) : (updDbgCell s c f).boot = s.boot := rfl
@[simp] theorem updDbgCell_peri (s : State) (c : Nat) (f : DbgCell → DbgCell) : (updDbgCell s c f).peri = s.peri := rfl
@[simp] theorem updDbgCell_dbg (s : State) (c : Nat) (f : DbgCell → DbgCell) : (updDbgCell s c f).dbg = { s.dbg with cells := put c (f (getDbgCell s c)) s.dbg.cells } := rfl

/-! setL2 changes `cache` alone. -/
@[simp] theorem setL2_pending (s : State) (n : Nat) (l : List L2Line) : (setL2 s n l).pending = s.pending := rfl
@[simp] theorem setL2_free (s : State) (n : Nat) (l : List L2Line) : (setL2 s n l).free = s.free := rfl
@[simp] theorem setL2_now (s : State) (n : Nat) (l : List L2Line) : (setL2 s n l).now = s.now := rfl
@[simp] theorem setL2_regs (s : State) (n : Nat) (l : List L2Line) : (setL2 s n l).regs = s.regs := rfl
@[simp] theorem setL2_mem (s : State) (n : Nat) (l : List L2Line) : (setL2 s n l).mem = s.mem := rfl
@[simp] theorem setL2_poison (s : State) (n : Nat) (l : List L2Line) : (setL2 s n l).poison = s.poison := rfl
@[simp] theorem setL2_cores (s : State) (n : Nat) (l : List L2Line) : (setL2 s n l).cores = s.cores := rfl
@[simp] theorem setL2_sched (s : State) (n : Nat) (l : List L2Line) : (setL2 s n l).sched = s.sched := rfl
@[simp] theorem setL2_cells (s : State) (n : Nat) (l : List L2Line) : (setL2 s n l).cells = s.cells := rfl
@[simp] theorem setL2_comp (s : State) (n : Nat) (l : List L2Line) : (setL2 s n l).comp = s.comp := rfl
@[simp] theorem setL2_fab (s : State) (n : Nat) (l : List L2Line) : (setL2 s n l).fab = s.fab := rfl
@[simp] theorem setL2_flt (s : State) (n : Nat) (l : List L2Line) : (setL2 s n l).flt = s.flt := rfl
@[simp] theorem setL2_iommu (s : State) (n : Nat) (l : List L2Line) : (setL2 s n l).iommu = s.iommu := rfl
@[simp] theorem setL2_time (s : State) (n : Nat) (l : List L2Line) : (setL2 s n l).time = s.time := rfl
@[simp] theorem setL2_net (s : State) (n : Nat) (l : List L2Line) : (setL2 s n l).net = s.net := rfl
@[simp] theorem setL2_hbm (s : State) (n : Nat) (l : List L2Line) : (setL2 s n l).hbm = s.hbm := rfl
@[simp] theorem setL2_pwr (s : State) (n : Nat) (l : List L2Line) : (setL2 s n l).pwr = s.pwr := rfl
@[simp] theorem setL2_boot (s : State) (n : Nat) (l : List L2Line) : (setL2 s n l).boot = s.boot := rfl
@[simp] theorem setL2_dbg (s : State) (n : Nat) (l : List L2Line) : (setL2 s n l).dbg = s.dbg := rfl
@[simp] theorem setL2_peri (s : State) (n : Nat) (l : List L2Line) : (setL2 s n l).peri = s.peri := rfl
@[simp] theorem setL2_cache (s : State) (n : Nat) (l : List L2Line) : (setL2 s n l).cache = { s.cache with l2 := put n l s.cache.l2 } := rfl

/-! setQueue changes `sched` alone. -/
@[simp] theorem setQueue_pending (s : State) (key : Nat) (q : List Nat) : (setQueue s key q).pending = s.pending := rfl
@[simp] theorem setQueue_free (s : State) (key : Nat) (q : List Nat) : (setQueue s key q).free = s.free := rfl
@[simp] theorem setQueue_now (s : State) (key : Nat) (q : List Nat) : (setQueue s key q).now = s.now := rfl
@[simp] theorem setQueue_regs (s : State) (key : Nat) (q : List Nat) : (setQueue s key q).regs = s.regs := rfl
@[simp] theorem setQueue_mem (s : State) (key : Nat) (q : List Nat) : (setQueue s key q).mem = s.mem := rfl
@[simp] theorem setQueue_poison (s : State) (key : Nat) (q : List Nat) : (setQueue s key q).poison = s.poison := rfl
@[simp] theorem setQueue_cores (s : State) (key : Nat) (q : List Nat) : (setQueue s key q).cores = s.cores := rfl
@[simp] theorem setQueue_cells (s : State) (key : Nat) (q : List Nat) : (setQueue s key q).cells = s.cells := rfl
@[simp] theorem setQueue_comp (s : State) (key : Nat) (q : List Nat) : (setQueue s key q).comp = s.comp := rfl
@[simp] theorem setQueue_fab (s : State) (key : Nat) (q : List Nat) : (setQueue s key q).fab = s.fab := rfl
@[simp] theorem setQueue_flt (s : State) (key : Nat) (q : List Nat) : (setQueue s key q).flt = s.flt := rfl
@[simp] theorem setQueue_cache (s : State) (key : Nat) (q : List Nat) : (setQueue s key q).cache = s.cache := rfl
@[simp] theorem setQueue_iommu (s : State) (key : Nat) (q : List Nat) : (setQueue s key q).iommu = s.iommu := rfl
@[simp] theorem setQueue_time (s : State) (key : Nat) (q : List Nat) : (setQueue s key q).time = s.time := rfl
@[simp] theorem setQueue_net (s : State) (key : Nat) (q : List Nat) : (setQueue s key q).net = s.net := rfl
@[simp] theorem setQueue_hbm (s : State) (key : Nat) (q : List Nat) : (setQueue s key q).hbm = s.hbm := rfl
@[simp] theorem setQueue_pwr (s : State) (key : Nat) (q : List Nat) : (setQueue s key q).pwr = s.pwr := rfl
@[simp] theorem setQueue_boot (s : State) (key : Nat) (q : List Nat) : (setQueue s key q).boot = s.boot := rfl
@[simp] theorem setQueue_dbg (s : State) (key : Nat) (q : List Nat) : (setQueue s key q).dbg = s.dbg := rfl
@[simp] theorem setQueue_peri (s : State) (key : Nat) (q : List Nat) : (setQueue s key q).peri = s.peri := rfl
@[simp] theorem setQueue_sched (s : State) (key : Nat) (q : List Nat) : (setQueue s key q).sched = { s.sched with ready := put key q s.sched.ready } := rfl

@[simp] theorem drawFree_pending (s : State) : (drawFree s).2.pending = s.pending := rfl
@[simp] theorem drawFree_now (s : State) : (drawFree s).2.now = s.now := rfl
@[simp] theorem drawFree_regs (s : State) : (drawFree s).2.regs = s.regs := rfl
@[simp] theorem drawFree_mem (s : State) : (drawFree s).2.mem = s.mem := rfl
@[simp] theorem drawFree_poison (s : State) : (drawFree s).2.poison = s.poison := rfl
@[simp] theorem drawFree_cores (s : State) : (drawFree s).2.cores = s.cores := rfl
@[simp] theorem drawFree_sched (s : State) : (drawFree s).2.sched = s.sched := rfl
@[simp] theorem drawFree_cells (s : State) : (drawFree s).2.cells = s.cells := rfl
@[simp] theorem drawFree_comp (s : State) : (drawFree s).2.comp = s.comp := rfl
@[simp] theorem drawFree_fab (s : State) : (drawFree s).2.fab = s.fab := rfl
@[simp] theorem drawFree_flt (s : State) : (drawFree s).2.flt = s.flt := rfl
@[simp] theorem drawFree_cache (s : State) : (drawFree s).2.cache = s.cache := rfl
@[simp] theorem drawFree_iommu (s : State) : (drawFree s).2.iommu = s.iommu := rfl
@[simp] theorem drawFree_time (s : State) : (drawFree s).2.time = s.time := rfl
@[simp] theorem drawFree_net (s : State) : (drawFree s).2.net = s.net := rfl
@[simp] theorem drawFree_hbm (s : State) : (drawFree s).2.hbm = s.hbm := rfl
@[simp] theorem drawFree_pwr (s : State) : (drawFree s).2.pwr = s.pwr := rfl
@[simp] theorem drawFree_boot (s : State) : (drawFree s).2.boot = s.boot := rfl
@[simp] theorem drawFree_dbg (s : State) : (drawFree s).2.dbg = s.dbg := rfl
@[simp] theorem drawFree_peri (s : State) : (drawFree s).2.peri = s.peri := rfl

end Sys2Proof.Machine
end

