-- ==== Sys2Proof/Tests/Slice0.lean ====
section
/-! SUPPORT. The model's own tests: a term that each well-formedness check refuses; one step of commands on small states,
with results taken from the spec; and, for every statement with hypotheses, states and operands that meet them. -/
namespace Sys2Proof.Tests
open Sys2Proof.Machine
set_option Elab.async false

/-! ### Small states -/

/-- An access of a cluster core at a level; one of a Mladette pair. -/
def by' (l : BitVec 2) : Access := { init := 0, level := l, cell := none, peek := false }
def mld : Access := { init := 0x318, level := 0, cell := none, peek := false }
/-- A running core between two words, at a level. -/
def runCore (l : BitVec 2) : Core := { mode := .run, pc := 0x1000, fetchPc := 0x1000, level := l }
/-- The device with one such core: A-core 0, or S-core 0 of pair 0 with its memory-protection unit off. -/
def base : State := { cores := [(0, runCore 3)] }
def baseS : State := { cores := [(128, runCore 3)] }
/-- A core changed. -/
def with' (s : State) (c : Nat) (f : Core → Core) : State := setCore s c (f (getCore s c))
/-- A slot that moves an immediate. -/
def imm (v : Word) : Slot := { src := .imm v }
/-- The next state of a command. -/
def after (o : Host.Outcome State Fault Refusal) : State := match o with | .next t => t | _ => {}

/-! ### Slots that are performed -/

/-- The decidable part of `Straight`. -/
def straightB (k : Core) : Bool :=
  k.mode = .run ∧ k.exc = none ∧ k.pre = none ∧ k.ctx.flights = [] ∧ k.ctx.traps = [] ∧ k.ctx.poison = [] ∧ k.ctx.pendGroups = 0 ∧
    k.ctx.rep = false ∧ k.spec = [] ∧ k.stepOne = false ∧ k.dq = []
theorem straight_of {k : Core} (h : straightB k = true) : Straight k := by
  simp only [straightB, decide_eq_true_eq] at h
  obtain ⟨h1, h2, h3, h4, h5, h6, h7, h8, h9, h10, h11⟩ := h
  exact ⟨h1, h2, h3, h4, h5, h6, h7, h8, h9, h10, .inl h11⟩
def legalB (c : Nat) (k : Core) (m : Slot) (d : Nat) : Bool :=
  match m.src with
  | .imm _ => decide (portReason (isS c) true 0 d m.ext.toNat = none ∧ portPriv k.level.toNat true 0 d = none)
  | .port a => decide (portReason (isS c) false a.toNat d m.ext.toNat = none ∧ portPriv k.level.toNat false a.toNat d = none)
theorem legal_of {c : Nat} {k : Core} {m : Slot} {d : Nat} (h : legalB c k m d = true) : SlotLegal c k m d := by
  unfold legalB at h; unfold SlotLegal
  cases hm : m.src <;> simp only [hm, decide_eq_true_eq] at h ⊢ <;> exact h
/-- The decidable part of `Ready`, for an immediate. -/
def readyB (s : State) (c : CoreId) (m : Slot) (d : Nat) : Bool :=
  straightB (getCore s c.val) && !s.flt.safe && legalB c.val (getCore s c.val) m d && guardTrue (getCore s c.val).ctx m.guard &&
    (match m.src with | .imm _ => true | .port a => decide (a.toNat ≠ 371 ∧ ¬ (353 ≤ a.toNat ∧ a.toNat ≤ 356)))
theorem ready_of {s : State} {c : CoreId} {m : Slot} {d : Nat} (h : readyB s c m d = true) : Ready s c m d := by
  simp only [readyB, Bool.and_eq_true, Bool.not_eq_true'] at h
  obtain ⟨⟨⟨⟨h1, h2⟩, h3⟩, h4⟩, h5⟩ := h
  refine ⟨straight_of h1, h2, legal_of h3, h4, ?_⟩
  cases hm : m.src <;> simp only [hm, decide_eq_true_eq] at h5 ⊢ <;> exact h5
theorem ends_of {s : State} {c : CoreId} {m : Slot} {d : Nat} (h : readyB s c m d = true) (p : m.pos ≠ .first) : Ends s c m d :=
  ⟨ready_of h, p⟩

/-! ### Witnesses: slots of a core -/

/-- Every arithmetic row meets its hypotheses: ALU, BFU, MUL, DIV, FPU and VEC ports, with the word left open and ended. -/
theorem witness_AluTriggersComputeTheirResults : ∀ p : Fin 21, ∀ u : AluId,
    Ready base 0 (imm 5) (120 + p.val + 32 * u.val) ∧ Ready base 0 { imm 5 with pos := .first } (120 + p.val + 32 * u.val) := by
  intro p u; exact ⟨ready_of (by revert p u; decide), ready_of (by revert p u; decide)⟩
theorem witness_BitFieldMultiplyAndDivideTriggers : ∀ d ∈ [180, 181, 182, 183, 184, 185, 186, 200, 201, 202, 216, 217], Ready base 0 (imm 0) d := by
  intro d h; exact ready_of (by revert d; decide)
theorem witness_FpuTriggersComputeQAndFlags : ∀ d ∈ [280, 281, 282, 283, 284, 285, 286, 287, 288, 289, 290], Ready base 0 { imm 5 with ext := 1 } d := by
  intro d h; exact ready_of (by revert d; decide)

/-- A core whose FPU.O holds a NaN. -/
def nanCore : State := with' base 0 (fun k => { k with ctx := { k.ctx with ports := [(272, 0x7FF0000000000001)] } })
theorem witness_FpuNanAndConversionCorners :
    (∀ d ∈ [280, 281, 282, 283, 284], Ready nanCore 0 (imm 0x7FFFFFFFFFFFFFFF) d) ∧ (operand nanCore 0 272).extractLsb' 52 11 = 0x7FF ∧
    (operand nanCore 0 272).extractLsb' 0 52 ≠ 0 ∧ Ready base 0 (imm 0x7FF0000000000001) 285 ∧
    Ready base 0 (imm 0x7FF0000000000001) 288 ∧ Ready base 0 (imm 0x7FF0000000000000) 288 ∧ Ready base 0 (imm 0xFFF0000000000000) 288 ∧
    moved64 base 0 (imm 0xFFF0000000000000) = 0xFFF0000000000000 := by
  refine ⟨fun d h => ready_of (by revert d; decide), by decide, by decide, ready_of (by decide), ready_of (by decide), ready_of (by decide), ready_of (by decide), by decide⟩
theorem witness_FpuComparesAndCsrWrites : (∀ d ∈ [292, 293, 294, 295], Ready base 0 { imm 5 with ext := 0xE } d) ∧
    (Ready base 0 (imm 4) 275 ∧ ((moved64 base 0 (imm 4)).extractLsb' 0 3).toNat ≤ 4) ∧
    Ready base 0 (imm 5) 275 ∧ 4 < ((moved64 base 0 (imm 5)).extractLsb' 0 3).toNat ∧ (imm 5).pos ≠ .first := by
  refine ⟨fun d h => ready_of (by revert d; decide), ⟨ready_of (by decide), by decide⟩, ready_of (by decide), by decide, by decide⟩
theorem witness_VectorLanesAreIndependent : ∀ d ∈ [312, 313, 314, 315, 318, 319], ∀ e : Fin 6, Ready base 0 { imm 5 with ext := BitVec.ofNat 5 e.val } d := by
  intro d h e; exact ready_of (by revert d e; decide)
theorem witness_VectorWholeValueTriggers : ∀ d ∈ [316, 317, 320, 321, 322, 323, 324], Ready base 0 (imm 5) d := by
  intro d h; exact ready_of (by revert d; decide)

/-- A slot whose guard is p1, false at reset. -/
theorem witness_FalseGuardsHaveNoEffect : slotRow (.tAdd 0 0 { imm 5 with guard := 1 }) = some (0, { imm 5 with guard := 1 }, 120) ∧
    Straight (getCore base 0) ∧ base.flt.safe = false ∧ SlotLegal 0 (getCore base 0) { imm 5 with guard := 1 } 120 ∧
    guardTrue (getCore base 0).ctx 1 = false :=
  ⟨rfl, straight_of (by decide), rfl, legal_of (by decide), by decide⟩
theorem witness_IllegalAndPrivilegedSlotsRaise : Straight (getCore base 0) ∧ (getCore base 0).rdTxn = none ∧
    slotRow (.move 0 (imm 5) 110) = some (0, imm 5, 110) ∧ (portReason false true 0 110 0).isSome = true ∧
    slotRow (.tReturn 0 (imm 5)) = some (0, imm 5, 390) ∧ portReason false true 0 390 0 = none ∧ (portPriv 0 true 0 390).isSome = true ∧
    Straight (runCore 0) :=
  ⟨straight_of (by decide), rfl, rfl, by decide, rfl, by decide, by decide, straight_of (by decide)⟩
theorem witness_StoppedCoresIgnoreSlots : slotRow (.tAdd 0 0 (imm 5)) = some (0, imm 5, 120) ∧ (getCore {} 0).mode ≠ .run ∧
    (getCore (with' base 0 (fun k => { k with exc := some { cls := 1, base := 0, pc := 0 } })) 0).exc ≠ none := ⟨rfl, by decide, by decide⟩
theorem witness_MovesWriteTheirDestination : (∀ d ∈ [0, 63, 64, 95, 96, 97, 103, 112, 224, 225, 304, 305, 336, 337, 368],
    isTrigger d = false ∧ Ready base 0 (imm 5) d) ∧ Ready base 0 (imm 5) 336 := by
  refine ⟨fun d h => ⟨by revert d; decide, ready_of (by revert d; decide)⟩, ready_of (by decide)⟩
theorem witness_FirstSlotsLatchTheirOperation : 
    (∀ d ∈ [232, 233, 234, 235, 264, 265, 266, 267, 268, 269, 340, 341, 342, 343, 344, 345, 360, 361, 362, 363, 364, 365, 448, 511, 384, 385, 386, 387,
      388, 389, 390, 391, 392, 393, 394, 395, 396, 397], Ready base 0 { imm 8 with pos := .first } d) ∧
    (∀ d ∈ [236, 237, 238, 239, 240, 325], Ready base 0 { imm 8 with pos := .first, ext := 3 } d) ∧
    (∀ d ∈ [346, 347], Ready baseS 128 { imm 8 with pos := .first } d) := by
  refine ⟨fun d h => ready_of (by revert d; decide), fun d h => ready_of (by revert d; decide), fun d h => ready_of (by revert d; decide)⟩

/-! ### Witnesses: words with an effect at their end -/

theorem witness_BranchesGoToTheirTarget : (∀ d ∈ [264, 265, 266, 267, 268, 269], EndsEmpty base 0 (imm 16) d ∧ EndsEmpty base 0 (imm 4) d) ∧
    (0x1000 + moved64 base 0 (imm 16)).toNat % 8 = 0 ∧ (moved64 base 0 (imm 16)).toNat % 8 = 0 ∧
    (0x1000 + moved64 base 0 (imm 4)).toNat % 8 ≠ 0 ∧ (moved64 base 0 (imm 4)).toNat % 8 ≠ 0 ∧ (getCore base 0).rdTxn = none := by
  refine ⟨fun d h => ⟨⟨ends_of (by revert d; decide) (by decide), rfl⟩, ⟨ends_of (by revert d; decide) (by decide), rfl⟩⟩, by decide, by decide, by decide, by decide, rfl⟩

/-- A core with a loop count. -/
def counting (n : BitVec 13) : State := with' base 0 (fun k => { k with ctx := { k.ctx with rc := n } })
theorem witness_RepeatAndLoopCountDown : EndsEmpty base 0 (imm 0) 340 ∧ EndsEmpty (counting 2) 0 (imm 16) 341 ∧ EndsEmpty (counting 2) 0 (imm 4) 341 ∧
    Ends (counting 1) 0 (imm 16) 341 ∧ (getCore (counting 2) 0).ctx.rc.toNat = 2 ∧ (getCore (counting 1) 0).ctx.rc.toNat = 1 ∧
    (0x1000 + moved64 (counting 2) 0 (imm 4)).toNat % 8 ≠ 0 :=
  ⟨⟨ends_of (by decide) (by decide), rfl⟩, ⟨ends_of (by decide) (by decide), rfl⟩, ⟨ends_of (by decide) (by decide), rfl⟩, ends_of (by decide) (by decide),
    by decide, by decide, by decide⟩

/-- A core with an address in LSU.O, data in LSU.P, and the line 0x2000 in L1, writable. -/
def storing (o : Nat) : State := with' base 0 (fun k => { k with ctx := { k.ctx with ports := [(224, BitVec.ofNat 256 o), (225, 7)] }, l1d := [{ line := 0x80, excl := true }] })
theorem witness_StoresEnterTheStoreBuffer :
    (∀ d ∈ [233, 235], Ends (storing 0x2000) 0 { imm 0 with ext := 3 } d ∧ Ends (storing 0x2006) 0 { imm 0 with ext := 3 } d) ∧
    (∃ ps, checkAcc (lsuEnd (storing 0x2000) 0 { imm 0 with ext := 3 } .st) 0 (lsuAt (storing 0x2000) 0 { imm 0 with ext := 3 } .st) false 0 = .ok ps) ∧
    checkAcc (lsuEnd (storing 0x2000) 0 { imm 0 with ext := 3 } .st) 0 (lsuAt (storing 0x2000) 0 { imm 0 with ext := 3 } .st) true 0 = .ok [(0x2000, 8, 0x2000, 2)] ∧
    checkAcc (lsuEnd (storing 0x2006) 0 { imm 0 with ext := 3 } .stpi) 0 (lsuAt (storing 0x2006) 0 { imm 0 with ext := 3 } .stpi) true 0
      = .ok [(0x2006, 2, 0x2006, 2), (0x2008, 6, 0x2008, 2)] := by
  refine ⟨fun d h => ⟨ends_of (by revert d; decide) (by decide), ends_of (by revert d; decide) (by decide)⟩, ⟨_, rfl⟩, rfl, rfl⟩

theorem witness_LoadsTakeTheBytesOfTheirLine :
    (∀ d ∈ [232, 234], Ends (storing 0x2000) 0 { imm 0 with ext := 6 } d) ∧ Ends (storing 0x2000) 0 { imm 0 with ext := 3 } 236 ∧
    checkAcc (lsuEnd (storing 0x2000) 0 { imm 0 with ext := 3 } .lr) 0 (lsuAt (storing 0x2000) 0 { imm 0 with ext := 3 } .lr) false 0 = .ok [(0x2000, 8, 0x2000, 2)] ∧
    2 ≤ effType 0 0x2000 2 ∧ hasLine (getCore (storing 0x2000) 0) 0x80 = true ∧ (getCore (storing 0x2000) 0).rdParts = [] := by
  refine ⟨fun d h => ends_of (by revert d; decide) (by decide), ends_of (by decide) (by decide), rfl, by decide, by decide, rfl⟩

/-- The same core with the reservation of its line. -/
def reserved : State := with' (storing 0x2000) 0 (fun k => { k with resv := some { line := 0x80, size := 8, scratch := false } })
theorem witness_AtomicsReplaceTheOldValue :
    (∀ d ∈ [237, 238, 239, 240], Ends (storing 0x2000) 0 { imm 5 with ext := 3 } d) ∧
    checkAcc (lsuEnd (storing 0x2000) 0 { imm 5 with ext := 3 } .swap) 0 (lsuAt (storing 0x2000) 0 { imm 5 with ext := 3 } .swap) false 0 = .ok [(0x2000, 8, 0x2000, 2)] ∧
    lookup (lsuEnd (storing 0x2000) 0 { imm 5 with ext := 3 } .swap) 0 3 0x2000 .rmw true = .ok 0x2000 2 ∧ hasExcl (getCore (storing 0x2000) 0) 0x80 = true ∧
    refusedAt (storing 0x2000) 0x2000 8 = none ∧ fencedStores (getCore (storing 0x2000) 0) = false ∧ (getCore (storing 0x2000) 0).sbuf = [] ∧ resvHolds (getCore (storing 0x2000) 0) 0x2000 8 = false ∧ resvHolds (getCore reserved 0) 0x2000 8 = true ∧
    lookup (lsuEnd reserved 0 { imm 0 with ext := 3 } .sc) 0 3 0x2000 .store true = .ok 0x2000 2 := by
  refine ⟨fun d h => ends_of (by revert d; decide) (by decide), rfl, rfl, by decide, by decide, by decide, rfl, by decide, by decide, rfl⟩

/-- An S-core owns the contexts of its CHK unit; here with one that compares. -/
def checking (v e : Word) : State := with' baseS 128 (fun k => { k with chk := [(0, { width := 32, val := v, exp := e, par := parityOf e })] })
theorem witness_ChkWordsChangeTheirContext : (∀ d ∈ [353, 354, 360, 361, 362, 364, 365], Ends baseS 128 (imm 5) d) ∧ ownsChk 128 (getCore baseS 128) {} = true ∧
    (∀ e ∈ (getCore (checking 1 1) 128).chk, e.2.feeding = []) ∧ parityOf 1 = (getChk (getCore (checking 1 1) 128) 0).par ∧
    chkFinal (getChk (getCore (checking 1 1) 128) 0) = 1 % 2 ^ 32 ∧ chkFinal (getChk (getCore (checking 2 1) 128) 0) ≠ 1 % 2 ^ 32 ∧
    (getChk (getCore (checking 2 1) 128) 0).trap = false := by
  refine ⟨fun d h => ends_of (by revert d; decide) (by decide), by decide, by decide, by decide, by decide, by decide, by decide⟩
/-- A running cell owns a context of an A-core. -/
def feeding : State := with' base 0 (fun k => { k with level := 0, cell := some 1, chk := [(0, { owner := some 1 })] })
theorem witness_ChkWordsChangeTheirContext_init : Ends feeding 0 (imm 0) 363 ∧ ownsChk 0 (getCore feeding 0) (getChk (getCore feeding 0) 0) = true ∧ isS 0 = false :=
  ⟨ends_of (by decide) (by decide), by decide, by decide⟩

/-- A core that runs a task with an open job. -/
def working : State := { with' base 0 (fun k => { k with task := some 7, cell := some 1 }) with sched := { tcbs := [(7, { job := some 3, cell := 1 })] } }
/-- A core of a cell under trace. -/
def traced : State := { with' base 0 (fun k => { k with cell := some 1 }) with
  regs := [(0xF8000070088, 1)], dbg := { auth := .opened, level := 3, stmMask := [(0, 1)] } }
theorem witness_FencesAndHintsEndTheirWord : (∀ d ∈ [384, 385, 386, 387, 395, 397, 448, 511], Ends base 0 (imm 5) d) ∧ (getCore base 0).blocked = [] ∧
    (getCore base 0).sbuf = [] ∧ deviceOut base 0 (coreCell (getCore base 0)) = false ∧ (getCore base 0).hold = none ∧
    (Ends working 0 (imm 0) 395 ∧ (getCore working 0).task = some 7 ∧ (getTcb working 7).job = some 3) ∧
    bit (stored base .dbgTrcCtrl 0xF8000070088) 0 = false ∧
    (Ends traced 0 (imm 0) 448 ∧ bit (stored traced .dbgTrcCtrl 0xF8000070088) 0 = true ∧ bit (look 0 0 traced.dbg.stmMask) 0 = true ∧ traced.dbg.auth = .opened ∧ traced.dbg.level = 3 ∧
      (getCore traced 0).cell ≠ none ∧ (getCore traced 0).stim.length < 16) ∧
    (∀ x, (getCore traced 0).cell = some x → breakHalt traced x = false) := by
  refine ⟨fun d h => ends_of (by revert d; decide) (by decide), rfl, rfl, by decide, rfl, ⟨ends_of (by decide) (by decide), rfl, by decide⟩, by decide,
    ⟨ends_of (by decide) (by decide), by decide, by decide, rfl, rfl, by decide, by decide⟩, ?_⟩
  intro x h; cases h; decide

/-- A core with a system register's number in SYS.O. -/
def selecting (n : Nat) : State := with' base 0 (fun k => { k with ctx := { k.ctx with ports := [(368, BitVec.ofNat 256 n)] } })
theorem witness_SystemRegisterWords : (∀ d ∈ [388, 389], Ends base 0 (imm 0x011) d) ∧
    srOk 0 3 (moved64 base 0 (imm 0x011)) = true ∧ srOk 0 3 (moved64 base 0 (imm 0x7FF)) = false ∧ (getCore base 0).rdTxn = none ∧
    (∀ n ∈ [0x011, 0x012, 0x013, 0x020, 0x030, 0x025], Ends (selecting n) 0 (imm 5) 389 ∧ srOk 0 3 (operand (selecting n) 0 368) = true ∧
      operand (selecting n) 0 368 = BitVec.ofNat 64 n) ∧ srOk 0 3 0x024 = true ∧ srOk 0 3 (operand (selecting 0x7FF) 0 368) = false ∧
    SlotLegal 0 (getCore base 0) { imm 0 with src := .port 371 } 5 := by
  refine ⟨fun d h => ends_of (by revert d; decide) (by decide), by decide, by decide, rfl, fun n h => ⟨ends_of (by revert n; decide) (by decide), by revert n; decide, by revert n; decide⟩,
    by decide, by decide, legal_of (by decide)⟩

/-- A hypervisor core that selects cell 1 in a state. -/
def overCell (st : CellState) : State := { with' base 0 (fun k => { k with level := 2, cellSel := 1 }) with cells := [(1, { state := st })] }
theorem witness_TranslationAndCellRegisterWords : Ends (overCell .active) 0 (imm 0) 389 ∧ isS 0 = false ∧ (getCore (overCell .active) 0).sbuf = [] ∧
    (getCore (overCell .active) 0).invWait = false ∧ s2Locked (overCell .active) 1 = false ∧
    (cellState (overCell .faulted) 1 = .faulted ∧ kPending (overCell .faulted) 1 = false ∧ cellBlocked (overCell .faulted) 1 = false ∧ cellBelowFloor (overCell .faulted) 1 = false) ∧
    cellState (overCell .active) 1 = .active ∧ ((overCell .active).comp.isSealed && isSafety (overCell .active).comp.live 1) = false ∧
    (match probe (overCell .active) 0 2 0x2000 .load with | .ok _ => true | _ => false) = true :=
  ⟨ends_of (by decide) (by decide), by decide, rfl, rfl, by decide, ⟨by decide, by decide, by decide, by decide⟩, by decide, by decide, by decide⟩

/-! ### Witnesses: the flow of a core, contexts, descriptors -/

/-- A core whose save set of level 3 is valid, and returns to a level and an address. -/
def entered (pc status : Word) : State := with' base 0 (fun k => { k with sr3 := { pc := pc, status := status, valid := true } })
/-- A core that runs a task with a pending event. -/
def signalled : State := { with' base 0 (fun k => { k with task := some 7 }) with sched := { tcbs := [(7, { state := .running, pending := 1 })] } }
theorem witness_ReturnsGatesAndWaits : Ends (entered 0x2000 0) 0 (imm 0) 390 ∧ (saveSet (getCore (entered 0x2000 0) 0) 3).valid = true ∧
    fld (saveSet (getCore (entered 0x2000 0) 0) 3).status 1 0 ≤ 3 ∧ (saveSet (getCore (entered 0x2000 0) 0) 3).pc.toNat % 8 = 0 ∧
    (Ends (entered 0x2000 3) 0 (imm 0) 390 ∧ 1 < fld (saveSet (getCore (entered 0x2000 3) 0) 3).status 1 0 ∧ fld (saveSet (getCore (entered 0x2000 3) 0) 3).status 1 0 ≤ 3) ∧
    (isS 0 = false ∧ (getCore (entered 0x2000 0) 0).task = none ∧ (getCore (entered 0x2000 0) 0).preempt = none ∧ (entered 0x2000 0).sched.ready = []) ∧
    (Ends base 0 (imm 0) 390 ∧ (saveSet (getCore base 0) 3).valid = false) ∧ (saveSet (getCore (entered 0x2004 0) 0) 3).pc.toNat % 8 ≠ 0 ∧
    (∀ i : Fin 3, Ends base 0 (imm 0x3F) (391 + i.val) ∧ Ends base 0 (imm 0x40) (391 + i.val)) ∧
    Ends signalled 0 (imm 0) 396 ∧ (getCore signalled 0).task = some 7 ∧ (getTcb signalled 7).state = .running ∧ (getCore signalled 0).discard = false ∧ 0 < (getTcb signalled 7).pending := by
  refine ⟨ends_of (by decide) (by decide), rfl, by decide, by decide, ⟨ends_of (by decide) (by decide), by decide, by decide⟩, ⟨by decide, rfl, rfl, rfl⟩, ⟨ends_of (by decide) (by decide), rfl⟩, by decide,
    fun i => ⟨ends_of (by revert i; decide) (by decide), ends_of (by revert i; decide) (by decide)⟩, ends_of (by decide) (by decide), rfl, by decide, rfl, by decide⟩

/-- Cell 1 with a pool of two nodes of each half at 0x10000, INFO of its first lower and upper node written; a core that
runs it with a number in CTX.O. -/
def pooled (n : Nat) : State :=
  { with' base 0 (fun k => { k with cell := some 1, task := some 7, ctx := { k.ctx with ports := [(337, BitVec.ofNat 256 n)] } }) with
    comp := { live := [{ typ := tPOOL, off := 0, data := [1, 0, 2, 0, 2, 0, 0, 0, 0, 0, 1, 0, 0, 0, 0, 0] }] }
    sched := { tcbs := [(7, { cell := 1 })] }
    mem := [(0x10008, 1), (0x1000A, 7), (0x10408, 1), (0x1040A, 7), (0x1040E, 1)] }
theorem witness_LongWordsWaitForTheirUnit :
    (∀ d ∈ [342, 343, 344, 345], Ends (pooled 1) 0 (imm 0) d) ∧ (∀ d ∈ [346, 347], Ends baseS 128 (imm 3) d) ∧ Ends base 0 (imm 3) 394 ∧
    (∀ hi, ctxSaveExc (pooled 1) 0 hi 1 false false = none ∧ ctxSaveExc (pooled 0) 0 hi 0 false false = none ∧ ctxLoadExc (pooled 1) 0 hi false 1 false false = none) ∧
    operand (pooled 1) 0 337 = 1 ∧ (operand baseS 128 337).toNat % 8 = 0 ∧ moved64 base 0 (imm 3) = 3 ∧ (getCore base 0).rdTxn = none ∧
    (∀ hi, poolHead base 0 hi = none) ∧ (∀ hi, poolCount (pooled 3).comp.live 1 hi < 3) ∧
    (operand (with' baseS 128 (fun k => { k with ctx := { k.ctx with ports := [(337, 4)] } })) 128 337).toNat % 8 ≠ 0 ∧ Ends base 0 (imm 4) 394 := by
  refine ⟨fun d h => ends_of (by revert d; decide) (by decide), fun d h => ends_of (by revert d; decide) (by decide), ends_of (by decide) (by decide),
    by decide, by decide, by decide, by decide, rfl, by decide, by decide, by decide, ends_of (by decide) (by decide)⟩

theorem witness_UnitResultsCompleteWaitingWords : Straight (getCore (pooled 1) 0) ∧ (pooled 1).flt.safe = false ∧ (imm 0).pos ≠ .first ∧ (getCore (pooled 1) 0).hold = none ∧ isS 0 = false ∧ (pooled 1).cache.badTags = [] ∧ (pooled 1).cache.badL2Tags = [] ∧
    (∀ hi, ∃ a, ctxNode (pooled 1) (getCore (pooled 1) 0) hi (ctxNum 1) = some a ∧ (∀ l ∈ savedLines (pooled 1) 0 hi a, refusedAt (pooled 1) l.1 l.2.length = none) ∧
      a ≠ 0 ∧ ctxLoadExc (pooled 1) 0 hi false 1 false false = none ∧ ctxLoadWaits (pooled 1) 0 hi 1 = false) ∧
    loadEager (pooled 1) (getCore (pooled 1) 0) false = false ∧ multiLeft 3 0 = [0, 1] ∧
    (checkAcc (waitingOn baseS 128 (imm 3) (.multi false 0xF0040100000 3)) 128 (multiAcc (runCore 3) false 0xF0040100000 3 0 false false) true 0
      = .ok [(0xF0040100000, 8, 0xF0040100000, 2)]) ∧
    (∃ ps, checkAcc (waitingOn baseS 128 (imm 3) (.multi false 0xF0040100000 3)) 128 (multiAcc (runCore 3) false 0xF0040100000 3 0 false false) false 0 = .ok ps) ∧
    (runCore 3).sbuf.length < sbSize 128 ∧ (runCore 3).blocked = [] ∧ multiLeft 3 0 = 0 :: [1] ∧
    1 ≤ (1 : Word).toNat ∧ (3 : Word).toNat ≤ (getCore base 0).level.toNat := by
  refine ⟨straight_of (by decide), rfl, by decide, rfl, by decide, rfl, rfl, ?_, by decide, by decide, rfl, ⟨_, rfl⟩, by decide, rfl, by decide, by decide, by decide⟩
  intro hi; cases hi
  · exact ⟨0x10000, by decide, by decide, by decide, by decide, by decide⟩
  · exact ⟨0x10400, by decide, by decide, by decide, by decide, by decide⟩

/-- A valid descriptor 0 in memory, which no table may hold. -/
def badTable : State := { base with mem := [(0x10, 4)] }
theorem witness_SealChecksEveryDescriptor : probe base 0 3 0 .load = .ok (0, 2) ∧ probe base 0 3 4096 .load = .ok (4096, 2) ∧
    (∀ i, i < 256 → descFails base 0 3 i ((if i < 128 then 0 else 4096) + 32 * (i % 128)) = none) ∧ descFails badTable 0 3 0 0 = some 3 ∧
    ((List.range 256).filter (fun i => (descAt base ((if i < 128 then 0 else 4096) + 32 * (i % 128))).isSome)).length ≤
      8192 - storeUsed base 0 + ((tableOf base 0 3).map List.length).getD 0 ∧
    (dtbOf (getCore base 0) 3).toNat % 8192 = 0 ∧
    (dtbOf (getCore (with' base 0 (fun k => { k with dtb3 := 0x1000 })) 0) 3).toNat % 8192 ≠ 0 := by
  refine ⟨rfl, rfl, ?_, by decide, ?_, by decide, by decide⟩
  · set_option maxRecDepth 10000 in decide
  · set_option maxRecDepth 10000 in decide

/-- A core with a result in flight. -/
def flying (f : Flight) : State := with' base 0 (fun k => { k with ctx := { k.ctx with flights := [f] } })
theorem witness_UnitResultsReachTheirPorts :
    (let k := getCore (flying { unit := 112, q := 5, pred := 7 }) 0; k.mode = .run ∧ k.pre = none ∧ k.ctx.pendGroups = 0 ∧
      k.ctx.flights.find? (fun g => g.unit = 112) = some { unit := 112, q := 5, pred := 7 }) ∧
    (∀ f ∈ (getCore base 0).ctx.flights, f.unit ≠ 112) ∧ Straight (getCore base 0) ∧
    (let f : Flight := { unit := 208, q := 5, long := true }; f.long = true ∧ f.pred = 0 ∧ f.flags = 0 ∧ f.poison = none) :=
  ⟨⟨rfl, rfl, rfl, by decide⟩, by decide, straight_of (by decide), ⟨rfl, rfl, rfl, rfl⟩⟩

/-! ### Witnesses: fetching, entry, tasks, arrivals -/

/-- A core at level 2 above a word at an address; NORMAL_NC pages are scratch. -/
def fetching (l : BitVec 2) (pc : Word) : State := with' base 0 (fun k => { k with pc := pc, fetchPc := pc, level := l })
/-- A core that holds the line of its next word. -/
def held : State := with' base 0 (fun k => { k with l1i := [(0x40, List.replicate 64 0)] })
theorem witness_WordsAreFetchedAndChecked :
    (let k := getCore base 0; k.mode = .run ∧ k.exc = none ∧ k.dq = [] ∧ k.fq = [] ∧ k.pre = none ∧ k.l1i = [] ∧ k.spec = [] ∧ k.group = none ∧ k.fills = []) ∧
    (∃ f, lookup (fetching 2 0x1000000000000) 0 2 0x1000000000000 .fetch false = .fault f) ∧
    lookup base 0 3 0x1000 .fetch false = .ok 0x1000 2 ∧ 2 ≤ effType 0 0x1000 2 ∧ hasL2 base (cluOf 0) 0x40 = false ∧
    (∃ pa mt, lookup baseS 128 3 0xF0040100000 .fetch false = .ok pa mt ∧ pa % 16 ≤ 8 ∧ 2 ≤ effType 128 pa mt) ∧
    (let k := getCore held 0; k.l1i.find? (fun x => x.1 = 0x40) = some (0x40, List.replicate 64 0) ∧ lookup held 0 3 0x1000 .fetch false = .ok 0x1000 2 ∧ poisonedAt held 0x1000 8 = false) ∧
    (∃ pa mt, lookup baseS 128 3 0xF0040000000 .fetch false = .ok pa mt ∧ pa % 16 ≤ 8 ∧ effType 128 pa mt < 2 ∧ regionOf pa = .rom ∧ answers baseS 128 pa = true ∧ poisonedAt baseS pa 8 = false) ∧
    decodeExc false 3 false 0 0 = none ∧ (slotsOf 0).all (fun x => !(branchTrig x.dst) && x.dst ≠ 341 && x.dst ≠ 340 && x.dst ≠ 232) = true ∧
    (∃ e, decodeExc false 3 false 0xFFFFFFFFFFFFFFFF 0 = some e) ∧
    (let k := getCore (with' baseS 128 (fun k => { k with fills := [{ line := 4, fetch := true }] })) 128; k.fills = [{ line := 4, fetch := true, cell := none }] ∧ k.l1i = []) ∧ isS 128 = true ∧ isS 0 = false := by
  refine ⟨⟨rfl, rfl, rfl, rfl, rfl, rfl, rfl, rfl, rfl⟩, ⟨_, rfl⟩, rfl, by decide, by decide, ⟨_, _, rfl, by decide, by decide⟩, ⟨rfl, rfl, by decide⟩,
    ⟨_, _, rfl, by decide, by decide, by decide, by decide, by decide⟩, by decide, by decide, ⟨_, rfl⟩, ⟨rfl, rfl⟩, by decide, by decide⟩

/-- A core at L0 with an exception of base level 2, and descriptors of its class at level 2, or at level 3. -/
def excepted (t2 t3 : Option DescTable) : State :=
  with' base 0 (fun k => { k with level := 0, tab2 := t2, tab3 := t3, exc := some { cls := 9, base := 2, pc := 0x1000 } })
def desc : Desc := { handler := 0x8000, sp := 0x9000, niw := 4 }
/-- A core at L2 with one class held. -/
def interrupted : State := with' base 0 (fun k => { k with level := 2, tab2 := some [(0x18, desc)], irqs := [{ cls := 0x18, base := 2, detail := 5 }] })
theorem witness_ExceptionEntrySavesAndGoesToTheHandler :
    (let k := getCore (excepted (some [(9, desc)]) none) 0; k.mode = .run ∧ k.pre = none ∧ k.exc = some { cls := 9, base := 2, pc := 0x1000 } ∧ k.ctx.flights = [] ∧
      k.ctx.pendGroups = 0 ∧ k.chk = [] ∧ k.stepOne = false ∧ max (baseOn 0 2) k.level.toNat = 2) ∧
    descOf (excepted (some [(9, desc)]) none) 0 2 9 = some desc ∧ (saveSet (getCore base 0) 2).valid = false ∧
    (descOf (excepted none (some [(9, desc)])) 0 2 9 = none ∧ descOf (excepted none (some [(9, desc)])) 0 3 9 = some desc) ∧
    (∀ l, 2 ≤ l → l ≤ 3 → descOf (excepted none none) 0 l 9 = none) ∧
    (let k := getCore interrupted 0; k.mode = .run ∧ k.pre = none ∧ k.exc = none ∧ k.dq = [] ∧ k.window = 0 ∧ domainSteps interrupted 0 = true ∧ heldIrqs interrupted 0 = [{ cls := 0x18, base := 2, detail := 5 }] ∧
      max (baseOn 0 2) k.level.toNat ≤ 2 ∧ descOf interrupted 0 2 0x18 = some desc ∧ (saveSet k 2).valid = false) := by
  refine ⟨⟨rfl, rfl, rfl, rfl, rfl, rfl, rfl, by decide⟩, by decide, rfl, ⟨by decide, by decide⟩, ?_, rfl, rfl, rfl, rfl, rfl, by decide, by decide, by decide, by decide, rfl⟩
  intro l h1 h2
  obtain rfl | rfl : l = 2 ∨ l = 3 := by omega
  · rfl
  · rfl

/-- A free core for which a task never saved is chosen; a core whose task is to leave. -/
def arriving : State := { with' base 0 (fun k => { k with mode := .free, preempt := some (some 7) }) with sched := { tcbs := [(7, { cell := 1, entryVa := 0x4000, fresh := true })] } }
def leaving (w : BitVec 10) : State :=
  { with' (pooled 1) 0 (fun k => { k with level := 0, preempt := some none, window := w }) with sched := { tcbs := [(7, { cell := 1, state := .running })] } }
/-- A task with a group to be restored. -/
def restoring : State := with' (pooled 1) 0 (fun k => { k with nodeLo := 0x10000, nodeHi := 0x10400, ctx := { k.ctx with pendGroups := 0x3F } })
/-- A core asked to stop. -/
def stopping : State := { with' base 0 (fun k => { k with stopReq := true }) with dbg := { coreHalts := [0] } }
theorem witness_TasksComeAndGoOnTheirCore :
    (let k := getCore arriving 0; k.preempt = some (some 7) ∧ k.task = none ∧ k.mode = .free ∧ (getTcb arriving 7).saving = false ∧ (getTcb arriving 7).fresh = true ∧ domainSteps arriving 0 = true ∧ stillOn arriving 7 0 = false) ∧
    (let k := getCore (leaving 0) 0; k.preempt = some none ∧ k.task = some 7 ∧ k.mode = .run ∧ k.exc = none ∧ k.dq = [] ∧ k.rdTxn = none ∧ k.walk = none ∧ k.window = 0 ∧ k.sr1.valid = false ∧ k.pre = none ∧
      k.stopReq = false ∧ k.invWait = false ∧ k.level.toNat ≤ 1 ∧ k.discard = false ∧ domainSteps (leaving 0) 0 = true ∧ heldIrqs (leaving 0) 0 = []) ∧
    (getTcb (leaving 0) 7).state = .running ∧ (getCore (leaving 5) 0).window ≠ 0 ∧ cellState (leaving 5) 1 ≠ .faulted ∧
    (∃ s2, saveTask (updCore (abandonWord (leaving 0) 0) 0 (fun k => finishChk { k with ctx := drainFlights k.ctx })) 0 7 = .ok s2 ∧ s2.sched.ready = [] ∧
      (getTcb s2 7).state = .running ∧ coreOfTask s2 7 = 0 ∧ eligibleCores (putBack s2 0 7) 7 = []) ∧
    (∀ g : Fin 6, (getCore restoring 0).ctx.pendGroups.getLsbD g.val = true ∧ (getCore restoring 0).task = some 7 ∧ (getCore restoring 0).pre = none ∧
      (ctxRead 0 (coreCell (getCore restoring 0)) (groupLines restoring (if g.val < 2 then 0x10000 else 0x10400) [g.val]) restoring).2 = some true) ∧
    ((getTcb { base with sched := { tcbs := [(7, { saving := true })] } } 7).saves = 0 ∧ (getTcb { base with sched := { tcbs := [(7, { saving := true })] } } 7).holdOut = false) ∧ (getTcb { base with sched := { tcbs := [(7, { saves := 1 })] } } 7).saves ≠ 0 ∧
    (let k := getCore stopping 0; k.stopReq = true ∧ k.exc = none ∧ k.rdTxn = none ∧ k.mode = .run ∧ k.ctx.flights = [] ∧ k.pre = none) ∧ 0 ∈ stopping.dbg.coreHalts := by
  refine ⟨⟨rfl, rfl, rfl, by decide, by decide, by decide, by decide⟩, ⟨rfl, rfl, rfl, rfl, rfl, rfl, rfl, rfl, rfl, rfl, rfl, rfl, by decide, rfl, by decide, by decide⟩, by decide, by decide, by decide,
    ⟨_, rfl, rfl, by decide, by decide, by decide⟩, by decide, by decide,
    by decide, ⟨rfl, rfl, rfl, rfl, rfl, rfl⟩, by decide⟩

/-- A store of some memory type alone in the buffer. -/
def draining (mt pa : Nat) : State :=
  with' base 0 (fun k => { k with sbuf := [{ cell := none, level := 3, mt := mt, va := 0, pa := pa, data := [1, 2] }], l1d := [{ line := pa / 64, excl := true }] })
/-- A walk under way for a fetch whose host regime has a table of level 0 and a leaf of level 1. -/
def walking : State := { with' base 0 (fun k => { k with level := 2, htRoot2 := 0x20003, walk := some { va := 0, fetch := true, write := false } }) with
  mem := [(0x20000, 3), (0x20002, 3), (0x30000, 1), (0x30001, 8)] }
theorem witness_ArrivalsCompleteWaitingWords : Straight (getCore (storing 0xF8000040000) 0) ∧ (getCore base 0).rdParts = [] ∧ (imm 0).pos ≠ .first ∧
    checkAcc (waitingIn (storing 0xF8000040000) 0 { imm 0 with ext := 3 } (.lsu .ld 0xF8000040000 0 7 3) .waitLsu id) 0 (lsuAt (storing 0xF8000040000) 0 { imm 0 with ext := 3 } .ld) false 0
      = .ok [(0xF8000040000, 8, 0xF8000040000, 0)] ∧ effType 0 0xF8000040000 0 = 0 ∧
    ((getCore base 0).sbuf = [] ∧ (getCore base 0).blocked = [] ∧ (getCore base 0).walk = none ∧ (getCore base 0).invWait = false) ∧
    (∀ j ∈ listedCores base, (getCore base j).walk = none) ∧ oldDone base = true ∧ 1 ≤ fld (6 : Word) 3 0 ∧ fld (6 : Word) 3 0 ≤ 6 ∧ srOk 0 3 0x028 = true ∧
    (mayDrain (draining 0 0xF8000040000) 0 0 = true ∧ mayDrain (draining 2 0x2000) 0 0 = true ∧ refusedAt (draining 2 0x2000) 0x2000 2 = none ∧ hasExcl (getCore (draining 2 0x2000) 0) 0x80 = true) ∧
    (let k := getCore (with' baseS 128 (fun k => { k with fills := [{ line := 4 }] })) 128; k.fills = [{ line := 4 }] ∧ k.mode = .run ∧ k.l1d = []) ∧
    ((getCore walking 0).walk = some { va := 0, fetch := true, write := false } ∧ (getCore walking 0).dq = [] ∧ (getCore walking 0).fq = [] ∧
      (match walkFor walking 0 2 0 .fetch false false with | (_, .ok t) => t.log2 | _ => 0) = 30) := by
  refine ⟨straight_of (by decide), rfl, by decide, rfl, by decide, ⟨rfl, rfl, rfl, rfl⟩, by decide, by decide, by decide, by decide, by decide, ⟨by decide, by decide, by decide, by decide⟩, ⟨rfl, rfl, rfl⟩, ⟨rfl, rfl, rfl, by decide⟩⟩

/-! ### Witnesses: the scheduler and the fabric -/

/-- A composed record from its type and payload. -/
def rec' (t : Nat) (d : List Byte) : Rec := { typ := t, off := 0, data := d }
/-- A composed device. -/
def composed (rs : List Rec) : State := { base with comp := { engine := .sealed, isSealed := true, live := rs } }
/-- A task of cell 1 on cluster 0 in a state, an event 130 on its way to it, a free core it may use. -/
def eventFor (st : TaskState) : State :=
  { with' base 0 (fun k => { k with mode := .free }) with sched := { evTasks := [{ num := 130, tcb := 7, stamp := 0, dest := 1 }], tcbs := [(7, { state := st, cell := 1, coreMask := 1 })] } }
/-- A major cycle of 1 ms on cluster 0 with fret 5 open for its first half, at an instant. -/
def fretting (t : Word) (was : List Nat) : State :=
  { (composed [rec' tMAJOR [0, 0, 0, 0, 0x10, 0x27, 0, 0, 0, 0, 0, 0], rec' tFRET [0, 0, 5, 0, 0, 0, 0, 0, 0x88, 0x13, 0, 0]]) with
    now := t, cores := [], sched := { clus := [(0, { openFrets := was })] } }
/-- A hypervisor event on its way to a home cluster. -/
def hvEvent (en : Bool) (q : List HvMsg) : State := { base with sched := { evHv := [{ cls := 0x18, detail := 5, home := 0 }], clus := [(0, { hvEnable := en, hvQueue := q })] } }
theorem witness_EventsReachTheirTasks : (∀ st, heldCell (eventFor st) 1 = false ∧ clusterTakes (eventFor st) 0 = true ∧ jobsOn (eventFor st) { num := 130, tcb := 7, stamp := 0, dest := 1 } = [] ∧
      (getTcb (eventFor st) 7).state = st ∧ (getTcb (eventFor st) 7).pending < 255) ∧ idleCore (eventFor .waiting) (eligibleCores (eventFor .waiting) 7) = some 0 ∧
    (getCore (eventFor .waiting) 0).task = none ∧ inHandler (getCore (eventFor .waiting) 0) = false ∧ (∀ n, domainSteps (fretting n [5]) 0 = true) ∧ domainSteps (fretting 0 []) 0 = true ∧
    (5 ∈ openNow (fretting 0 []) 0 ∧ 5 ∉ (getClu (fretting 0 []) 0).openFrets ∧ (∀ j, j < 8 → coreTask (getCore (fretting 0 []) (0 * 8 + j)) = none) ∧ (fretting 0 []).sched.ready = []) ∧
    (5 ∉ openNow (fretting 500000 [5]) 0 ∧ 5 ∈ (getClu (fretting 500000 [5]) 0).openFrets) ∧
    ((getClu (hvEvent true []) 0).hvEnable = true ∧ clusterTakes (hvEvent true []) 0 = true ∧ (getClu (hvEvent true []) 0).hvQueue = []) ∧
    (∃ x ∈ (getClu (hvEvent true [{ cls := 0x18, detail := 5, home := 0 }]) 0).hvQueue, x.cls = 0x18 ∧ x.detail = 5) ∧
    (∀ n, n < 16 → (getClu (hvEvent false []) n).hvEnable = false) := by
  refine ⟨fun st => ⟨rfl, rfl, rfl, rfl, by cases st <;> decide⟩, by decide, rfl, rfl, fun _ => rfl, rfl, ⟨by decide, by decide, by decide, rfl⟩, ⟨by decide, by decide⟩, ⟨rfl, rfl, rfl⟩, by decide, by decide⟩

/-- Cluster 0 with the TCB of a task selected; its cell is a safety cell where the composition says so. -/
def selected (x : Tcb) (st : CellState) (safety : Bool) : State :=
  { (if safety then composed [rec' tCELL [1, 0, 2, 0, 0, 0]] else pooled 1) with cells := [(1, { state := st })], sched := { tcbs := [(7, x)], clus := [(0, { tcbSel := 7 })] } }
theorem witness_TcbCommandsResetAndStart :
    (getTcb (selected { cluster := 1 } .active false) 7).cluster ≠ 0 ∧ (getClu (selected {} .active false) 0).tcbSel.toNat = 7 ∧
    ((selected { cell := 1 } .active true).comp.isSealed = true ∧ isSafety (selected { cell := 1 } .active true).comp.live 1 = true ∧ cellState (selected { cell := 1 } .active true) 1 ≠ .faulted) ∧
    (let s := selected { cell := 1, state := .ready, nodeLo := 0x10000 } .active false
     s.comp.isSealed = false ∧ (getTcb s 7).state ≠ .dormant ∧ (getCore s 0).task = some 7 ∧ (getCore { s with cores := [] } 0).task ≠ some 7 ∧ (∀ j, j < 8 → (getCore { s with cores := [] } j).preempt ≠ some (some 7)) ∧
     nodeNum s 1 false 0x10000 = some 0) ∧
    ((getTcb (selected { cell := 1 } .halted false) 7).state = .dormant ∧ cellState (selected { cell := 1 } .halted false) 1 ≠ .active) ∧
    (cellState (selected { cell := 1 } .active false) 1 = .active ∧ eligibleCores (selected { cell := 1 } .active false) 7 = []) := by
  refine ⟨by decide, by decide, ⟨rfl, by decide, by decide⟩, ⟨rfl, by decide, by decide, by decide, by decide, by decide⟩, ⟨rfl, by decide⟩, ⟨by decide, by decide⟩⟩

/-- A read by core 0; a transaction of it outstanding, answered or late. -/
def request (a : BitVec 44) : Req := { init := 0, level := 3, cell := some 1, stream := 1, tag := 0, peek := false, kind := .read, addr := a, size := 8, data := [], cmp := 0 }
def outstanding (k : TxnKind) (d : Option (BitVec 3 × List Byte)) (late : Bool) : State :=
  { with' base 0 (fun k => { k with rdTxn := some { id := 4 } }) with fab := { txns := [{ id := 4, kind := k, addr := 0x2000, data := [1], dst := 0x10, purpose := .load 0, done := d, late := late }] } }
/-- The device with a Pass for cell 1 from core 0's cluster to site 0. -/
def passing : State := { base with fab := { passes := [{ id := 3, cell := 1, src := 0, dst := 0x10, lanes := 1, hops := 1, route := [0] }] } }
theorem witness_TransactionsAreIssuedPerformedAndAnswered : initEp (request 0x2000).init = 0 ∧ base.fab.waiting = [] ∧ base.fab.changing = false ∧
    endpointOf (request 0xFFFFFFFFFFF).addr.toNat = none ∧ endpointOf (request 0x2000).addr.toNat = some 0x10 ∧ 0x10 ∈ ({ base with fab := { fences := [0x10] } } : State).fab.fences ∧
    passFor base (request 0x2000).init (request 0x2000).cell 0x10 = none ∧ pathBoth base 0 0x10 = true ∧ pathBoth { base with fab := { swmap := [], structLive := true } } 0 0x10 = false ∧
    (request 0x2000).init ≠ dbgInit ∧ (passFor passing (request 0x2000).init (request 0x2000).cell 0x10).isSome = true ∧
    (∃ t, findTxn (outstanding .write none false) 4 = some t ∧ t.kind = .write ∧ t.done = none ∧ earlier (outstanding .write none false) t = [] ∧ cutThere (outstanding .write none false) t = false ∧
      packetThere (outstanding .write none false) t false = true ∧ waitsForPass (outstanding .write none false) t = false ∧ deadLine (outstanding .write none false) (t.addr / 64) = false ∧
      (outstanding .write none false).cache.badTags = [] ∧ (outstanding .write none false).cache.bad = [] ∧
      regionOf t.addr = .hbm ∧ pageLocked (outstanding .write none false) t.addr 1 = false) ∧
    (∃ t, findTxn (outstanding .read (some (stOK, [5])) false) 4 = some t ∧ t.done = some (stOK, [5]) ∧ t.purpose = .load 0 ∧ t.pass = none ∧ earlier (outstanding .read none false) t = [] ∧
      cutBack (outstanding .read (some (stOK, [5])) false) t = false ∧ packetThere (outstanding .read (some (stOK, [5])) false) t true = true) ∧
    (∃ t, findTxn (outstanding .read (some (stOK, [5])) true) 4 = some t ∧ t.late = true) ∧
    (getCore (outstanding .read none false) 0).rdTxn = some { id := 4 } ∧
    (∃ t, findTxn (outstanding .read none false) 4 = some t ∧ ({ base with now := 2000 } : State).now.toNat = t.issued.toNat + t.limit * 500 ∧ t.atPort = false) := by
  refine ⟨rfl, rfl, rfl, by decide, by decide, by decide, rfl, by decide, by decide, by decide, by decide, ⟨_, rfl, rfl, rfl, by decide, by decide, by decide, by decide, by decide, rfl, rfl, by decide, by decide⟩,
    ⟨_, rfl, rfl, rfl, rfl, by decide, by decide, by decide⟩, ⟨_, rfl, rfl⟩, rfl, ⟨_, rfl, by decide, rfl⟩⟩

/-- A block entry of core 0 under a RELEASE. -/
def freeing : State := { base with flt := { blocks := [(3, { valid := true, gen := 1, init := 0, stream := 2, cmd := some true })] } }
/-- A lane that has sent one word of no packet, not yet accepted or accepted. -/
def sentOne (n : Nat) : State := { base with fab := { lanes := [(laneKey 0 1 0, { sent := 1, accepted := n, buf := [{ idx := 0, part := none }] })] } }
set_option maxRecDepth 4000 in
theorem witness_LinksStructureAndBlocks : linkState base 0 7 ≠ 0 ∧ linkState base 0 1 = 0 ∧ injectArmed base 0 1 0 = false ∧ crc8 (natLe 8 (0 : Word).toNat) = (0xE9 : Byte).toNat ∧
    crc8 (natLe 8 (0 : Word).toNat) ≠ (1 : Byte).toNat ∧ (look {} 0 base.fab.lanes : Lane).accepted = 0 ∧ (look {} 0 base.fab.lanes : Lane).fails = 0 ∧ 0 < replayLimit base ∧
    sendWord base 0 1 0 5 none = none ∧ (0 ∈ lanesFor base none 0 1 ∧ base.fab.packets = [] ∧ (getLane base (laneKey 0 1 0)).sent = 0 ∧ (getLane base (laneKey 0 1 0)).buf = []) ∧
    (∀ n ∈ [0, 1], linkState (sentOne n) 0 1 = 0 ∧ injectArmed (sentOne n) 0 1 0 = false ∧ (getLane (sentOne n) (laneKey 0 1 0)).sent = 1 ∧ (getLane (sentOne n) (laneKey 0 1 0)).accepted = n ∧
      (getLane (sentOne n) (laneKey 0 1 0)).buf = [{ idx := 0, part := none }] ∧ (getLane (sentOne n) (laneKey 0 1 0)).fails = 0) ∧
    expertOn { base with regs := [(0xF8000020000, 1)] } 0xF8000020020 = true ∧ expertOn base 0xF8000020020 = false ∧ (stored base .fabErrInject 0xF8000020020).getLsbD 14 = false ∧
    (({ base with fab := { changing := true } } : State).fab.changing = true ∧ base.fab.txns = []) ∧ base.fab.changing = false ∧
    (∃ t ∈ (outstanding .read none false).fab.txns, t.late = false) ∧
    ((getBlock freeing 3).valid = true ∧ (getBlock freeing 3).cmd = some true ∧ (getBlock freeing 3).init = coreInit 0) := by
  refine ⟨by decide, by decide, by decide, by decide, by decide, rfl, rfl, by decide, by decide, ⟨by decide, rfl, rfl, rfl⟩, by decide, by decide, by decide, by decide, ⟨rfl, rfl⟩, rfl, by decide, ⟨by decide, by decide, by decide⟩⟩

/-! ### Witnesses: slices, maintenance, HBM -/

/-- A request of core 0 for eight bytes. -/
def req (k : ReqKind) (a : BitVec 44) (d : List Byte) : Req := { init := 0, level := 3, cell := none, stream := 1, tag := 0, peek := false, kind := k, addr := a, size := 8, data := d, cmp := 0 }
theorem witness_AccessesAtTheSlices : regionOf (req .read 0x2000 []).addr.toNat = .hbm ∧ (0x10 + homeSite 0x2000) ∉ base.fab.fences ∧ base.cache.bad = [] ∧ base.cache.badTags = [] ∧ deadLine base 0x80 = false ∧ deadLine base (0xF0000200000 / 64) = false ∧
    regionOf (req .read 0xF0000200000 []).addr.toNat = .scratch 1 ∧ (0x10 + 1) ∉ base.fab.fences ∧ pageLocked base 0x2000 8 = false ∧
    (req .swap 0x2000 [1, 2, 3, 4, 5, 6, 7, 8]).data.length = (req .swap 0x2000 [1, 2, 3, 4, 5, 6, 7, 8]).size ∧ (req .lr 0x2000 []).init = coreInit 0 ∧
    (0, 0x80) ∉ (getSite base (markSite 0x2000)).marks := by decide

/-- A maintenance command with a mask of slices; the address register and the length register. -/
def maintaining (arg len : Word) (h : Holder) : State := { base with regs := [(0xF8000600010, arg), (0xF8000600018, len)], cache := { sites := [(0, { holder := h })] } }
/-- A cell that is a safety cell and present. -/
def safetyCell : State := { (composed [rec' tCELL [1, 0, 2, 0, 0, 0]]) with cells := [(1, { state := .active })], regs := [(0xF8000600010, 1)] }
/-- An operation of the hypervisor under way at a slice with one dirty line. -/
def cleaning : State := { base with cache := { sites := [(0, { holder := .hyp, mnt := some { op := 1, arg := 0, len := 0x1000 }, lines := [{ line := 3, cls := 0, owner := none, dirty := true }] })] } }
def token (x : Site) : State := { base with cache := { sites := [(0, x)] } }
theorem witness_MaintenanceTakesAndGivesTheTokens :
    (∀ op ∈ [1, 2], mntBad (maintaining 0 0x40 .none) op 1 0 0x40 = false ∧ mntSafety (maintaining 0 0x40 .none) op 0 0x40 = false ∧ mntBad base op 0 0 0x40 = true) ∧
    (∀ op ∈ [3, 4], mntBad safetyCell op 1 1 0 = false ∧ mntSafety safetyCell op 1 0 = true) ∧
    tokensFree (maintaining 0 0x40 .none) 1 = true ∧ tokensFree (maintaining 0 0x40 .power) 1 = false ∧
    ((getSite cleaning 0).holder = .hyp ∧ (getSite cleaning 0).mnt = some { op := 1, arg := 0, len := 0x1000 } ∧ (getSite cleaning 0).op.abortReq = false ∧ domainSteps cleaning 16 = true ∧ (∀ k ∈ (getSite cleaning 0).lines, wbFails cleaning k.line = false) ∧
      (getSite cleaning 0).lines.all (mntMatches cleaning { op := 1, arg := 0, len := 0x1000 }) = true) ∧
    (getSite (token { holder := .power }) 0).holder ≠ .none ∧ ((getSite (token { qCommit := true }) 0).holder = .none ∧ (getSite (token { qCommit := true }) 0).qCommit = true) ∧
    ((getSite (token { qPower := true }) 0).qCommit = false ∧ (getSite (token { qPower := true }) 0).qPower = true) ∧ (getSite (token {}) 0).trainQueue = [] ∧
    expertOn { base with regs := [(0xF8000600000, 1)] } 0xF8000600050 = true ∧ fld (0x10 : Word) 5 4 ≤ 1 := by decide

/-- A channel of HBM in a state; a request waits at its pseudo-channel 0, or the one command is under way. -/
def channel (h : Hmc) : State := { base with hbm := [(0, h)] }
def issued (k : ReqKind) (t : Nat) : HmcReq := { req := req k 0x2000 [1, 2, 3, 4, 5, 6, 7, 8], issued := true, tries := t }
theorem witness_HbmRequestsReadAndWriteTheStack : hmcOf 0 = 0 ∧ pcOf 0 = 0 ∧ (0 : Nat) < hbmLimit ∧
    ((getHmc (channel { state := .ready }) 0).state ≠ .failed ∧ (getPc (getHmc (channel { state := .ready }) 0) 0).queue.length < 64 ∧ bufferedWrites (getPc {} 0) < 32 ∧ fromWrite (getPc {} 0) (req .read 0x2000 []) = none) ∧
    (let h : Hmc := { pc0 := { queue := [issued .write 0] }, arrived := 1 }; let r : Req := { req .read 0x2000 [] with init := 0x108 };
     fromWrite (getPc h 0) r = some [1, 2, 3, 4, 5, 6, 7, 8] ∧ (∀ q ∈ h.pc0.queue ++ h.pc1.queue, q.ans = none ∧ q.num < h.arrived ∧ (q.req.init = r.init → q.req.stream ≠ r.stream))) ∧
    (getHmc (channel { state := .failed }) 0).state = .failed ∧
    (let h : Hmc := { state := .ready, pc0 := { queue := [issued .write 0] } }; (getPc h 0).queue = [issued .write 0] ∧ (getPc h (1 - 0)).queue = [] ∧ h.armed = false ∧ (issued .write 0).ans = none ∧ (issued .write 0).tries ≤ 1) ∧
    eccOf (channel { state := .ready, pc0 := { queue := [issued .read 0] } }) 0x2000 8 .clean = .clean ∧
    eccOf (channel { state := .ready, pc0 := { queue := [issued .read 1] } }) 0x2000 8 .uncorrectable = .uncorrectable ∧ (issued .read 1).tries = 1 ∧
    ((getPc { pc0 := { ref := .normal } } 0).ref = .normal ∧ (getPc {} 0).ref = .stopped ∧ (getPc {} 0).refreshing = [] ∧ (getPc { pc0 := { refreshing := [5] } } 0).refreshing = [5] ∧ (addSorted 5 []).length < 64) ∧
    expertOn { base with regs := [(0xF8000200000, 1)] } 0xF8000200068 = true ∧ fld (0x20 : Word) 5 4 ≤ 2 := by decide

theorem witness_HbmTrainingRunsItsSteps : isMld (by' 3) = false ∧ isMld mld = true ∧ (getHmc base 0).state = .untrained ∧ (getHmc (channel { state := .ready }) 0).state = .ready ∧
    isHyp mld = false ∧ isHyp (by' 2) = true ∧ activeOwner (channel { state := .ready }) 0 = false ∧ tokenFree (getSite base 0) = true ∧ tokenFree (getSite (token { holder := .power }) 0) = false ∧ tokenFree (getSite (token { qCommit := true }) 0) = false ∧
    ((getHmc (channel { state := .ready, due := true }) 0).due = true ∧ 0 ∉ (getSite base 0).trainQueue) ∧
    ((getHmc (channel { state := .training, train := some .boot, step := 1 }) 0).train = some .boot ∧ nextStep .boot 1 = some 2 ∧ (getHmc (channel { train := some .boot, step := 1 }) 0).op.abortReq = false) ∧
    activeOwner { (composed [rec' tCELL [1, 0, 0, 0, 0, 0], rec' tPCRES [1, 0, 0, 0]]) with cells := [(1, { state := .active })] } 0 = true := by decide

/-! ### Witnesses: time, timers, jobs, watchdogs -/

/-- The device at an instant with its time block, and a composition. -/
def timed (now : Word) (rs : List Rec) (t : TimeSt) : State := { (composed rs) with now := now, time := t, cells := [(1, { state := .active })] }
/-- An access of cell 1; a route of an event to task 7 of cell 1. -/
def ofCell (c : CellId) : Access := { init := 0, level := 2, cell := some c, peek := false }
def routed (e : Nat) : Rec := rec' tROUTE (natLe 2 e ++ [1, 0, 7, 0, 0, 0])
/-- An access of an endpoint that is neither a cluster nor the always-on block. -/
def stranger : Access := { init := 0x1F8, level := 3, cell := none, peek := false }
theorem witness_TimebaseReferenceAndPps :
    ((by' 3).init.toNat / 8 ≤ 15 ∧ (decide (stranger.init.toNat / 8 ≤ 15) || decide (stranger.init.toNat / 8 = 0x63)) = false) ∧ (timed 0 [] {}).comp.isSealed = true ∧ base.comp.isSealed = false ∧
    (fld (stored base .timeCtrl 0xF8000030000) 23 16 * 256000 < ((0x7FFFFFFF : Word).setWidth 32).toInt.natAbs ∧
      ((0 : Word).setWidth 32).toInt.natAbs ≤ fld (stored base .timeCtrl 0xF8000030000) 23 16 * 256000) ∧
    (let s := timed 1000005 [] { goodSince := some 5, holdover := true };
      s.time.goodSince = some 5 ∧ s.time.holdover = true ∧ (5 : Word).toNat + 1000000 ≤ s.now.toNat ∧ (timed 1000004 [] {}).now.toNat < (5 : Word).toNat + 1000000) ∧
    (let s : State := { base with now := 1000000000, regs := [(0xF8000030000, 0x100), (0xF8000030028, 0x10000)] };
      fld (stored s .timePps 0xF8000030028) 63 32 = 0 ∧ fld (stored s .timePps 0xF8000030028) 23 16 = 1 ∧ s.time.ppsOut = false ∧ (stored s .timeCtrl 0xF8000030000).getLsbD 8 = true ∧
      1 * 1000000000 + 0 ≤ s.now.toNat ∧ s.now.toNat < 1 * 1000000000 + 0 + 1 * 1000000) ∧
    (let s := timed 1001000000 [] { ppsOut := true, ppsRise := 1000000000 };
      s.time.ppsOut = true ∧ s.time.ppsRise.toNat + 1 * 1000000 ≤ s.now.toNat ∧ (timed 1000999999 [] {}).now.toNat < s.time.ppsRise.toNat + 1 * 1000000) ∧
    base.now.toNat < 2 ^ 62 := by decide

/-- Timer 0 routed to task 7 of the ACTIVE cell 1. -/
def timer (now : Word) (x : Timer) : State := timed now [routed 128] { timers := [(0, x)] }
theorem witness_TimersExpireAtTheirCompareValue : (∀ now x, (timer now x).comp.isSealed = true ∧ routeOf (timer now x).comp.live (128 + (0 : BitVec 8).toNat) = some (routed 128) ∧
      ru8 (routed 128) 6 = 0 ∧ ru16 (routed 128) 2 = 1 ∧ cellState (timer now x) 1 = .active ∧ (timer now x).flt.safe = false ∧ getTimer (timer now x) 0 = x ∧ timerOwner (timer now x) 0 = some 1) ∧
    (∀ k ∈ [1, 2], routeOf (composed [rec' tROUTE [128, 0, 0, 0, 0, 0, k, 0]]).comp.live 128 = some (rec' tROUTE [128, 0, 0, 0, 0, 0, k, 0]) ∧ timerOwner (composed [rec' tROUTE [128, 0, 0, 0, 0, 0, k, 0]]) 0 = none) ∧
    (base.comp.isSealed = false ∧ timerOwner base 0 = none) ∧
    (∃ x : Timer, x.en = true ∧ x.cmp.toNat ≤ (timer 50 x).now.toNat ∧ ¬ (timer 50 x).now.toNat < x.cmp.toNat ∧ (timer 49 x).now.toNat < x.cmp.toNat) ∧
    (by' 2).cell.map (·.toNat) ≠ timerOwner (timer 50 {}) 0 ∧ (ofCell 1).cell.map (·.toNat) = some 1 ∧ (0 : Word).getLsbD 0 = false ∧
    (let x : Timer := { en := true, periodic := true, period := 7 }; x.en = true ∧ (50 : Word).toNat ≤ (timer 50 x).now.toNat ∧ (timer 50 x).now.toNat < 2 ^ 63 ∧ x.periodic = true ∧ x.period ≠ 0) ∧
    (({ en := true } : Timer).periodic = false) := by
  refine ⟨fun _ _ => ⟨rfl, rfl, rfl, rfl, rfl, rfl, rfl, rfl⟩, by decide, by decide, ⟨{ en := true, cmp := 50 }, by decide⟩, by decide, by decide, by decide, by decide, by decide⟩

/-- Job 0 of task 7 of cell 1: periodic with 1 ms, budget 10 µs, deadline 0.5 ms after its release. -/
def jobR : Rec := rec' tJOB ([0, 0, 1, 0, 7, 0, 4, 0, 0, 0, 0, 0] ++ [0x40, 0x42, 0x0F, 0, 0x10, 0x27, 0, 0, 0x20, 0xA1, 7, 0])
def job (now : Word) (x : Job) (cs : List (Nat × Word)) (st : TaskState) : State :=
  { with' (timed now [jobR] { jobs := [(0, x)], closes := cs }) 0 (fun k => { k with task := some 7 }) with sched := { tcbs := [(7, { cell := 1, state := st, job := if x.state = .opened then some 0 else none })] } }
theorem witness_JobsCloseMissOrOverrun : (∀ now x cs st, jobRec (job now x cs st) (0 : BitVec 14).toNat = some jobR ∧ (job now x cs st).flt.safe = false ∧ getJob (job now x cs st) 0 = x ∧
      (job now x cs st).time.closes = cs) ∧
    ((1000000 : Nat) = ru32 jobR 12 ∧ (ru16 jobR 6).testBit 2 = true ∧ (let s := job 1000000 { state := .idle } [] .waiting;
      (1 : Nat) = max (getJob s 0).next 1 ∧ 1 * 1000000 ≤ s.now.toNat ∧ (getTcb s 7).job = none ∧ (getTcb s 7).state ≠ .budgetHeld) ∧ (job 999999 {} [] .waiting).now.toNat < 1 * ru32 jobR 12) ∧
    (∃ x : Job, x.state = .opened ∧ (∀ cs, exhaustAt (job 1 x cs .running) jobR 0 = none) ∧ (500000 : Word).toNat ≤ x.deadline.toNat ∧ ¬ (500001 : Word).toNat ≤ x.deadline.toNat ∧
      (∀ c ∈ [((0 : Nat), (500001 : Word))], c.1 ≠ 0 ∨ x.deadline.toNat < c.2.toNat) ∧ x.deadline.toNat < (job 500001 x [] .running).now.toNat ∧ (job 500000 x [] .running).now.toNat ≤ x.deadline.toNat) ∧
    (∃ x : Job, x.state = .opened ∧ exhaustAt (job 10100 x [(0, 10100)] .running) jobR 0 = some 10100 ∧ (∀ c ∈ [((0 : Nat), (10100 : Word))], c.1 ≠ 0 ∨ 10100 ≤ c.2.toNat) ∧ 10100 ≤ x.deadline.toNat ∧
      (ru16 jobR 6).testBit 1 = false ∧ 10100 ≤ (job 10100 x [] .running).now.toNat ∧ (getTcb (job 10100 x [] .running) 7).state = .running ∧
      (getCore (job 10100 x [] .running) (coreOfTask (job 10100 x [] .running) 7)).task = some 7 ∧ (getCore (job 10100 x [] .running) (coreOfTask (job 10100 x [] .running) 7)).discard = false ∧ (job 10099 x [] .running).now.toNat < 10100) := by
  refine ⟨fun _ _ _ _ => ⟨rfl, rfl, rfl, rfl⟩, by decide, ⟨{ state := .opened, deadline := 500000 }, rfl, fun _ => rfl, by decide, by decide, by decide, by decide, by decide⟩,
    ⟨{ state := .opened, deadline := 500000, since := some 100 }, rfl, by decide, by decide, by decide, by decide, by decide, by decide, by decide, by decide, by decide⟩⟩

/-- The watchdog of cell 1, with a window of 3 to 10 µs. -/
def watched (now : Word) (w : CellWd) : State := timed now [rec' tCELL ([1, 0, 0, 0, 0, 0, 0, 0, 0, 0, 0, 0] ++ natLe 4 3 ++ natLe 4 10)] { wds := [(1, w)] }
theorem witness_WatchdogKickOfTheCellOfTheAccess : (0x5A : Word).toNat % 256 = 0x5A ∧ (ofCell 1).cell = some 1 ∧ (by' 2).cell = none ∧
    (∀ st ∈ [WdState.first, WdState.running], let s := watched 3000 { state := st };
      ((getWd s 1).state = .first ∨ (getWd s 1).state = .running) ∧ (getWd s 1).frozen = false ∧
      (s.now.toNat - (getWd s 1).base.toNat) / 1000 ≤ wdMax s 1 ∧ ((getWd s 1).state = .running → wdMin s 1 ≤ (s.now.toNat - (getWd s 1).base.toNat) / 1000)) ∧
    (watched 10999 { state := .first }).now.toNat / 1000 ≤ wdMax (watched 10999 { state := .first }) 1 := by decide
theorem witness_WatchdogsFailTheirWindows : ((getWd (watched 10000 { state := .running }) 1).state = .running ∧ (getWd (watched 10000 { state := .running }) 1).frozen = false) ∧
    ((0x5B : Word).toNat % 256 ≠ 0x5A ∧ (let s := watched 2999 { state := .running }; (s.now.toNat - 0) / 1000 ≤ wdMax s 1 ∧ (s.now.toNat - 0) / 1000 < wdMin s 1)) ∧
    (let s := watched 10000 { state := .running }; wdMax s 1 ≤ (s.now.toNat - 0) / 1000) ∧ (let s := watched 9999 { state := .running }; (s.now.toNat - 0) / 1000 < wdMax s 1) ∧
    isMld mld = true ∧ isMld (by' 3) = false ∧ base.time.devTripped = false ∧ base.flt.safe = false ∧
    (base.time.devMin.toNat ≤ 0 ∧ (0 : Nat) ≤ base.time.devMax.toNat ∧ base.time.devMax.toNat ≤ ((timed 200000000 [] {}).now.toNat - 0) / 1000000 ∧
      ((timed 199999999 [] {}).now.toNat - 0) / 1000000 < base.time.devMax.toNat) ∧
    (base.time.devLock = false ∧ fld (0x0002000100000000 : Word) 47 32 < fld (0x0002000100000000 : Word) 63 48 ∧ fld (0x0002000100000000 : Word) 63 48 ≤ 10000) ∧ (timed 0 [] { devLock := true }).time.devLock = true := by decide

/-! ### Witnesses: faults and the network -/

/-- A fault of core 0 of a class for cell 1, ACTIVE; a queued record of a class; the ring in scratch, where enabled. -/
def faultOf (c : BitVec 2) : FaultMsg := { code := 0x0301, cls := c, source := 1, cell := some 1 }
def faulty (c : BitVec 2) (q : List FaultRec) : State := { timed 0 [] {} with flt := { raised := [faultOf c], queue := q } }
def recOf (c : BitVec 2) : FaultRec := { msg := faultOf c, seq := 0, cls := c, escalated := false, raised := false }
def ring (en : Bool) (head tail : BitVec 32) (c : BitVec 2) : State :=
  { base with flt := { queue := [recOf c], ringEn := en, ringBase := 0xF0000000000, head := head, tail := tail } }
/-- The collector's stream blocked. -/
def blockedRing : State := { base with flt := { queue := [recOf 0], ringEn := true, blocks := [(0, { valid := true, init := collectorInit, stream := 0, cell := none })] } }
theorem witness_FaultsAreClassedQueuedAndStored : (∀ c q, (faulty c q).flt.raised = faultOf c :: [] ∧ (faultOf c).cell = some 1 ∧ cellState (faulty c q) (1 : CellId).toNat = .active ∧ (faulty c q).flt.safe = false) ∧
    (∀ c : BitVec 2, (classInForce (faulty c []) (faultOf c)).1 = c.toNat) ∧
    (([] : List FaultRec).length < 256 ∧ 256 ≤ (List.replicate 256 (recOf 0)).length) ∧
    (∀ en c, (ring en 0 0 c).flt.queue = recOf c :: []) ∧
    (∀ c : BitVec 2, (ring true 0 0 c).flt.ringEn = true ∧ (if c.toNat ≤ 1 then reserve (ring true 0 0 c) else 0) < 2 ^ (6 : BitVec 4).toNat - ((0 : BitVec 32) - 0).toNat ∧
      pageLocked (ring true 0 0 c) 0xF0000000000 64 = false ∧ regionOf 0xF0000000000 = .scratch 0 ∧ ringBlocked (ring true 0 0 c) = false ∧
      (ring true 0 0 c).fab.fences.contains 0x10 = false ∧ armedInject (ring true 0 0 c) 1 0 = none ∧ (ring true 0 0 c).fab.changing = false ∧ pathBoth (ring true 0 0 c) 0x63 0x10 = true ∧ (ring true 0 0 c).fab.links = []) ∧
    ringBlocked blockedRing = true ∧ ({ ring true 0 0 0 with fab := { changing := true } } : State).fab.changing = true ∧
    (2 ^ (ring true 64 0 0).flt.ringLog2.toNat - ((64 : BitVec 32) - 0).toNat = 0 ∧ (ring false 0 0 0).flt.ringEn = false) := by
  refine ⟨fun _ _ => ⟨rfl, rfl, rfl, rfl⟩, by decide, ⟨by decide, Nat.le_of_eq (List.length_replicate).symm⟩, fun _ _ => rfl, by decide, by decide, rfl, by decide⟩

/-- Collector and pins at an instant. -/
def pinned (now : Word) (f : Flt) : State := { base with now := now, flt := f }
theorem witness_RingBlockAndPinRegisters :
    (base.flt.lock = false ∧ base.flt.ringEn = false ∧ isMld mld = true ∧ isMld (by' 3) = false ∧ ringPlacedOk (pinned 0 { ringBase := 0xF0000000000 }) = true ∧ ringPlacedOk (pinned 0 { ringBase := 64 }) = false) ∧
    ((((64 : BitVec 32) - (0 : Word).setWidth 32).toNat ≤ 2 ^ (6 : BitVec 4).toNat) ∧ 2 ^ (6 : BitVec 4).toNat < ((64 : BitVec 32) - (0xFFFFFFFF : Word).setWidth 32).toNat) ∧
    isHyp (by' 2) = true ∧ isHyp (by' 0) = false ∧ isMld (by' 0) = false ∧
    (let v : Word := 0x10003;
      (getBlock freeing (v.toNat % 512)).valid = true ∧ (getBlock freeing (v.toNat % 512)).gen.toNat = v.toNat / 65536 % 128 ∧ (getBlock freeing (v.toNat % 512)).cmd ≠ none ∧
      (getBlock { freeing with flt := { blocks := [(3, { valid := true, gen := 1 })] } } (v.toNat % 512)).cmd = none ∧ (getBlock base 3).valid = false) ∧
    ((0xA5 : Word).toNat % 256 = 0xA5 ∧ (0xA4 : Word).toNat % 256 ≠ 0xA5 ∧ base.flt.safe = false) ∧
    ((composed []).comp.isSealed = true ∧ (composed []).boot.unverified = false ∧ (composed []).flt.safe = false ∧ base.comp.isSealed = false ∧ (pinned 0 { safe := true }).flt.safe = true) ∧
    ((2 : Word).getLsbD 1 ≠ base.flt.fwFault ∧ base.flt.extLevel = true) ∧
    ((pinned 50 { extLow := some 0 }).flt.extLow = some 0 ∧ (if base.comp.isSealed then extSafe base.comp.live else (true, 0)) = (true, 0) ∧
      (0 : Word).toNat + 50 ≤ (pinned 50 { extLow := some 0 }).now.toNat ∧ (pinned 49 { extLow := some 0 }).now.toNat < (0 : Word).toNat + 50 ∧
      (0 : Word).toNat + 50 < (pinned 51 { extLow := some 0 }).now.toNat ∧ (pinned 50 { extLow := some 0 }).now.toNat ≤ (0 : Word).toNat + 50) ∧
    (let s : State := { (composed [rec' tEXTSAFE [1, 2]]) with now := 2000, flt := { extLow := some 0 } };
      (if s.comp.isSealed then extSafe s.comp.live else (true, 0)) = (true, 2) ∧ (0 : Word).toNat + 2 * 1000 ≤ s.now.toNat) ∧
    base.flt.extLow = none ∧ base.flt.pairStopped.contains 1 = false ∧ (pinned 0 { pairStopped := [1] }).flt.pairStopped.contains 1 = true := by decide

/-- Port 0 up; receive ring 0 of cell 1 with 4 slots of 128 bytes; a filter that takes everything to it. -/
def slots (prod : BitVec 16) : Ring := { en := true, base := 0x20000, logSlots := 2, logSlot := 7, prod := prod }
def filterR : Rec := rec' tFILTER [0, 0, 0, 4, 1, 0, 1, 0, 0, 0, 0, 0, 0, 0, 0xFF, 0xFF, 0xFF, 0xFF, 0]
def scratchR : Rec := rec' tSCRATCH [1, 0, 0, 0, 0, 0, 0, 0, 0, 0, 0x20, 0]
def netted (rs : List Rec) (n : NetSt) : State := { timed 0 rs {} with net := n }
def upPort : Port := { up := true }
/-- The shortest frame. -/
def frame60 : List Byte := List.replicate 60 0
set_option maxRecDepth 8000 in
theorem witness_FramesComeInToTheirRings :
    (netUp base = true ∧ (getPort (netted [] { ports := [(0, upPort)] }) 0).up = true ∧ (getPort base 0).up = false) ∧ 60 ≤ frame60.length ∧ frame60.tail.length < 60 ∧
    (lowestFilter ((recsOf (netted [] {}).comp.live tFILTER).filter (filterHits 0 frame60)) = none ∧ (look 0 netBase (netted [] {}).regs).getLsbD 1 = false) ∧
    (∀ prod : BitVec 16, let s := netted [filterR] { ports := [(0, upPort)], rx := [(0, slots prod)] };
      typeOf frame60 ≠ 0x88F7 ∧ lowestFilter ((recsOf s.comp.live tFILTER).filter (filterHits 0 frame60)) = some filterR ∧ (ru8 filterR 18).testBit 0 = false ∧ ru16 filterR 2 - 1024 = 0 ∧
      getRing s 0 0 = slots prod ∧ (s.net.hdrs.filter (fun h => h.event = 0)).length = 0 ∧ (slots prod).en = true ∧ cellState s (ru16 filterR 4) ≠ .halted ∧ frame60.length + 28 ≤ 2 ^ (slots prod).logSlot) ∧
    (((3 : BitVec 16) - 0).toNat + 0 < 2 ^ (slots 3).logSlots ∧ pageLocked (netted [filterR] {}) (slotAddr (slots 3) 3 + 4) 60 = false ∧ pageLocked (netted [filterR] {}) (slotAddr (slots 3) 3 + 2 ^ 7 - 24) 24 = false ∧
      2 ^ (slots 4).logSlots ≤ ((4 : BitVec 16) - 0).toNat + 0) ∧
    (let h : RxPending := { event := 0, index := 3, hdr := 60, stamp := 0, cell := some 1, lines := [(0x20180, List.replicate 64 0)] };
      let s := netted [routed 1024] { rx := [(0, slots 3)], hdrs := [h] };
      s.net.hdrs.find? (fun h => h.event = (0 : BitVec 12).toNat) = some h ∧ (getRing s 0 0).en = true ∧ netUp s = true ∧ netBlocked s h.cell = false ∧
      (ioWrite netWriter 0 h.cell h.lines { s with net := { s.net with hdrs := s.net.hdrs.erase h } }).2 = .done ∧ s.cache.badTags = [] ∧ s.comp.isSealed = true ∧
      routeOf s.comp.live 1024 = some (routed 1024) ∧ ru8 (routed 1024) 6 = 0) ∧
    (let s := netted [filterR, scratchR] { rx := [(0, slots 3)] };
      (0 : Nat) ≠ 1 ∧ ringParty s (ofCell 1) 0 0 = true ∧ ringParty s (by' 2) 0 0 = false ∧ ((3 : BitVec 16) - 0).toNat ≤ ((slots 3).prod - (slots 3).cons).toNat ∧ ((slots 3).prod - (slots 3).cons).toNat < ((4 : BitVec 16) - 0).toNat) ∧
    (∀ base', base' ∈ [0xF0000000, 0xEFFFFFFF] → (let s := netted [filterR, scratchR] {};
      base' < 2 ^ 32 ∧ ringParty s (ofCell 1) 0 0 = true ∧ (getRing s 0 0).en = false ∧ ringPlaced s 0 0 (base' * 4096) (2 ^ (10 + 11)) = decide (base' = 0xF0000000))) ∧
    (let x : Frer := { last := some 0 }; x.last ≠ none ∧ 100000000 ≤ ((timed 100000000 [] {}).now - x.time).toNat ∧ ((timed 99999999 [] {}).now - x.time).toNat < 100000000 ∧ ({} : Frer).last = none ∧ netUp (timed 0 [] {}) = true) ∧
    (let s := netted [] { can := [(0, slots 3)] };
      (getPort s 10).busOff = false ∧ (∀ o, ownerOf s.comp.live 5 0 = some o → cellState s o ≠ .halted) ∧ (getRing s 2 0).en = true ∧ frame60.length + 28 ≤ 2 ^ (getRing s 2 0).logSlot ∧
      netUp s = true) := by
  refine ⟨by decide, by decide, by decide, by decide, fun prod => ⟨by decide, rfl, by decide, by decide, rfl, rfl, rfl, (by decide : CellState.active ≠ .halted),
      (by decide : frame60.length + 28 ≤ 2 ^ 7)⟩, by decide, by decide, by decide, by decide, by decide,
    ⟨by decide, by intro o h; simp [netted, timed, composed, ownerOf, findRec] at h, by decide, by decide, by decide⟩⟩

/-- A filter that eliminates duplicates, and a frame with an R-TAG. -/
def filterE : Rec := { filterR with data := filterR.data.set 18 1 }
def tagged (n : Byte) : List Byte := List.replicate 12 0 ++ [0xF1, 0xC1, 0, 0, 0, n] ++ List.replicate 42 0
def recovering (l : Option (BitVec 16)) (h : BitVec 32) : State :=
  netted [filterE] { ports := [(0, upPort)], rx := [(0, slots 3)], can := [(0, slots 3)], frer := [(0, { last := l, hist := h })] }
set_option maxRecDepth 8000 in
theorem witness_FramesComeInToTheirRings_kept :
    (let s := recovering (some 5) 1;
      lowestFilter ((recsOf s.comp.live tFILTER).filter (filterHits 0 (tagged 6))) = some filterE ∧ (ru8 filterE 18).testBit 0 = true ∧ rtagOf (tagged 6) = some 6 ∧ typeOf (tagged 6) ≠ 0x88F7 ∧
      lowestFilter ((recsOf s.comp.live tFILTER).filter (filterHits 0 frame60)) = some filterE ∧ rtagOf frame60 = none ∧
      (look ({} : Frer) (ru16 filterE 0) s.net.frer).last = some 5 ∧ (-32 < ((6 : BitVec 16) - 5).toInt ∧ ((6 : BitVec 16) - 5).toInt < 32 ∧ 0 < ((6 : BitVec 16) - 5).toInt) ∧
      (-32 < ((5 : BitVec 16) - 5).toInt ∧ ((5 : BitVec 16) - 5).toInt ≤ 0 ∧ (look ({} : Frer) (ru16 filterE 0) s.net.frer).hist.getLsbD (-((5 : BitVec 16) - 5).toInt).toNat = true) ∧
      ¬ ((100 : BitVec 16) - 5).toInt < 32) ∧
    (let s := recovering none 0; let g := getRing s 0 0;
      g.en = true ∧ cellState s (ru16 filterE 4) ≠ .halted ∧ frame60.length + 28 ≤ 2 ^ g.logSlot ∧ (g.prod - g.cons).toNat + 0 < 2 ^ g.logSlots ∧ s.net.hdrs = [] ∧ netBlocked s (some 1) = false ∧ s.cache.badTags = [] ∧
      (ioWrite netWriter 0 (some 1) (rxLines s g g.prod 0 (ru16 filterE 0) frame60) s).2 = .done ∧
      2 ^ g.logSlot < (List.replicate 101 (0 : Byte)).length + 28 ∧ (getRing s 0 1).en = false) ∧
    (let s := recovering none 0; let g := getRing s 2 0;
      g.en = true ∧ (g.prod - g.cons).toNat < 2 ^ g.logSlots ∧ (ringOwner s 2 0).map (BitVec.ofNat 12) = none ∧ netBlocked s none = false ∧
      (ioWrite netWriter 0 none (rxLines s g g.prod 10 0 frame60 ++ [rxHead g g.prod 10 frame60]) (drawFree s).2).2 = .done ∧ (getRing s 3 0).en = false) := by
  refine ⟨by decide, by decide, by decide⟩

/-- Egress stream 0 of cell 1 on port 0, FRESH 10 µs, with a safe frame; its ring has a slot committed in memory. -/
def egressR : Rec := rec' tEGRESS [0, 0, 1, 0, 1, 0, 0xFF, 0xFF, 10, 0, 0, 0, 0, 0, 0]
def safeR : Rec := rec' tSAFE ([0, 0, 0, 0, 60, 0] ++ List.replicate 74 0)
def streaming (now : Word) (x : Stream) (q : List TxFrame) : State :=
  { timed now [egressR, safeR] {} with mem := [(0x20000, 60)], net := { tx := [(0, slots 0)], hostTx := slots 0, streams := [(0, x)], ports := [(0, { up := true, queue := q })], reports := [0] } }
def cellFrame (b : Byte) : TxFrame := { src := .cell 0 0, tc := 0, bytes := b :: List.replicate 59 0 }
def gateR : Rec := rec' tGATE (List.replicate 40 0)
set_option maxRecDepth 8000 in
theorem witness_FramesGoOutUnderTheirGuard :
    (let s := streaming 0 { state := .live } [];
      let g := getRing s 1 0;
      0 ∈ s.net.reports ∧ (g.en = true ∧ rdNat s (slotAddr g g.prod) 4 / 65536 = g.prod.toNat ∧ rdNat s (slotAddr g g.prod) 4 % 4096 ≠ 0 ∧ rdNat s (slotAddr g g.prod) 4 % 4096 + 4 ≤ 2 ^ g.logSlot) ∧
      (getStream s 0).state = .live ∧ 0 ∈ streamPorts s 0 ∧ portLive s 0 = true ∧ (getStream (streaming 0 { state := .stale } []) 0).state = .stale ∧ (getRing (netted [] {}) 1 0).en = false ∧ 0 ∉ (netted [] {}).net.reports) ∧
    (let s := streaming 10000 { state := .live } [];
      0 < freshNs s 0 ∧ freshNs s 0 ≤ (s.now - (getStream s 0).commit).toNat ∧ (9999 : Word).toNat < freshNs s 0) ∧
    (∀ st ∈ [StreamState.stale, StreamState.hold], let s := streaming 5000 { state := st } [];
      safeRec s 0 = some safeR ∧ ((getStream s 0).state = .stale ∨ (getStream s 0).state = .hold) ∧ (streamPorts s 0).filter (fun p => safeDue s 0 p && portLive s p) = [0] ∧ (getStream s 0).lastSafe ≠ some s.now) ∧
    (let f : TxFrame := { src := .safe 0, tc := 0, bytes := frame60 };
      let s := streaming 5000 { state := .stale } [f];
      netUp s = true ∧ portLive s 0 = true ∧ (getPort s 0).busOff = false ∧ (getPort s 0).wire = none ∧ (getPort s 0).held = none ∧ pickFrame s 0 false = some f) ∧
    (∀ b ∈ [(0 : Byte), 1], let s := streaming 0 { state := .live } [cellFrame b];
      pickFrame s 0 false = some (cellFrame b) ∧ identityOk s 0 (cellFrame b).bytes = decide (b = 0)) ∧
    (idleSlope (streaming 0 {} []) 0 0 = 0 ∧ (getPort (netted [] { ports := [(0, { wire := some (cellFrame 0, 0) })] }) 0).wire = some (cellFrame 0, 0)) ∧
    (findRec (netted [gateR] {}).comp.live tGATE (fun r => ru8 r 0 = 0) = some gateR ∧ (getPort (netted [gateR] {}) 0).oldGate = none ∧ (getPort (netted [gateR] {}) 0).wire = none) ∧
    (let s := streaming 0 {} [];
      let g := s.net.hostTx;
      (isHyp (by' 2) = true ∨ isMld (by' 2) = true) ∧ g.en = true ∧ (1 : Word).extractLsb' 0 16 = g.prod + 1 ∧ (g.prod - g.cons).toNat < 2 ^ g.logSlots ∧ slotHdr s g g.prod / 4096 % 16 ≤ 9 ∧
      (getPort s (slotHdr s g g.prod / 4096 % 16)).up = true ∧ isHyp (by' 0) = false ∧ isMld (by' 0) = false) := by
  refine ⟨by decide, by decide, by decide, by decide, by decide, by decide, by decide, by decide⟩


/-- A port that may stop frames, 40 ns into a preemptable frame of class 0, with the express safe frame of a stream queued. -/
def bigFrame : TxFrame := { src := .boot, tc := 0, bytes := List.replicate 200 0 }
def expressSafe : TxFrame := { src := .safe 0, tc := 0, bytes := frame60 }
def preempting : State := { timed 40 [] {} with net := { ports := [(0, { up := true, preempt := true, wire := some (bigFrame, 0), queue := [expressSafe] })] } }
/-- The same port with a stopped frame and nothing else; a gate list of one closed entry. -/
def stopped : State := { timed 1000 [] {} with net := { ports := [(0, { up := true, preempt := true, held := some (bigFrame, 64) })] } }
def closedR : Rec := rec' tGATE ([0, 0, 1, 0] ++ natLe 4 1000000 ++ List.replicate 8 0 ++ [0, 0, 0, 0] ++ natLe 4 1000000 ++ List.replicate 8 0)
def hosting : State := { timed 0 [] {} with mem := [(0x20000, 60)], net := { hostTx := slots 0, ports := [(0, { up := true })] } }
set_option maxRecDepth 8000 in
theorem witness_FramesGoOutUnderTheirGuard_read :
    (let s := { streaming 0 { state := .live } [] with net := { (streaming 0 { state := .live } []).net with reports := [] } };
      ∃ f, (slotFrame s (getRing s 1 0) 0 (some (BitVec.ofNat 12 (streamCell s 0)))).2 = some (stOK, f)) ∧
    (let s := { streaming 0 { state := .hold } [] with net := { (streaming 0 { state := .hold } []).net with reports := [] }, poison := [0x4000] };
      ∃ f, (slotFrame s (getRing s 1 0) 0 (some (BitVec.ofNat 12 (streamCell s 0)))).2 = some (stPOISON, f) ∧ stPOISON ≠ stOK) ∧
    (let s := { streaming 0 { state := .live } [] with fab := { changing := true } };
      (slotFrame s (getRing s 1 0) 0 (some (BitVec.ofNat 12 (streamCell s 0)))).2 = none) ∧
    (let x := getPort preempting 0;
      netUp preempting = true ∧ portLive preempting 0 = true ∧ x.busOff = false ∧ x.wire = some (bigFrame, 0) ∧ mayStop preempting 0 bigFrame 0 = true ∧ pickFrame preempting 0 true = some expressSafe ∧
      mayStop preempting 0 expressSafe 0 = false) ∧
    (let x := getPort stopped 0; x.wire = none ∧ x.held = some (bigFrame, 64) ∧ pickFrame stopped 0 false = none ∧ gateOpen stopped 0 0 = true) ∧
    (let s := hosting; let g := s.net.hostTx; let h := slotHdr s g g.prod;
      (∃ f, (slotFrame s g g.prod none).2 = some (stOK, f)) ∧ 0 < h % 4096 ∧ h % 4096 + 4 ≤ 2 ^ g.logSlot ∧ h / 4096 % 16 ≤ 9 ∧ portLive s (h / 4096 % 16) = true ∧ s.cache.badTags = [] ∧
      netBlocked s none = false ∧ (ioWrite netWriter 0 none (splitLines (slotAddr g 0 + 2 ^ g.logSlot - 24) (natLe 8 (0 + 64 / portRate 0) ++ natLe 8 0)) s).2 = .done) ∧
    (let s := { netted [closedR] { ports := [(0, { up := true, preempt := true, wire := some (bigFrame, 0) })] } with now := 1000 }; let x := getPort s 0;
      findRec s.comp.live tGATE (fun r => ru8 r 0 = 0) = some closedR ∧ x.oldGate = none ∧ isExpress s 0 bigFrame = false ∧ x.held = none ∧
      ∃ i l, gateAt closedR s.now.toNat = some (i, l) ∧ (gateBits closedR i).testBit bigFrame.tc = false) ∧
    (let s := { netted [closedR] { ports := [(0, { oldGate := some gateR, gateSwap := 5 })] } with now := 10 };
      (getPort s 0).oldGate = some gateR ∧ cycleStarted closedR (getPort s 0).gateSwap.toNat s.now.toNat = false ∧ cycleStarted closedR 5 1000000 = true ∧ netUp s = true) := by
  refine ⟨⟨_, by rfl⟩, ⟨_, by rfl, by decide⟩, by decide, by decide, by decide, ⟨⟨_, by rfl⟩, by decide⟩, ⟨by decide, by decide, by decide, by decide, _, _, by rfl, by decide⟩, by decide⟩
/-! ### Witnesses: power and thermal -/

/-- A domain in a state; the votes held; cell 1 with a VOTE record for it, and its IDLE_STATE. -/
def powered (now : Word) (d : Nat) (x : Dom) (votes : List Nat) (idle : Byte) : State :=
  { timed now [rec' tVOTE [1, 0, BitVec.ofNat 8 d, 0], rec' tFLOOR [BitVec.ofNat 8 d, 2, idle, 0]] {} with pwr := { doms := [(d, x)], votes := votes } }
def noVote : Dom := { hvVote := false }
theorem witness_DomainsSleepWithoutVotesAndWake :
    (∀ d ∈ [0, 38], let v : Word := BitVec.ofNat 64 (d * 2 ^ 40); d = v.toNat / 2 ^ 40 % 64 ∧ d < 39 ∧ hasVote (powered 0 d {} [] 1) 1 d = true ∧ hasVote base 1 d = false) ∧
    (∀ st, (getDom (powered 0 0 { noVote with state := st } [] 1) 0).state = st) ∧
    (∀ i ∈ [(0 : Byte), 2], let s := powered 0 0 noVote [64] i;
      s.pwr.votes.contains 64 = true ∧ voteCount { s with pwr := { s.pwr with votes := s.pwr.votes.filter (fun v => v ≠ 64) } } 0 = 0 ∧ idleState s.comp.live 0 = i.toNat ∧ (getDom s 0).state = .run) ∧
    (voteCount { powered 0 0 {} [64] 1 with pwr := { doms := [(0, {})], votes := [] } } 0 ≠ 0 ∧ (powered 0 0 {} [] 1).pwr.votes.contains 64 = false) ∧
    (0 = selDom (powered 0 0 {} [] 1) ∧ (0x100 : Word).getLsbD 8 = true ∧ (getDom (powered 0 0 noVote [] 1) 0).hvVote = false ∧ (0 : Word).getLsbD 8 = false ∧ (getDom (powered 0 0 {} [] 1) 0).hvVote = true ∧
      (powered 0 0 {} [] 1).comp.isSealed = true) ∧
    (let s := powered 0 0 {} [] 1;
     (2 : Word).toNat % 4 ≤ 2 ∧ (2 : Word).toNat % 4 ≠ (getDom s 0).target % 4 ∧ composedSlowest s 0 = 2 ∧ composedSlowest (powered 0 1 {} [] 1) 1 = 2 ∧ composedSlowest (composed []) 0 ≤ 2) ∧
    composedSlowest (composed [rec' tFLOOR [0, 1, 1, 0]]) 0 < 2 ∧
    (isQuiet { base with cores := [] } 0 1 = true ∧ isQuiet base 0 1 = false ∧ (∀ t ∈ base.fab.txns, t.done ≠ none ∨ t.dst ∉ domEps 0) ∧ sleepEmulated base = false ∧
      sleepEmulated { base with dbg := { auth := .opened }, regs := [(0xF8000070000, 0x100)] } = true) ∧
    (∀ j, j < 16 → asleep base (16 * (35 - 32) + j) = true) ∧
    ((getDom (powered 0 0 { state := .run, wanted := false } [] 1) 0).wanted = false) := by
  refine ⟨by decide, fun _ => rfl, by decide, by decide, by decide, by decide, by decide, by decide, by decide, by decide⟩

/-- Domain 0 in RUN at a level, its canaries low for 64 samples. -/
def supplied (now : Word) (mv : Nat) (x : Dom) (low : Nat) : State :=
  { powered now 0 { x with mv := mv } [] 1 with pwr := { doms := [(0, { x with mv := mv })], canaries := (List.range 8).map (fun k => (k, { low := low })), coreMv := 820 } }
theorem witness_SuppliesFollowCanariesAndHeat :
    (canaryDom 0 = 0 ∧ (getDom (supplied 0 650 { state := .doze } 0) 0).state ≠ .run ∧ (getDom (supplied 0 650 {} 0) 0).state = .run ∧ (950 : BitVec 10).toNat ≤ 950 ∧ 950 < (951 : BitVec 10).toNat ∧ 1000 < (1001 : BitVec 10).toNat) ∧
    (let s := supplied 0 650 {} 64;
     650 + 10 ≤ psMax (supplyPs (getDom s 0)) ∧ (getDom s 0).raiseWaits = 0 ∧ 650 + 20 ≤ railMv s 0 ∧ psMax (supplyPs (getDom (supplied 0 820 {} 0) 0)) ≤ (getDom (supplied 0 820 {} 0) 0).mv) ∧
    (let x := getDom (supplied 0 650 { raiseWaits := 1 } 0) 0; x.mv + 10 * x.raiseWaits + 10 ≤ psMax (supplyPs x) ∧ x.raiseWaits ≠ 0) ∧
    ((∀ c ∈ canariesOf 0, 64 ≤ (getCanary (supplied 0 655 {} 64) c).low) ∧ (∀ j, j < 16 → let y := getDom (supplied 0 655 {} 64) (0 * 16 + j); y.raiseWaits = 0 ∧ y.toPs = none ∧ y.state ≠ .waking) ∧
      (supplied 0 655 {} 64).pwr.pmic = [] ∧ psMin (supplyPs (getDom (supplied 0 655 {} 64) 0)) + 5 ≤ 655 ∧ 654 < psMin (supplyPs (getDom (supplied 0 654 {} 64) 0)) + 5 ∧
      (∃ c ∈ canariesOf 0, (getCanary (supplied 0 655 {} 63) c).low < 64)) ∧
    ((getDom (supplied 0 650 { toPs := some 1 } 0) 0).toPs = some 1 ∧ 1 ≤ (getDom (supplied 0 650 {} 0) 0).ps ∧ (getDom (supplied 0 650 {} 0) 0).ps < 2) ∧
    (∀ n ∈ [0, 2], let c : PmicCmd := { bytes := [], sent := 0, dom := 0, raises := n };
     ({ base with pwr := { pmic := [c] } } : State).pwr.pmic = c :: [] ∧ c.raises = n ∧ c.dom < 32 ∧ 10000 ≤ ((10000 : Word) - c.sent).toNat) ∧
    (∃ f : Fin 39, (0 : Nat) = f.val) ∧ sensorDom 0 = some 0 ∧
    (let hot : State := { supplied 100000 650 { thermAt := 1 } 0 with pwr := { doms := [(0, { thermAt := 1 })], sensors := [(0, { temp := 127 })] } };
     limitC hot 0 < domTemp hot 0 ∧ ¬ ((1 : Word) = 0 ∨ 100000 ≤ (hot.now - 1).toNat) ∧ 100000 ≤ ((100001 : Word) - 1).toNat ∧ (getDom hot 0).ps + 1 ≤ composedSlowest hot 0 ∧ (getDom hot 0).ps < slowestState 0 ∧
      slowestState 0 ≤ (getDom (supplied 0 550 { ps := 2 } 0) 0).ps ∧ (getDom hot 0).crossed = false) ∧
    (let s := supplied 0 650 { limited := 2 } 0;
     domTemp s 0 < limitC s 0 - hystC s 0 ∧ (getDom s 0).limited ≠ 0 ∧ (getDom s 0).thermAt = 0) := by
  refine ⟨by decide, by decide, by decide, by decide, by decide, by decide, ⟨0, rfl⟩, by decide, by decide, by decide⟩

/-! ### Witnesses: boot and reset -/

/-- The boot block in a state, memory listing some bytes. -/
def booting (b : BootSt) (m : List (Nat × Byte)) : State := { base with boot := b, mem := m, regs := [] }
def region (st : KgState) : KgRegion := { base := 0x2000, len := 0x1000, state := st }
theorem witness_LifecycleKeyGateAndMailboxes :
    (isMld mld = true ∧ (0xC301 : Word).toNat / 256 % 256 = 0xC3 ∧ (0xC201 : Word).toNat / 256 % 256 ≠ 0xC3 ∧ (booting { unverified := true } []).boot.unverified = true ∧ base.boot.unverified = false ∧
      (base.boot.lc = 0 ∧ (0xC301 : Word).setWidth 2 = (1 : BitVec 2)) ∧ (booting { lc := 1, lcNext := some 2 } []).boot.lcNext = some 2 ∧ ¬ (2 : BitVec 2).toNat ≤ (1 : BitVec 2).toNat ∧
      (2 : BitVec 2).toNat ≤ (3 : BitVec 2).toNat ∧ ¬ ((0 : BitVec 2) = 0 ∧ (2 : BitVec 2) = 1 ∨ (0 : BitVec 2) = 1 ∧ (2 : BitVec 2) = 2 ∨ (0 : BitVec 2) ≠ 3 ∧ (2 : BitVec 2) = 3)) ∧
    ((booting { lc := 2 } []).boot.lc = 2 ∧ base.boot.checking = none ∧ (booting { checking := some (3, true) } []).boot.checking ≠ none) ∧
    (let s := booting { regions := [(0, region .free), (1, { base := 0x3000, len := 1, state := .locked })] } [];
     (getRegion s s.boot.kgSel).state = .free ∧ (getRegion s s.boot.kgSel).base % 4096 = 0 ∧ (getRegion s s.boot.kgSel).len ≠ 0 ∧
      kgPlace (mld.init.toNat % 8) (getRegion s s.boot.kgSel).base (getRegion s s.boot.kgSel).len = true ∧
      (∀ e ∈ s.boot.regions, e.1 = s.boot.kgSel ∨ e.2.state = .free ∨ pagesMeet 0x2000 0x1000 e.2.base e.2.len = false) ∧ ¬ (s.boot.lc = 3 ∨ false = false ∧ s.boot.unverified = true)) ∧
    (¬ (getRegion base base.boot.kgSel).len ≠ 0 ∧ (booting { lc := 3 } []).boot.lc = 3) ∧
    (∀ ecdsa, let s := booting { checking := some (16, ecdsa) } []; s.boot.checking = some ((16 : Fin 17).val, ecdsa) ∧ s.boot.rom ≠ .verifying) ∧
    (isHyp (by' 2) = true ∧ isMld (by' 2) = false ∧ isHyp (by' 0) = false) := by
  refine ⟨by decide, by decide, by decide, by decide, ?_, by decide⟩
  intro e; cases e <;> decide

theorem witness_CoresStartFromZero : isMld mld = true ∧ (let s := booting { unverified := true, entry := 0xF0040180000 } [];
      entryChecked s false = true ∧ entryChecked s true = true ∧ (0x81 : Word).toNat % 256 = 0x81 ∧ (getCore s 127).mode = .held ∧ (getCore (with' s 127 (fun k => { k with mode := .locked })) 127).mode = .locked ∧
      (getCore s 0).mode ≠ .held ∧ (getCore s 129).mode = .held) := by decide

/-- A recovery frame; and one whose CRC fails. -/
def recFrame (typ : Nat) (seq : Nat) (pl : List Byte) : List Byte :=
  let body := natLe 1 typ ++ natLe 2 pl.length ++ natLe 2 seq ++ pl
  [0x7E] ++ body ++ natLe 2 (recCrc body)
/-- A boot frame of slot A from offset 0, one out of order, and the end frame. -/
def bootFrameOf (slot off : Byte) (d : List Byte) : List Byte := deviceMac ++ [2, 0, 0, 0, 0, 1, 0x88, 0xB5, slot, 0, 0, 0, off, 0, 0, 0] ++ d
def waitingRom : State := booting { rom := .waiting, strap := 4 } []
/-- Source 4 has been waited for 5 s. -/
def timedOut : State := { booting { rom := .waiting, strap := 4, waitFrom := some 7 } [] with now := 5000000007 }
/-- A recovery image for development: no code, signed by the private key 12345. -/
def recoveryImage : List (Nat × Byte) :=
    [(0xf0040100000, 0x52), (0xf0040100001, 0x43), (0xf0040100002, 0x56), (0xf0040100003, 0x59), (0xf0040100004, 1), (0xf0040100005, 1), (0xf0040100006, 0x40), (0xf0040100007, 0x91), (0xf0040100008, 0x20), (0xf0040100011, 1), (0xf0040100030, 4), (0xf0040100031, 0xe8), (0xf0040100032, 0x6b), (0xf0040100033, 0x99), (0xf0040100034, 0x5e), (0xf0040100035, 0x35), (0xf0040100036, 0xe), (0xf0040100037, 0x4d), (0xf0040100038, 0x31), (0xf0040100039, 0x2a), (0xf004010003a, 0x95), (0xf004010003b, 0xa6), (0xf004010003c, 0xb7), (0xf004010003d, 0xd5), (0xf004010003e, 0xd8), (0xf004010003f, 0xcd), (0xf0040100040, 0xcd), (0xf0040100041, 0xb4), (0xf0040100042, 0x68), (0xf0040100043, 0x2f), (0xf0040100044, 0x58), (0xf0040100045, 0x88), (0xf0040100047, 0xa1), (0xf0040100048, 0xcd), (0xf0040100049, 0x6c), (0xf004010004a, 0x97), (0xf004010004b, 0x2e), (0xf004010004c, 0x1d), (0xf004010004d, 0xcb), (0xf004010004e, 0x2a)] ++
    [(0xf004010004f, 0x5a), (0xf0040100050, 0xc3), (0xf0040100051, 0x8d), (0xf0040100052, 0x90), (0xf0040100053, 4), (0xf0040100054, 0x69), (0xf0040100055, 0x51), (0xf0040100056, 0xb0), (0xf0040100057, 0x3c), (0xf0040100058, 0xcb), (0xf0040100059, 0x3b), (0xf004010005a, 0x17), (0xf004010005b, 0x9a), (0xf004010005c, 0x89), (0xf004010005d, 0xfd), (0xf004010005e, 0xa8), (0xf004010005f, 0x8b), (0xf0040100060, 0x1b), (0xf0040100061, 0x48), (0xf0040100062, 0x5b), (0xf0040100063, 0x9f), (0xf0040100064, 0x2c), (0xf0040100065, 0x1f), (0xf0040100066, 0x44), (0xf0040100067, 0xb0), (0xf0040100068, 0xdd), (0xf0040100069, 0x41), (0xf004010006a, 0xce), (0xf004010006b, 0x6e), (0xf004010006c, 0x3c), (0xf004010006d, 0x3a), (0xf004010006e, 0x69), (0xf004010006f, 0xb), (0xf0040100070, 0xbf), (0xf0040100071, 0xaa), (0xf0040100072, 0xbe), (0xf0040100073, 0xc1), (0xf0040100074, 0xe1), (0xf0040100075, 0xff), (0xf0040100076, 0x4a)] ++
    [(0xf0040100077, 0xef), (0xf0040100078, 0xb2), (0xf0040100079, 0x46), (0xf004010007a, 0x1f), (0xf004010007b, 0xdd), (0xf004010007c, 0xa6), (0xf004010007d, 0x62), (0xf004010007e, 0x9b), (0xf004010007f, 0xec), (0xf0040100080, 0xbd), (0xf0040100081, 0x43), (0xf0040100082, 0xcf), (0xf0040100083, 0x74), (0xf0040100084, 0xc1), (0xf0040100085, 0x3d), (0xf0040100086, 0x8c), (0xf0040100087, 0x1a), (0xf0040100088, 0x16), (0xf0040100089, 0x25), (0xf004010008a, 0x61), (0xf004010008b, 0x22), (0xf004010008c, 0x43), (0xf004010008d, 0xf0), (0xf004010008e, 4), (0xf004010008f, 0x61), (0xf0040100090, 0x48), (0xf0040100100, 0x63), (0xf0040100101, 0x11), (0xf0040100103, 0x61), (0xf0040100104, 0xe1), (0xf0040100105, 0x5a), (0xf0040100106, 0x51), (0xf0040100107, 0x19), (0xf0040100108, 0xc), (0xf0040100109, 0xef), (0xf004010010a, 0x8c), (0xf004010010b, 0x3d), (0xf004010010c, 0x91), (0xf004010010d, 0xf0), (0xf004010010e, 0xd7)] ++
    [(0xf004010010f, 5), (0xf0040100110, 0xe8), (0xf0040100111, 0xa3), (0xf0040100112, 1), (0xf0040100113, 0x5d), (0xf0040100114, 0x93), (0xf0040100115, 0xba), (0xf0040100116, 0xd), (0xf0040100117, 0x39), (0xf0040100118, 0xa2), (0xf0040100119, 0x9c), (0xf004010011a, 0xf5), (0xf004010011b, 0x32), (0xf004010011c, 0x72), (0xf004010011d, 0xef), (0xf004010011e, 7), (0xf004010011f, 0x5a), (0xf0040100120, 0xa2), (0xf0040100121, 0x58), (0xf0040100122, 0xc6), (0xf0040100123, 0xa1), (0xf0040100124, 0x78), (0xf0040100125, 0x4f), (0xf0040100126, 0x7f), (0xf0040100127, 0x42), (0xf0040100128, 0xf3), (0xf0040100129, 0x77), (0xf004010012a, 0xdd), (0xf004010012b, 0x78), (0xf004010012c, 0x5a), (0xf004010012d, 0xc4), (0xf004010012e, 0xce), (0xf004010012f, 0x37), (0xf0040100130, 0x14), (0xf0040100131, 0x85), (0xf0040100132, 0x98), (0xf0040100133, 0x49), (0xf0040100134, 0x61), (0xf0040100135, 0x1c), (0xf0040100136, 0x63)] ++
    [(0xf0040100137, 0xa0), (0xf0040100138, 0xc2), (0xf0040100139, 0xb7), (0xf004010013a, 0x1e), (0xf004010013b, 0x61), (0xf004010013c, 0x7d), (0xf004010013d, 0xfe), (0xf004010013e, 0x73), (0xf004010013f, 0x41), (0xf0040100140, 0xd5), (0xf0040100141, 0xe3), (0xf0040100142, 0xdc), (0xf0040100143, 0xd4), (0xf0040100144, 0xce), (0xf0040100145, 0x78), (0xf0040100146, 0x6a), (0xf0040100147, 0x35), (0xf0040100148, 9), (0xf0040100149, 0xb2), (0xf004010014a, 0x14), (0xf004010014b, 0x1c), (0xf004010014c, 0xb1), (0xf004010014d, 0x24), (0xf004010014e, 0xd8), (0xf004010014f, 0x69), (0xf0040100150, 0x88), (0xf0040100151, 0x13), (0xf0040100152, 0x52), (0xf0040100153, 0x88), (0xf0040100154, 0xed), (0xf0040100155, 0xa0), (0xf0040100156, 0x67), (0xf0040100157, 0xbd), (0xf0040100158, 0x9d), (0xf0040100159, 0xf2), (0xf004010015a, 0x43), (0xf004010015b, 0xa0), (0xf004010015c, 9), (0xf004010015d, 0x3f), (0xf004010015e, 0x21)] ++
    [(0xf004010015f, 0xc5)]
def recovery : State :=
  booting { rom := .verifying, checking := some (0, true), regions := [(0, { base := 0xF0040100000, len := 0x160, state := .locked })] } recoveryImage
/-- A slot A with the three parts that must be there, delivered by source 4; its MACs are those of a device with a zero secret
and a zero unique ID. -/
def slotted : State := booting { rom := .waiting, strap := 4, gotA := 0x400 } (
    [(0xf0000000000, 0x42), (0xf0000000001, 0x4f), (0xf0000000002, 0x4f), (0xf0000000003, 0x54), (0xf0000000004, 1), (0xf0000000007, 3), (0xf0000000008, 0xff), (0xf0000000009, 0xff), (0xf000000000a, 0xff), (0xf000000000b, 0xff), (0xf0000000011, 4), (0xf0000000014, 0x40), (0xf0000000015, 0x91), (0xf0000000016, 0x20), (0xf0000000017, 1), (0xf0000000018, 3), (0xf0000000040, 1), (0xf0000000045, 3), (0xf0000000048, 8), (0xf0000000052, 0x10), (0xf0000000053, 0x40), (0xf0000000055, 0xf), (0xf000000005a, 0x10), (0xf000000005b, 0x40), (0xf000000005d, 0xf), (0xf0000000060, 0xf7), (0xf0000000061, 0x21), (0xf0000000062, 0x6c), (0xf0000000063, 0xcf), (0xf0000000064, 0xa8), (0xf0000000065, 0x63), (0xf0000000066, 0x3b), (0xf0000000067, 0x81), (0xf0000000068, 4), (0xf0000000069, 0x95), (0xf000000006a, 0x42), (0xf000000006b, 0x8f), (0xf000000006c, 0xc6), (0xf000000006d, 0xfe), (0xf000000006e, 0xec)] ++
    [(0xf000000006f, 0xe7), (0xf0000000070, 0x5b), (0xf0000000071, 0xe1), (0xf0000000072, 0x7a), (0xf0000000073, 0xd9), (0xf0000000074, 0x2e), (0xf0000000075, 0x3e), (0xf0000000076, 0x1e), (0xf0000000077, 0xdf), (0xf0000000078, 0x61), (0xf0000000079, 0x81), (0xf000000007a, 0xa8), (0xf000000007b, 0xba), (0xf000000007c, 0x92), (0xf000000007d, 0x90), (0xf000000007e, 0x38), (0xf000000007f, 0x10), (0xf0000000080, 0x5a), (0xf0000000081, 0x2a), (0xf0000000082, 0x3c), (0xf0000000083, 0x5a), (0xf0000000084, 0x91), (0xf0000000085, 0x59), (0xf0000000086, 0x2d), (0xf0000000087, 0x9a), (0xf0000000088, 0xf9), (0xf0000000089, 0xfe), (0xf000000008a, 0xcb), (0xf000000008b, 0x35), (0xf000000008c, 0x88), (0xf000000008d, 0x43), (0xf000000008e, 0xd), (0xf000000008f, 0xc3), (0xf0000000090, 2), (0xf0000000094, 8), (0xf0000000095, 3), (0xf0000000098, 8), (0xf00000000a1, 0x20), (0xf00000000a9, 0x20), (0xf00000000e0, 4)] ++
    [(0xf00000000e4, 0x10), (0xf00000000e5, 3), (0xf00000000e8, 8), (0xf00000000f1, 0x30), (0xf00000002d0, 3), (0xf00000002d1, 0xd3), (0xf00000002d2, 0xdd), (0xf00000002d3, 0x54), (0xf00000002d4, 0xc6), (0xf00000002d5, 0x62), (0xf00000002d6, 0x6f), (0xf00000002d7, 0x67), (0xf00000002d8, 0x6f), (0xf00000002d9, 0xc4), (0xf00000002da, 0x55), (0xf00000002db, 0x34), (0xf00000002dc, 0x7b), (0xf00000002dd, 0xf0), (0xf00000002de, 0xf2), (0xf00000002df, 0x95), (0xf00000002e0, 0x70), (0xf00000002e1, 0x79), (0xf00000002e2, 0xec), (0xf00000002e3, 0xee), (0xf00000002e4, 0x9f), (0xf00000002e5, 0x42), (0xf00000002e6, 0x40), (0xf00000002e7, 0x26), (0xf00000002e8, 0x67), (0xf00000002e9, 0xa1), (0xf00000002ea, 0xeb), (0xf00000002eb, 0x45), (0xf00000002ec, 0xf1), (0xf00000002ed, 0xbf), (0xf00000002ee, 0xee), (0xf00000002ef, 0x53), (0xf00000002f0, 0xc0), (0xf00000002f1, 0x45), (0xf00000002f2, 0x87), (0xf00000002f3, 0xf8)] ++
    [(0xf00000002f4, 0x4b), (0xf00000002f5, 0xab), (0xf00000002f6, 0xb2), (0xf00000002f7, 0x88), (0xf00000002f8, 0x79), (0xf00000002f9, 0x19), (0xf00000002fa, 6), (0xf00000002fb, 0x38), (0xf00000002fc, 0x53), (0xf00000002fd, 0x76), (0xf00000002fe, 0x25), (0xf00000002ff, 0x8d)])
set_option maxRecDepth 8000 in
theorem witness_BootSourcesAndRecoveryLoader :
    (sourceTimedOut timedOut = true ∧ (srcList timedOut).length ≤ timedOut.boot.listPos + 1 ∧ sourceTimedOut waitingRom = false ∧ waitingRom.boot.rom = .waiting ∧ base.boot.rom ≠ .waiting ∧ (booting { rom := .done } []).boot.rom ≠ .waiting) ∧
    (∃ f d : List Byte, f = bootFrameOf 0 0 d ∧ (srcList waitingRom)[waitingRom.boot.listPos]? = some 4 ∧ f.take 6 = deviceMac ∧ beNat (bytesAt f 12 2) = 0x88B5 ∧ leNat (bytesAt f 14 1) ≤ 1 ∧
      leNat (bytesAt f 18 4) = waitingRom.boot.gotA ∧ 1 ≤ (f.drop 22).length ∧ (f.drop 22).length ≤ 1400 ∧ leNat (bytesAt f 18 4) + (f.drop 22).length ≤ 0x1000000 ∧ pageLocked waitingRom 0xF0000000000 (f.drop 22).length = false) ∧
    (leNat (bytesAt (bootFrameOf 1 5 []) 14 1) ≤ 1 ∧ leNat (bytesAt (bootFrameOf 1 5 []) 18 4) ≠ waitingRom.boot.gotB ∧ leNat (bytesAt (bootFrameOf 0xFF 0 []) 14 1) = 0xFF) ∧
    (slotCause waitingRom (memSlot waitingRom 0xF0001000000) waitingRom.boot.gotB false ≠ 0) ∧
    ((booting { rom := .hello } []).boot.rom = .hello ∧ parseRec [0x7E] = none ∧ parseRec (recFrame 2 5 (natLe 4 491520)) = some (2, 5, some (natLe 4 491520)) ∧ leNat (natLe 4 491520) ≤ 491520 ∧ 491520 < leNat (natLe 4 491521)) ∧
    (parseRec (recFrame 3 6 [0, 0, 0, 0, 9]) = some (3, 6, some [0, 0, 0, 0, 9]) ∧ (let s := booting { rom := .receiving, recLen := 1 } [];
      s.boot.rom = .receiving ∧ leNat ([0, 0, 0, 0, 9].take 4 : List Byte) = s.boot.recGot ∧ s.boot.recGot + 1 ≤ s.boot.recLen ∧ pageLocked s (0xF0040100000 + s.boot.recGot) 1 = false ∧ (0 : Nat) < 0 + 1)) ∧
    parseRec (recFrame 4 7 []) = some (4, 7, some []) ∧
    (recovery.boot.checking = some (0, true) ∧ recovery.boot.rom = .verifying ∧ recoveryOk (booting { rom := .verifying } []) 0 0 = false) := by
  refine ⟨by decide, ⟨_, [1], rfl, rfl, rfl, rfl, by decide, by decide, by decide, by decide, by decide, by decide⟩, by decide, by decide, by decide, by decide, by decide, by decide⟩
/-- The recovery image passes on a device whose fused key hash is that of its key. -/
theorem witness_BootSourcesAndRecoveryLoader_signed (h : customerKeyHash = sha384 (rdBytes recovery (0xF0040100000 + 0x30) 97)) : recoveryOk recovery 0xF0040100000 0x160 = true := by
  have e : ecdsaOk (rdBytes recovery (0xF0040100000 + 0x30) 97) (rdBytes recovery 0xF0040100000 (0x100 + rdNat recovery (0xF0040100000 + 0x0C) 4))
    (rdBytes recovery (0xF0040100000 + 0x100 + rdNat recovery (0xF0040100000 + 0x0C) 4) 96) = true := by decide +kernel
  have z : (rdBytes recovery (0xF0040100000 + 0x20) 16 == List.replicate 16 0) = true := by decide +kernel
  simp only [recoveryOk, h, e, z, Bool.and_true, Bool.true_or, beq_self_eq_true]
  decide +kernel
/-- The device key of a zero secret and a zero unique ID. -/
theorem test_deviceKey (h : ∀ k, 2 ≤ k → k < 8 → Config.fuseWord k = 0) : deviceKey slotted =
    natLe 48 0x0b51fe3540761f45f582b09f3f59c317eb471cf3c2d1a61540bc8d041f1387a9a04663e1293716155b0f67944437826b := by
  have f : fuseBytes 4 4 = List.replicate 32 0 := by simp [fuseBytes, List.range_succ, h]; decide
  have u : uidBytes = List.replicate 16 0 := by simp [uidBytes, h]; decide
  simp only [deviceKey, f, u]
  decide +kernel
/-- On such a device slot A passes; slot B is empty. -/
theorem witness_BootSourcesAndRecoveryLoader_slot (h : ∀ k, 2 ≤ k → k < 8 → Config.fuseWord k = 0) :
    slotCause slotted (memSlot slotted 0xF0000000000) slotted.boot.gotA (slotted.boot.skipA && decide (slotted.boot.skipSrc = 4)) = 0 ∧
      slotCause slotted (memSlot slotted 0xF0001000000) slotted.boot.gotB (slotted.boot.skipB && decide (slotted.boot.skipSrc = 4)) ≠ 0 := by
  refine ⟨?_, by decide⟩
  have e1 : stage1 (memSlot slotted 0xF0000000000) = 0 := by decide +kernel
  have e2 : partOff (memSlot slotted 0xF0000000000) 0 = 0x300 := by decide +kernel
  have e3 : partLen (memSlot slotted 0xF0000000000) 0 = 8 := by decide +kernel
  have e4 : headerForm (memSlot slotted 0xF0000000000) = true := by decide +kernel
  have e5 : slotNat (memSlot slotted 0xF0000000000) 0x14 2 = 0x9140 ∧ slotNat (memSlot slotted 0xF0000000000) 0x16 1 = 0x20 ∧ (slotNat (memSlot slotted 0xF0000000000) 0x17 1).testBit slotted.boot.lc.toNat = true := by decide +kernel
  have e6 : slotNat (memSlot slotted 0xF0000000000) 8 4 = 0xFFFFFFFF := by decide +kernel
  have e7 : ¬ 0xFFFFFFFF < rollbackMin slotted := by unfold rollbackMin; have := ((Config.fuseWord 1).setWidth 32 ||| slotted.boot.minBlown).isLt; omega
  have e8 : slotted.boot.gotA = 0x400 ∧ slotted.boot.skipA = false := by decide
  have m1 : macOf slotted (memSlot slotted 0xF0000000000 0 0x2D0) = memSlot slotted 0xF0000000000 0x2D0 48 := by rw [macOf, test_deviceKey h]; decide +kernel
  have m2 : macOf slotted (stage1Bytes (memSlot slotted 0xF0000000000)) = memSlot slotted 0xF0000000000 (0x60 + 80 * 0) 48 := by
    rw [stage1Bytes, e1, e2, e3, macOf, test_deviceKey h]; decide +kernel
  simp [slotCause, e1, e2, e3, e4, e5.1, e5.2.1, e5.2.2, e6, e7, e8.1, e8.2, m1, m2]

/-- The same device with a fused list of a host and then flash 1, whose slot A holds what the delivered one did; its slot B is empty. -/
def flashed : State := { booting { rom := .waiting, strap := 6, gotA := 0x400, waitFrom := some 0 } slotted.mem with now := 5000000000 }
theorem witness_BootSourcesAndRecoveryLoader_flash (h : ∀ k, 2 ≤ k → k < 8 → Config.fuseWord k = 0) (hl : srcList flashed = [4, 1])
    (ha : flashSlot flashed.free 1 0 = memSlot slotted 0xF0000000000) (na : Config.flashLen flashed.free 1 0 = 0x400) (nb : Config.flashLen flashed.free 1 1 = 0) :
    sourceTimedOut flashed = true ∧ (srcList flashed)[flashed.boot.listPos + 1]? = some 1 ∧
      slotCause flashed (flashSlot flashed.free 1 0) (Config.flashLen flashed.free 1 0) (flashed.boot.skipA && decide (flashed.boot.skipSrc.toNat = 1)) = 0 ∧
      slotCause flashed (flashSlot flashed.free 1 1) (Config.flashLen flashed.free 1 1) (flashed.boot.skipB && decide (flashed.boot.skipSrc.toNat = 1)) ≠ 0 := by
  refine ⟨by decide, by rw [hl]; rfl, ?_, by rw [nb]; simp [slotCause, flashed, booting]⟩
  rw [ha, na]
  exact (witness_BootSourcesAndRecoveryLoader_slot h).1

theorem witness_ResetsKeepWhatTheRulesKeep : ((booting { porst := true, por := true } []).boot.porst = true ∧ (booting { porst := true, por := true } []).boot.por = true) ∧
    (State.reset.boot.porst = true ∧ State.reset.boot.por = false ∧ State.reset.cores = []) ∧
    ((booting { porst := false } []).boot.porst = false ∧ (booting { porst := false } []).boot.por = false) ∧
    (let s : State := { boot := { porst := false, por := true } }; s.boot.por = true ∧ s.boot.porst = false ∧ s.cores = []) ∧
    (∀ k ∈ srcList slotted, 3 ≤ k) ∧ isMld mld = true ∧ (0x3C : Word).toNat % 256 = 0x3C ∧ (0x3D : Word).toNat % 256 ≠ 0x3C := by decide

/-! ### Witnesses: debug -/

/-- The debug block in a state. -/
def debugging (now : Word) (d : DbgSt) (rs : List (Nat × Word)) : State := { timed now [] {} with dbg := d, regs := rs }
/-- Core 0 with task 7 of cell 1, in a mode; cell 1 in a state. -/
def cored (d : DbgSt) (m : CoreMode) (cs : CellState) : State :=
  { with' { debugging 0 d [(0xF8000070020, 1)] with cells := [(1, { state := cs })] } 0 (fun k => { k with mode := m, level := 0, cell := some 1, task := some 7 }) with sched := { tcbs := [(7, { cell := 1, state := .running })] } }
/-- A DBGREG scan: a write, or a read, of the register at an offset. -/
def scanOf (off : Nat) (write : Bool) : BitVec 80 := BitVec.ofNat 80 (off / 8 * 2 ^ 64 + (if write then 2 ^ 77 else 0))
/-- The window with a certificate for level 2, signed by the private key 12345, for a debugger whose key is 99. -/
def certified : DbgSt := { auth := .checking, port := some true, window := ((List.range 48).map (fun i => (i, BitVec.ofNat 64
  (0x6156d1a89931fad8cade9ec4ae2bf0590339296ddb97e7f20ff5b36bd3c90e714a96b3ced87f6a2c587d6d7cc2b5324ebd87123b0a669b49697097ab776dd772e07174f5f4c359b6cc2b555e5007d01e7f3b1b6b7f0c45af9e907fe05b66fa4600000000000000000000000000000000000000000000000000000000000000486104f043226125161a8c3dc174cf43bdec9b62a6dd1f46b2ef4affe1c1beaabf0b693a3c6ece41ddb0441f2c9f5b481b8ba8fd899a173bcb3cb0516904908dc35a2acb1d2e976ccda10088582f68b4cdcdd8d5b7a6952a314d0e355e996be80400000000000000000000000000000004383d93ad6a6e22cfa8cea7d4ba51b501f93935ced40b554d11c5bd42b2bcda0af28fc6a09f33d3cd3fdf6c0b0574cfe48bce79522512e0e0c729f2194f90018550c60c1edc2da93a18835762c33d997c6d23662d270f3acb6d7604ed9ba16904000000000000000000000000000000000000000000000000000000000000000000000000002091400001020143474244 >>> (64 * i)))))
    }
/-- The same with a nonce and its response, the ephemeral private key being 5. -/
def answered : DbgSt := { certified with responding := true, ephKey := 5, cert := winBytes (debugging 0 certified []) 0 0x180, nonce := natLe 48 0x2f2e2d2c2b2a292827262524232221201f1e1d1c1b1a191817161514131211100f0e0d0c0b0a09080706050403020100, window := certified.window ++ ((List.range 12).map (fun i => (61 + i, BitVec.ofNat 64
  (0x1dbe8541aad1e63856a978da42b3a14aef49995b68bbef5ca8e1d6bf1dced6660bcd0e6a2befd7c017dd9ece18e478e62f2e2d2c2b2a292827262524232221201f1e1d1c1b1a191817161514131211100f0e0d0c0b0a09080706050403020100 >>> (64 * i))))) }
set_option maxRecDepth 16000 in
theorem witness_DebugSessionsAndRunControl :
    (({ ir := 8 } : DbgSt).ir = 8 ∧ ({} : DbgSt).tapStatus ≠ 1 ∧ ({} : DbgSt).ir ≠ 8 ∧ (scanOf 8 false).extractLsb' 78 2 = 0 ∧ dbgAt (((scanOf 8 false).extractLsb' 64 13).toNat * 8) = some (.dbgStatus, 0) ∧
      dbgReach (debugging 0 { ir := 8 } []) true .dbgStatus = true ∧ dbgReach (debugging 0 { ir := 8 } []) true .dbgCtrl = false ∧ dbgAt (((scanOf 0 false).extractLsb' 64 13).toNat * 8) = some (.dbgCtrl, 0) ∧
      (scanOf 8 false).getLsbD 77 = false ∧ (scanOf 0x4F8 true).getLsbD 77 = true ∧ dbgAt (((scanOf 0x4F8 true).extractLsb' 64 13).toNat * 8) = some (.dbgAuthData, 127) ∧
      dbgReach (debugging 0 { ir := 8 } []) true .dbgAuthData = true) ∧
    (({} : DbgSt).port ≠ some false ∧ ({} : DbgSt).port = none ∧ ({} : DbgSt).auth ≠ .lockout ∧ ({ fails := 7 } : DbgSt).fails.toNat < 8 ∧ 8 ≤ ({ fails := 8 } : DbgSt).fails.toNat ∧ certified.port = some true) ∧
    (let s := debugging 1000000000 { auth := .challenged } [];
     s.dbg.auth = .challenged ∧ s.now.toNat ≤ s.dbg.since.toNat + 1000000000 ∧ s.dbg.since.toNat + 1000000000 ≤ s.now.toNat ∧ s.dbg.since.toNat + 1000000000 < (1000000001 : Word).toNat ∧
      (999999999 : Word).toNat < s.dbg.since.toNat + 1000000000) ∧
    (isHyp (by' 2) = true ∧ isHyp (by' 0) = false) ∧
    (let s := cored { level := 2 } .run .active;
     (s.dbg.level.toNat ≠ 0 ∧ runCover s s.dbg.level.toNat (selCell s) = true) ∧ ¬ (({} : DbgSt).level.toNat ≠ 0) ∧ cellState s (selCell s) = .active ∧ (getDbgCell s (selCell s)).waiting = [] ∧
      debugMode s (selCell s) = false ∧ ctiIn s (selCell s) = 0 ∧ isSafety s.comp.live (selCell s) = false ∧ runningCores s (selCell s) = [0] ∧ runningCores (cored { level := 2 } .free .active) 1 = []) ∧
    (cellState (cored { level := 2 } .run .halted) (selCell (cored { level := 2 } .run .halted)) = .halted) ∧
    (let s := cored { cells := [(1, { ctrl := 0x8000 })] } .run .active;
     s.dbg.cells.map (·.1) = [1] ∧ cellState s 1 = .active ∧ ctiOut s 1 &&& (0x8000 : Word).toNat % 65536 ≠ 0 ∧ ctiOut s 1 &&& (0x10000 : Word).toNat % 65536 = 0 ∧ (getDbgCell s 1).waiting = [] ∧
      debugMode s 1 = false ∧ isSafety s.comp.live 1 = false) ∧
    (let s := cored { level := 2 } .stopped .halted;
     (getCore s (selCore s)).cell = some 1 ∧ s.dbg.level.toNat ≠ 0 ∧ runCover s s.dbg.level.toNat 1 = true ∧ (getCore s (selCore s)).mode = .stopped ∧ (getCore s (selCore s)).task ≠ none ∧ cellState s 1 = .halted ∧
      s.dbg.level ≠ 3 ∧ coreCover s (selCore s) = true ∧ (63 : Word).toNat % 65536 = 63 ∧ (63 : Word).toNat / 65536 % 4 = 0 ∧ (getCore s (selCore s)).ctx.pendGroups = 0 ∧ (63 : Word).getLsbD 20 = false ∧
      (0x10003F : Word).getLsbD 20 = true ∧ (0x10003F : Word).toNat % 65536 = 63 ∧ (0x10003F : Word).toNat / 65536 % 4 = 0) ∧
    (let s := cored { level := 3, coreHalts := [0] } .run .active;
     s.dbg.level = 3 ∧ haltable (getCore s (selCore s)) = true ∧ (getCore s (selCore s)).mode ≠ .stopped ∧ s.dbg.coreHalts.contains (selCore s) = true ∧ haltable (getCore (cored {} .locked .active) 0) = false) ∧
    (let s := debugging 0 { level := 3 } [(0xF8000070078, 0xFFFFFFFFFFF)];
     s.dbg.busBusy = false ∧ 2 ≤ (0x31000 : Word).toNat / 65536 % 4 ∧ 2 ≤ (0x21000 : Word).toNat / 65536 % 4 ∧ s.dbg.level = 3 ∧ (0x31000 : Word).getLsbD 12 = true ∧ (stored s .dbgBusAddr 0xF8000070078).toNat / 8 * 8 < 2 ^ 44 ∧
      s.dbg.busBlocked = false ∧ ({ busBlocked := true } : DbgSt).busBlocked = true) ∧
    ((stored (debugging 0 {} []) .dbgTrcCtrl 0xF8000070088).getLsbD 0 = false ∧ (1 : Word).getLsbD 1 = false ∧ (3 : Word).getLsbD 1 = true ∧ ({} : DbgSt).auth ≠ .opened) ∧
    (let s := debugging 0 certified [];
     s.dbg.auth = .checking ∧ s.dbg.responding = false ∧ certOk base = false ∧ answered.auth = .checking ∧ answered.responding = true ∧ responseOk (debugging 0 answered []) = true ∧
      responseOk (debugging 0 { answered with ephKey := 6 } []) = false) ∧
    (({ auth := .lockout } : DbgSt).auth = .lockout) := by
  refine ⟨by decide, by decide, by decide, by decide, by decide, by decide, by decide +kernel, by decide, by decide, by decide, by decide, by decide +kernel, by decide⟩
/-- The certificate passes on a device whose fused key hash is that of its signer's key. -/
theorem witness_DebugSessionsAndRunControl_signed (h : customerKeyHash = sha384 (winBytes (debugging 0 certified []) 0xA0 97)) : certOk (debugging 0 certified []) = true := by
  have f : certFields (debugging 0 certified []) = true := by decide +kernel
  have e : ecdsaOk (winBytes (debugging 0 certified []) 0xA0 97) (winBytes (debugging 0 certified []) 0 0x120) (winBytes (debugging 0 certified []) 0x120 96) = true := by decide +kernel
  simp only [certOk, f, e, h, Bool.and_true, beq_self_eq_true]

/-! ### Witnesses: registers, ports and DMA -/

theorem witness_RegisterAccessesAreJudgedByField :
    (regAt ((0xF8000051000 : BitVec 44).toNat / 8 * 8) ≠ none ∧ regAt ((0xF8000BFFFF8 : BitVec 44).toNat / 8 * 8) = none ∧ blockOf base (by' 2).init 2 (by' 2).cell = none ∧ freeBlock base ≠ none) ∧
    (Half.low ≠ .high ∧ Half.full ≠ .high ∧ (38 : Word).toNat % 64 ≤ 38 ∧ 38 < (39 : Word).toNat % 64 ∧ (39 : Word).toNat % 64 ≠ fld (stored base .pwrDomSel 0xF8000050010) 5 0) ∧
    ((by' 2).peek = false ∧ ({ by' 2 with peek := true } : Access).peek = true) ∧
    (let s := composed [rec' tEXPERT [3, 0, 0, 0, 1, 0, 0, 0, 0, 0, 0, 0]];
     (1 : Word).getLsbD 0 ≠ (stored s .pwrCtrl 0xF8000050000).getLsbD 0 ∧ (isHyp (by' 2) = true ∧ s.comp.isSealed = true ∧ expertPermit s.comp.live 3 0 = true) ∧ expertPermit (composed []).comp.live 3 0 = false) ∧
    (0 : Word).getLsbD 3 = false ∧ ownsInstance base (by' 2) 0 0 = true := by decide +kernel

/-- The ports' state, registers and a composition. -/
def periph (x : PeriSt) (regs : List (Nat × Word)) (rs : List Rec) : State := { timed 0 rs {} with peri := x, regs := regs }
/-- An inbound read of 64 bytes by requester 1; the requester mapped to cell 1. -/
def inbound' (a : BitVec 64) (w : Bool) : PcieReq := { port := 0, rid := 1, tc := 0, pasid := none, at2 := 0, addr := a, write := w, data := if w then [0x40, 0, 0, 0] else [], len := 64 }
def mapR : Rec := rec' tIOMMU [1, 0, 1, 0, 0xFF, 0xFF, 0xFF, 0xFF]
def linked : State := periph { pcie := [(0, { l0 := true })] } [] [mapR, routed 448]
/-- Channel 0 on UART_0 with one descriptor at an address: four bytes of memory to send, its event asked for. -/
def moving (cur : Nat) : State :=
  { periph { dma := [(0, { op := { st := 1 }, cur := cur, begun := true })] } [] [] with
    mem := [(0xF0000000001, 1), (0xF0000000005, 0x0F), (0xF0000000008, 4), (0xF000000000C, 1), (0xF0000000100, 7)] }
set_option maxRecDepth 16000 in
theorem witness_PortsRaiseTheirEventsAndDmaMoves :
    (let s := periph {} [] [];
     (4 : Word).getLsbD 0 = (pcieCtrlWord s).getLsbD 0 ∧ (4 : Word).toNat / 2 % 4 ≤ 2 ∧ (∀ p, p < 4 → (portCtrl s p).getLsbD 0 = false) ∧ portExists s 0 = true ∧ inRun s 37 = true ∧ (portCtrl s 0).getLsbD 1 = false) ∧
    (let s := periph {} [(0xF8000800010, 1)] [];
     (∃ p, p < 4 ∧ (portCtrl s p).getLsbD 0 = true) ∧ (4 : Word).toNat / 2 % 4 ≠ bifur s ∧ (portCtrl s 0).getLsbD 0 = true ∧ (portCtrl s 0).getLsbD 1 = false) ∧
    (inRun linked 37 = true ∧ (getPcie linked 0).l0 = true ∧ portExists linked 0 = true ∧ endpointRole linked = false ∧ linked.peri.posted = [] ∧ mapCell linked 1 none = some 1 ∧ mapCell linked 2 none = none ∧
      cellState linked 1 = .active ∧ cellState { linked with cells := [] } 1 ≠ .active ∧ ({ inbound' 0 false with at2 := 1 } : PcieReq).at2 ≠ 0) ∧
    ((inbound' 0xFEE00000 true).write = true ∧ (inbound' 0xFEE00000 true).data.length = 4 ∧ msiRouted linked (inbound' 0xFEE00000 true) (384 + leNat (inbound' 0xFEE00000 true).data % 512) = true ∧
      ru8 (routed 448) 6 = 0) ∧
    (let s := periph {} [(0xF8000A00048, 0x80000000)] [];
     padDrive s 15 = none ∧ s.peri.gpioIn.getLsbD 15 = false ∧ (gpioReg s .periGpioEdge 0x48).getLsbD (2 * 15 + if false then 0 else 1) = true ∧ inRun s 38 = true) ∧
    ((getSerial (periph { serial := [(0, { rx := List.replicate 31 0 })] } [] []) 0).rx.length = 31 ∧ 64 ≤ (getSerial (periph { serial := [(0, { rx := List.replicate 64 0 })] } [] []) 0).rx.length) ∧
    ((getDma base (selChan base)).op.st ≠ 1 ∧ ((0x1100 : Word).extractLsb' 8 8).toNat ∈ dmaPorts ∧ ((0x0200 : Word).extractLsb' 8 8).toNat ∉ dmaPorts ∧ (getDma (moving 0) (selChan (moving 0))).op.st = 1) ∧
    (let c := getDma (moving 0xF0000000000) 0;
     c.op.st = 1 ∧ c.paused = false ∧ inRun (moving 0xF0000000000) 38 = true ∧ c.begun = true ∧ c.op.abortReq = false) := by
  refine ⟨by decide, by decide, by decide, by decide, by decide, by decide, by decide, by decide⟩
theorem witness_PortsRaiseTheirEventsAndDmaMoves_translates :
    ∃ s1 l, iommuXlate linked 1 0 false = (s1, .ok l) ∧ s1.peri.posted = [] ∧ (inbound' 0 false).write = false ∧ l.pa % 64 + (inbound' 0 false).len ≤ 64 := ⟨_, _, rfl, rfl, rfl, by decide⟩
/-- The descriptor is worked off; where nothing answers, it fails. -/
def dmaEnds (s : State) : Bool :=
  match dmaRead (updDma s 0 (fun x => { x with begun := true })) 0 (linePieces 33 (getDma s 0).cur 32) [] with
  | .ok s1 bs => match dmaDesc bs with
    | some d => dmaReady s1 0 d && (match dmaMove s1 0 d with | .ok s2 _ => (match dmaMark s2 0 d with | .ok _ _ => d.flags.testBit 0 | _ => false) | _ => false)
    | none => false
  | .wait _ | .error _ | .pause _ => false
theorem witness_PortsRaiseTheirEventsAndDmaMoves_done : dmaEnds (moving 0xF0000000000) = true := by decide +kernel
theorem witness_PortsRaiseTheirEventsAndDmaMoves_fails :
    ∃ s1, dmaRead (updDma (moving 0xFFFFFFFFF00) 0 (fun x => { x with begun := true })) 0 (linePieces 33 0xFFFFFFFFF00 32) [] = .error s1 := ⟨_, rfl⟩

/-! ### Witnesses: compositions, the invariant -/

/-- An image: a header, one section, which removes cell 1, and a MAC that an unverified boot does not ask for. -/
def image (flags seq base' scope : Byte) : List Byte :=
  let h : List Byte := [0x43, 0x4F, 0x4D, 0x50, 1, 0, 0x40, 1, seq, 0, 0, 0, flags, 0, 0, 0, 0x78, 1, 0, 0, 0x40, 0x91, 0x20, scope, 1, 0, 0, 0, 0, 0, 0, 0] ++ List.replicate 20 0 ++ [base', 0, 0, 0, 0, 0, 0, 0]
  let x : List Byte := [3, 0, 4, 0, 1, 0, 1, 0]
  let d : List Byte := [0, 0, 0, 0, 0x40, 1, 0, 0, 8, 0, 0, 0] ++ natLe 4 (crc32c x) ++ List.replicate 240 0
  h ++ natLe 4 (crc32c (h ++ d)) ++ d ++ x ++ List.replicate 48 0
/-- The engine in a state with an image at the start of scratch. -/
def loading (e : Engine) (part abort : Bool) (im : List Byte) (pz : List Nat) : State :=
  { base with
    mem := (((List.range im.length).map (fun i => (0xF0000000000 + i, im.getD i 0))).filter (fun c => c.2 ≠ 0))
    poison := pz, boot := { unverified := true }
    comp := { engine := e, isSealed := part, partialMode := part, srcAddr := 0xF0000000000, srcLen := 0x178, live := [rec' tCELL (1 :: List.replicate 19 0)], op := { st := 1, abortReq := abort } } }
theorem witness_CompositionsLoadSealAndRecompose_loads :
    (isHyp (by' 2) = true ∧ isHyp (by' 0) = false ∧ isMld mld = true ∧ isMld (by' 2) = false ∧ (loading .empty false false [] []).comp.engine = .empty ∧ srcPlaced (loading .empty false false [] []) = true ∧ srcPlaced base = true ∧
      srcPlaced { base with comp := { srcAddr := 0xEFFFFFFF000 } } = false) ∧
    ((loading .checking false true [] []).comp.op.abortReq = true ∧ srcPoisoned (loading .checking false false [] [0x1E000000000]) = true ∧ srcPoisoned (loading .checking false false [] []) = false) := by decide
set_option maxRecDepth 4000 in
/-- Rule 0x01 fails on an empty region, and rule 0x09 on an old sequence number; the image passes the form rules, and the
composition it gives those of the plan. -/
theorem witness_CompositionsLoadSealAndRecompose_judges :
    (let s := loading .staging true false (image 1 1 0 1) [];
     s.comp.op.abortReq = false ∧ srcPoisoned s = false ∧ (firstFailing (formRules s (srcBytes s) (srcLen s))).isNone = true ∧ (firstFailing (planRules (judgeOf s (srcBytes s)))).isNone = true) ∧
    (let s := loading .checking false false [] []; ((firstFailing (formRules s (srcBytes s) (srcLen s))).map (·.1)) = some 1) ∧
    (let s := loading .staging true false (image 1 0 0 1) []; ((firstFailing (formRules s (srcBytes s) (srcLen s))).map (·.1)) = some 9) ∧
    (let s := loading .validating false false (image 0 1 0 1) []; ((firstFailing (planRules (judgeOf s (srcBytes s)))).map (·.1)) = some 0x10) := by decide +kernel
/-- A staged recomposition of cell 1 (replaced), cell 2 (removed) and cell 3 (added). -/
def staged (e : Engine) (cs : CellState) : State :=
  { base with cells := [(1, { state := cs }), (2, { state := cs })], comp := { engine := e, isSealed := true, targets := [(1, 0), (2, 1), (3, 2)] } }
theorem witness_CompositionsLoadSealAndRecompose_recomposes :
    ((staged .staged .halted).comp.engine = .staged ∧ (oldTargets (staged .staged .halted)).any (fun c => cellState (staged .staged .halted) c = .halted || cellState (staged .staged .halted) c = .faulted) = true ∧
      (oldTargets (staged .staged .active)).any (fun c => cellState (staged .staged .active) c = .halted || cellState (staged .staged .active) c = .faulted) = false ∧
      1 ∈ oldTargets (staged .staged .active) ∧ cellState (staged .staged .active) 1 = .active) ∧
    ((staged .quiesced .quiesced).comp.engine = .quiesced ∧ 2 ∈ oldTargets (staged .quiesced .quiesced) ∧ cellState (staged .quiesced .quiesced) 2 = .quiesced) ∧
    ((staged .quiescing .quiesced).comp.engine = .quiescing ∧ (oldTargets (staged .quiescing .quiesced)).all (cellQuiet (staged .quiescing .quiesced)) = true ∧ (staged .quiescing .quiesced).comp.op.abortReq = false) ∧
    ((staged .committing .quiesced).comp.engine = .committing ∧ (staged .committing .quiesced).comp.cleaning = []) ∧
    ((staged .committed .quiesced).comp.engine = .committed ∧ (3, 2) ∈ (staged .committed .quiesced).comp.targets ∧ (1, 0) ∈ (staged .committed .quiesced).comp.targets) := by decide

theorem witness_StepRunsTheFrontCommand : State.reset.pending = [] := rfl
/-- A state that is not the reset state, with memory and two commands waiting, meets the invariant. -/
theorem witness_InvKeptByEveryStep : Inv { base with mem := [(3, 1), (9, 2)], pending := [.closeSession (by' 2) 0, .timerExpiry 255] } := by
  refine ⟨by decide, ?_⟩; decide

/-! ### Ill-formed commands, one for each check -/

/-- A request of core 0 whose parts are given. -/
def asked (k : ReqKind) (a : BitVec 44) (n : Nat) (d : List Byte) : Req := { req k a d with size := n }
theorem test_wf_access : (Instr.compSeal mld 0).wf = true ∧ (Instr.compSeal { mld with init := 0x102 } 0).wf = false ∧ (Instr.compSeal { mld with init := 0x300, level := 2 } 0).wf = false ∧
    (Instr.compSeal { mld with peek := true } 0).wf = false := by decide
theorem test_wf_register_address : (Instr.rcRead (by' 2) 0xF8000050010 .full).wf = true ∧ (Instr.rcRead (by' 2) 0xF8000050011 .full).wf = false ∧ (Instr.dataPop (by' 2) 0x2000).wf = false := by decide
theorem test_wf_slot : (Instr.move 0 { imm 5 with long := true } 0).wf = true ∧ (Instr.tAdd 0 0 { imm 5 with long := true, pos := .first }).wf = false ∧
    (Instr.tLd 0 { imm 5 with long := true, slotB := true }).wf = false := by decide
theorem test_wf_requests : (Instr.fabricTransactionIssue 0 (some (asked .read 0x2000 64 []))).wf = true ∧ (Instr.fabricTransactionIssue 1 (some (asked .read 0x2000 8 []))).wf = false ∧
    (Instr.fabricTransactionIssue 0x20 none).wf = false ∧ (Instr.slcRequest (asked .read 0x2000 8 []) 4).wf = false ∧ (Instr.slcRequest (asked .read 0x2000 0 []) 2).wf = false ∧
    (Instr.slcRequest (asked .read 0x2039 8 []) 2).wf = false ∧ (Instr.slcRequest (asked .write 0x2000 2 [1]) 2).wf = false ∧ (Instr.slcRequest (asked .swap 0x2002 4 [1, 2, 3, 4]) 2).wf = false ∧
    (Instr.slcRequest (asked .lr 0x2000 3 []) 2).wf = false ∧ (Instr.scratchAccess (asked .read 0x2000 8 [])).wf = false ∧ (Instr.hmcRequest 0 (asked .read 0xF0000000000 8 [])).wf = false := by decide
theorem test_wf_units : (Instr.retrain stranger 1 0).wf = false ∧ (Instr.ringConsWrite (by' 2) 0 3072 0).wf = false ∧ (Instr.ringEnable (by' 2) 2 2 0).wf = false ∧ (Instr.rxHdrWriteDone 3072).wf = false := by decide
theorem test_wf_frames : (Instr.ethFrameReceive 0 (List.replicate 13 0) true).wf = false ∧ (Instr.canxlFrameReceive 0 (List.replicate 11 0)).wf = false ∧
    (Instr.inboundPcieRequest { inbound' 0 true with len := 5 }).wf = false ∧ (Instr.inboundPcieRequest { inbound' 0 false with len := 0 }).wf = false := by decide

/-! ### One step each: the function units. The results are those of the tables of chapter 6. -/

/-- Core 0, or S-core 0, with values in its ports, and the first operation in flight after a command. -/
def ported (ps : List (Nat × VWord)) : State := with' base 0 (fun k => { k with ctx := { k.ctx with ports := ps } })
def flightOf (o : Host.Outcome State Fault Refusal) : Option Flight := (getCore (after o) 0).ctx.flights.head?
def qOf (o : Host.Outcome State Fault Refusal) : Option VWord := (flightOf o).map (·.q)
/-- R115: sums and differences wrap; shift amounts are bits 5:0; compares are signed or unsigned and name a predicate. -/
theorem test_alu : qOf (exec (.tAdd 0 0 (imm 1)) (ported [(112, 0xFFFFFFFFFFFFFFFF)])) = some 0 ∧ qOf (exec (.tSub 0 1 (imm 1)) (ported [(144, 0)])) = some 0xFFFFFFFFFFFFFFFF ∧
    qOf (exec (.tShl 0 0 (imm 65)) (ported [(112, 3)])) = some 6 ∧ qOf (exec (.tSar 0 0 (imm 63)) (ported [(112, 0x8000000000000000)])) = some 0xFFFFFFFFFFFFFFFF ∧
    qOf (exec (.tRor 0 0 (imm 8)) (ported [(112, 0x1122334455667788)])) = some 0x8811223344556677 ∧ qOf (exec (.tAndn 0 0 (imm 0xF0)) (ported [(112, 0xFF)])) = some 0x0F := by decide
theorem test_alu_compares : qOf (exec (.tCmplt 0 0 { imm 0 with ext := 1 }) (ported [(112, 0xFFFFFFFFFFFFFFFF)])) = some 1 ∧
    (flightOf (exec (.tCmplt 0 0 { imm 0 with ext := 1 }) (ported [(112, 0)]))).map (·.pred) = some 1 ∧ qOf (exec (.tCmpltu 0 0 (imm 0)) (ported [(112, 0xFFFFFFFFFFFFFFFF)])) = some 0 := by decide
/-- R116: a field of 8 bits from bit 4; R117 and R118: the high product and the division corners. -/
theorem test_bfu_mul_div : qOf (exec (.tExtract 0 (imm 0xABCD)) (ported [(176, 0x0704)])) = some 0xBC ∧ qOf (exec (.tExtracts 0 (imm 0xABCD)) (ported [(176, 0x0704)])) = some 0xFFFFFFFFFFFFFFBC ∧
    qOf (exec (.tClz 0 (imm 1)) (ported [])) = some 63 ∧ (flightOf (exec (.tMulu 0 (imm 0xFFFFFFFFFFFFFFFF)) (ported [(192, 2)]))).map (·.qh) = some 1 ∧
    qOf (exec (.tDiv 0 (imm 0xFFFFFFFFFFFFFFFF)) (ported [(208, 0x8000000000000000)])) = some 0x8000000000000000 ∧
    (flightOf (exec (.tDivu 0 (imm 0)) (ported [(208, 7)]))).map (fun f => (f.q, f.qh)) = some (0xFFFFFFFFFFFFFFFF, 7) ∧
    (flightOf (exec (.tDiv 0 (imm 2)) (ported [(208, 0xFFFFFFFFFFFFFFF9)]))).map (fun f => (f.q, f.qh)) = some (0xFFFFFFFFFFFFFFFD, 0xFFFFFFFFFFFFFFFF) := by decide
/-- IEEE 754: 1.0 + 2⁻⁵³ rounds to even and is inexact; √4 = 2; 1 ÷ 0 is infinite with DZ; the conversion corners of T_FCVTI. -/
theorem test_fpu : (flightOf (exec (.fpuTFadd 0 (imm 0x3CA0000000000000)) (ported [(272, 0x3FF0000000000000)]))).map (fun f => (f.q, f.flags)) = some (0x3FF0000000000000, 0x10) ∧
    qOf (exec (.tFsqrt 0 (imm 0x4010000000000000)) (ported [])) = some 0x4000000000000000 ∧ qOf (exec (.tFdiv 0 (imm 0)) (ported [(272, 0x3FF0000000000000)])) = some 0x7FF0000000000000 ∧
    qOf (exec (.tFmul 0 { imm 0x40000000 with ext := 1 }) (ported [(272, 0x40400000)])) = some 0x40C00000 ∧
    qOf (exec (.tFcvti 0 (imm 0x7FF0000000000000)) (ported [])) = some 0x7FFFFFFFFFFFFFFF ∧ qOf (exec (.tFcvti 0 (imm 0x7FF8000000000000)) (ported [])) = some 0 := by decide +kernel
/-- R128, R129: ELEM picks the lanes, which wrap apart from each other; T_VRED sums them; T_VSPLAT copies one value. -/
theorem test_vec : qOf (exec (.tVadd 0 { imm 0x01FF with ext := 0 }) (ported [(304, 0xFF01)])) = some 0 ∧ qOf (exec (.tVadd 0 { imm 0x01FF with ext := 1 }) (ported [(304, 0xFF01)])) = some 0x0100 ∧
    qOf (exec (.tVred 0 (imm 0x0102)) (ported [])) = some 3 ∧ qOf (exec (.tVdot 0 (imm 0x02FF)) (ported [(304, 0x0301), (305, 10)])) = some 15 := by decide +kernel
/-- The worked loop of chapter 5: its words give the slots of its table; the long word's immediate is 4,096. -/
theorem test_worked_loop : slotsOf 0x8E00020080C00000 = [{ imm := false, dst := 112, src := 1, guard := 0, ext := 0, slotB := false }, { imm := true, dst := 3, src := 0, guard := 0, ext := 0, slotB := true }] ∧
    slotsOf 0x4F00000000001000 = [{ imm := true, dst := 120, src := 0, guard := 0, ext := 0, slotB := false }] ∧ immOf 0x4F00000000001000 { imm := true, dst := 120, src := 0, guard := 0, ext := 0, slotB := false } = 4096 ∧
    slotsOf 0x9C000200BA000006 = [{ imm := false, dst := 224, src := 1, guard := 0, ext := 0, slotB := false }, { imm := true, dst := 232, src := 0, guard := 0, ext := 3, slotB := true }] ∧
    slotsOf 0x9200080029400402 = [{ imm := false, dst := 144, src := 4, guard := 0, ext := 0, slotB := false }, { imm := false, dst := 165, src := 1, guard := 0, ext := 1, slotB := true }] ∧
    (slotsOf 0xE11FB02100000200).head? = some { imm := true, dst := 264, src := 0xFD8, guard := 1, ext := 1, slotB := false } ∧
    (decodeExc false 0 false 0x9C000200BA000006 0x18).isNone = true ∧ (decodeExc false 0 false 0xE11FB02100000200 0x40).isNone = true ∧
    (decodeExc true 0 false 0x8021240000C1C800 0x30).isNone = true ∧ (decodeExc false 0 false 0x802124000041C800 0x30).map (fun e => (e.cls, e.fields.toNat / 1 % 256, e.slotB)) = some (2, 1, true) := by decide
/-- The words of the repeated feed of chapter 6. -/
theorem test_worked_feed : slotsOf 0xEA802E00D8000000 = [{ imm := true, dst := 340, src := 23, guard := 0, ext := 0, slotB := false }, { imm := true, dst := 352, src := 0, guard := 0, ext := 0, slotB := true }] ∧
    slotsOf 0xAD41C400BA801004 = [{ imm := false, dst := 362, src := 226, guard := 0, ext := 0, slotB := false }, { imm := true, dst := 234, src := 4, guard := 0, ext := 2, slotB := true }] := by decide

/-! ### One step each, and worked examples: the device -/

/-- The catalogue check value of CRC-32C over the nine digits (the polynomial of R37). -/
theorem test_crc32c : crc32c [0x31, 0x32, 0x33, 0x34, 0x35, 0x36, 0x37, 0x38, 0x39] = 0xE3069283 := by decide +kernel
/-- The worked line of chapter 13: HMC 38, pseudo-channel 1, local offset 0x4000_0040, home site 9. -/
theorem test_worked_hbm_line : hmcOf 0x021A0000040 = 38 ∧ pcOf 0x021A0000040 = 1 ∧ localOf 0x021A0000040 = 0x40000040 ∧ homeSite 0x021A0000040 = 9 := by decide
/-- The worked Pass of chapter 4: from switch point 13 to 23. -/
theorem test_worked_pass : epSwitch 0x02 = 13 ∧ epSwitch 0x60 = 23 := by decide
/-- The worked CELL record of chapter 3: watchdog window of 200 to 400 µs. -/
theorem test_worked_cell_record :
    (let r : Rec := rec' tCELL [1, 0, 2, 1, 1, 0x10, 0, 0, 0x10, 0, 1, 0, 0xC8, 0, 0, 0, 0x90, 1, 0, 0]
     (wdMin (composed [r]) 1, wdMax (composed [r]) 1, kindIn [r] 1, formOf tCELL |>.map (fun f => formOk f r))) = (200, 400, 2, some true) := by decide
/-- The worked job of chapter 14 is released at 1,000,000 ns with the deadline 1,040,000 ns. -/
theorem test_worked_job : (let r := rec' tJOB ([120, 0, 0xC2, 0, 0x20, 0x0C, 4, 0, 0, 0, 0, 0] ++ natLe 4 50000 ++ natLe 4 8000 ++ natLe 4 40000)
     let u := after (exec (.jobReleasePeriodic 120) (timed 1000000 [r] { jobs := [(120, { state := .idle, next := 20 })] }))
     ((getJob u 120).state, (getJob u 120).deadline)) = (.opened, 1040000) := by decide +kernel
/-- The counters of the worked safe frames of chapter 16 (profile 5). -/
theorem test_worked_counters : nextCnt 5 0x3C = 0x3D ∧ nextCnt 5 0x3D = 0x3E ∧ nextCnt 5 0xFF = 0 := by decide
/-- The tables of the worked walk of chapter 10, at core 0 in the place of the task's. -/
def put8 (a w : Nat) : List (Nat × Byte) := ((List.range 8).map (fun i => (a + i, BitVec.ofNat 8 (w / 256 ^ i)))).filter (fun c => c.2 ≠ 0)
def walked : State :=
  { with' (timed 0 [rec' tHBM ([0xA3, 0, 7, 0, 0, 0, 0, 0] ++ natLe 8 0x80000000 ++ natLe 8 0x40000000)] {}) 0 (fun k => { k with level := 0, cell := some 0xA3, task := some 7, s1Root := 0x0007000000100003 }) with
    cells := [(0xA3, { state := .active, s2 := 0x2F00000003 })],
    mem := put8 0x80100008 0x101003 ++ put8 0x80101028 0x102003 ++ put8 0x80102008 0x103003 ++ put8 0x80103018 0x0010000002345FEB ++ put8 0x2F00000000 0x2F00001003 ++ put8 0x2F00001000 0x80000869 }
/-- VA 0x81_4020_3A40 gives PA 0x8234_5A40, NORMAL_WB; a store sets DIRTY in the leaf entry. -/
theorem test_worked_walk : (match (walkFor walked 0 0 0x8140203A40 .load false false).2 with | .ok t => (t.pa + (0x8140203A40 - t.va), t.mt, t.asid, t.cell) | .error _ => (0, 0, 0, none)) = (0x82345A40, 2, 7, some 0xA3) ∧
    rdNat (walkFor walked 0 0 0x8140203A40 .store true false).1.s 0x80103018 8 = 0x0030000002345FEB := by decide +kernel
/-- R4, R7: an unlisted value is not kept; a register's write is seen by its read. -/
theorem test_sel_register : stored (after (exec (.registerWrite (by' 2) 0xF8000050010 .full 38) base)) .pwrDomSel 0xF8000050010 = 38 ∧
    (after (exec (.registerWrite (by' 2) 0xF8000050010 .full 39) base)).flt.raised.map (·.code) = [3] := by decide +kernel
/-- A kick with KEY 0x5A in the window restarts it; without one the watchdog's cell is told (R319, R318). -/
theorem test_watchdog : (getWd (after (exec (.wdKick (ofCell 1) 0x5A) (watched 5000 { state := .running }))) 1).base = 5000 ∧
    (after (exec (.wdExpired 1) (watched 10000 { state := .running }))).flt.raised.map (·.code) = [0x0704] := by decide +kernel
/-- A store performed at its target, the answer returning OK; an unmapped address answered DECODE (R62, R76). -/
theorem test_fabric : rdNat (after (exec (.fabricTransactionArrival 4) { outstanding .write none false with fab := { txns := [{ id := 4, kind := .write, addr := 0x2000, size := 2, data := [0x34, 0x12], dst := 0x10 }] } })) 0x2000 2 = 0x1234 ∧
    ((after (exec (.fabricTransactionIssue 0 (some (request 0xFFFFFFFFFF8))) base)).fab.txns ++ (after (exec (.fabricTransactionIssue 0 (some (request 0xFFFFFFFFFF8))) base)).fab.waiting).map (fun t => t.done.map (·.1)) = [some stDECODE] := by decide +kernel
/-- A write to scratch is read back; a swap answers the old value. -/
theorem test_memory : rdNat (after (exec (.scratchAccess (req .write 0xF0000000100 [1, 2, 3, 4, 5, 6, 7, 8])) base)) 0xF0000000100 8 = 0x0807060504030201 ∧
    rdNat (after (exec (.slcRequest { req .fadd 0x2000 [1, 0, 0, 0] with size := 4 } 2) { base with mem := [(0x2000, 0xFF)] })) 0x2000 4 = 0x100 := by decide +kernel
/-- A bad FCS is counted at its port (R354); KEY 0xA5 enters safe state (R341); a mailbox write raises event 48. -/
theorem test_net_safe_boot : (getPort (after (exec (.ethFrameReceive 0 frame60 false) (netted [] { ports := [(0, upPort)] }))) 0).bad = 1 ∧ (after (exec (.fltSafeCmd mld 0xA5) base)).flt.safe = true ∧
    (after (exec (.bootMailboxInWrite mld 7) base)).sched.mld.map (·.num) = [48] := by decide +kernel
/-- BEGIN starts a certificate check; START of the DMA of no instance ends in ERROR; a vote by nobody's record is refused. -/
theorem test_debug_dma_power : (after (exec (.dbgBegin (by' 2) 1) base)).dbg.auth = .checking ∧ (after (exec (.dmaStart (by' 2) 0x0201) base)).flt.raised.map (·.code) = [0x0A04] ∧
    (after (exec (.pwrVoteAssert (ofCell 1) 1) base)).flt.raised.map (·.code) = [0x0803] := by decide +kernel
/-- A step takes the front command and leaves the rest waiting; an idle step lets a nanosecond pass. -/
theorem test_step : (after (step { base with pending := [.refOk, .timePllUnlock] })).pending = [.timePllUnlock] ∧ (after (step { base with now := 9 })).now = 10 := by decide

/-! ### The named functions of chapters 03, 19 and 20 -/

/-- The example "abc" of FIPS 180-4, and test case 1 of RFC 4231. -/
theorem test_sha384_abc : sha384 [0x61, 0x62, 0x63] = natBe 48
    0xcb00753f45a35e8bb5a03d699ac65007272c32ab0eded1631a8b605a43ff5bed8086072ba1e7cc2358baeca134c825a7 := by decide +kernel
theorem test_hmac384_rfc4231 : hmac384 (List.replicate 20 0x0B) [0x48, 0x69, 0x20, 0x54, 0x68, 0x65, 0x72, 0x65] = natBe 48
    0xafd03944d84895626b0825f4ab46907f15f9dadbe4101ec682aa034c7cebc59cfaea9ea9076ede7f4af152e8b2fa9cb6 := by decide +kernel
/-- The base point's order is n, and the base point lies on the curve. -/
theorem test_ecMul_order : (ecMul ecN ecBase).z = 0 ∧ ecValid (ecWrite ecBase) = true := by decide +kernel
end Sys2Proof.Tests
end

section
/-! Settles O55 (register accesses judged by field: 00_scope.md R3 to R9, R484). The layers: bit fields; registers as
stored; fields judged; an access and the register it reaches; an access that reaches none; then the registers that the
statement names. -/
namespace Sys2Proof.Machine

/-! ### Bit fields of a register -/

theorem testBit_fld (w : Word) (hi lo i : Nat) : (fld w hi lo).testBit i = (decide (i < hi - lo + 1) && w.getLsbD (lo + i)) := by
  simp [fld, BitVec.getLsbD, Nat.testBit_mod_two_pow, Nat.testBit_shiftRight]

theorem getLsbD_putFld (w : Word) {hi lo : Nat} (x i : Nat) (hl : lo ≤ hi) (hi64 : hi < 64) :
    (putFld w hi lo x).getLsbD i = if lo ≤ i ∧ i ≤ hi then x.testBit (i - lo) else w.getLsbD i := by
  have hmask : (decide (i ≥ lo) && decide (i - lo < hi - lo + 1)) = decide (lo ≤ i ∧ i ≤ hi) := by
    rw [← Bool.decide_and, decide_eq_decide]; omega
  simp only [putFld, BitVec.getLsbD_or, BitVec.getLsbD_and, BitVec.getLsbD_not, BitVec.getLsbD_ofNat, Nat.testBit_shiftLeft,
    Nat.testBit_two_pow_sub_one, hmask]
  by_cases hr : lo ≤ i ∧ i ≤ hi
  · have h64 : i < 64 := by omega
    simp [hr, h64]
  · by_cases h64 : i < 64
    · simp [hr, h64]
    · simp [hr, h64, BitVec.getLsbD_of_ge w i (by omega)]

/-- A field reads what was put into it. -/
theorem fld_putFld (w : Word) {hi lo x : Nat} (hl : lo ≤ hi) (hi64 : hi < 64) (hx : x < 2 ^ (hi - lo + 1)) :
    fld (putFld w hi lo x) hi lo = x := by
  apply Nat.eq_of_testBit_eq
  intro i
  rw [testBit_fld, getLsbD_putFld w x _ hl hi64]
  by_cases h : i < hi - lo + 1
  · have hin : lo ≤ lo + i ∧ lo + i ≤ hi := by omega
    simp [h, hin]
  · have hx0 : x.testBit i = false := Nat.testBit_lt_two_pow (lt_of_lt_of_le hx (Nat.pow_le_pow_right (by decide) (by omega)))
    simp [h, hx0]

/-- A field that a write reaches whole takes the written value. -/
theorem fld_merge (cur v m : Word) {hi lo : Nat} (hm : ∀ i, i < hi - lo + 1 → m.getLsbD (lo + i) = true) :
    fld ((cur &&& ~~~m) ||| (v &&& m)) hi lo = fld v hi lo := by
  apply Nat.eq_of_testBit_eq
  intro i
  simp only [testBit_fld]
  by_cases h : i < hi - lo + 1
  · simp [h, hm i h]
  · simp [h]

/-- A field of one bit is that bit. -/
theorem fld_bit (w : Word) (i : Nat) : fld w i i = b2n (w.getLsbD i) := by
  simp only [fld, b2n, BitVec.getLsbD, Nat.testBit_eq_decide_div_mod_eq, Nat.shiftRight_eq_div_pow, Nat.sub_self, Nat.zero_add, pow_one]
  rcases Nat.mod_two_eq_zero_or_one (w.toNat / 2 ^ i) with h | h <;> simp [h]

theorem b2n_inj {b c : Bool} : b2n b = b2n c ↔ b = c := by cases b <;> cases c <;> decide

/-! ### Registers as stored, refusals recorded -/

@[simp] theorem stored_store (s : State) (r : Reg) (key : Nat) (w : Word) : stored (store s key w) r key = w := by
  simp [stored, store]
@[simp] theorem stored_refuse (s : State) (a : Access) (code : Nat) (source : BitVec 16) (pa : Nat) (r : Reg) (key : Nat) :
    stored (refuse s a code source pa) r key = stored s r key := rfl
/-- A refused access adds one record, of its code, to the faults under way, and changes nothing else of the collector. -/
theorem refuse_flt (s : State) (a : Access) (code : Nat) (source : BitVec 16) (pa : Nat) :
    ∃ f : FaultMsg, (refuse s a code source pa).flt = { s.flt with raised := s.flt.raised ++ [f] } ∧ f.code = code := ⟨_, rfl, rfl⟩
@[simp] theorem recordCodes_nil (s : State) (a : Access) (pa : Nat) : recordCodes s a pa [] = s := rfl
@[simp] theorem recordCodes_singleton (s : State) (a : Access) (pa code : Nat) :
    recordCodes s a pa [code] = refuse s a code (regSource pa) pa := rfl

/-- A table mapped entry by entry, keys kept, reads as before where the entry itself is kept. -/
theorem look_map {α : Type} (d : α) (key : Nat) (g : Nat × α → Nat × α) (hkey : ∀ k x, ∃ y, g (k, x) = (k, y))
    (hkept : ∀ x, g (key, x) = (key, x)) (t : Tbl α) : look d key (t.map g) = look d key t := by
  induction t with
  | nil => rfl
  | cons e t ih =>
    obtain ⟨k, x⟩ := e
    by_cases hk : k = key
    · subst hk
      simp [look, hkept x]
    · obtain ⟨y, hy⟩ := hkey k x
      simp [look, hy, hk, ih]

/-- EXPERT_EN cleared leaves a register without expert fields (R8). -/
theorem stored_clearExpert (s : State) (pa : Nat) {r : Reg} {key n : Nat} (hreg : regAt (key % 2 ^ 44 / 8 * 8) = some (r, n))
    (hplain : ∀ w, underive r w = w) : stored (clearExpert s pa) r key = stored s r key := by
  unfold stored clearExpert
  refine look_map _ key _ (fun k x => ?_) (fun x => ?_) s.regs
  · split
    · split <;> exact ⟨_, rfl⟩
    · exact ⟨_, rfl⟩
  · simp only [hreg, hplain, ite_self]

/-! ### Fields judged (R3 to R9, R484) -/

theorem judgeFld_unreached (ex : ExpertMode) (lock : Bool) (cur v : Word) {m : Word} (j : Judged) {f : Fld} (h : fld m f.hi f.lo = 0) :
    judgeFld ex lock cur v m j f = j := by
  simp [judgeFld, h]

/-- A plain field that a write reaches whole: an unchanged value does nothing, a listed one is taken, another is refused. -/
theorem judgeFld_plain (ex : ExpertMode) (lock : Bool) (cur v : Word) {m : Word} (j : Judged) {f : Fld} (hacc : f.acc = .rw)
    (hex : f.expert = false) (hm : ∀ i, i < f.hi - f.lo + 1 → m.getLsbD (f.lo + i) = true) :
    judgeFld ex lock cur v m j f =
      if fld v f.hi f.lo = fld cur f.hi f.lo then j
      else if legalVal f (fld v f.hi f.lo) then { j with word := putFld j.word f.hi f.lo (fld v f.hi f.lo) }
      else { j with codes := j.codes ++ [0x0003] } := by
  have hw : fld m f.hi f.lo ≠ 0 := by
    intro h0
    have hbit := testBit_fld m f.hi f.lo 0
    rw [h0, hm 0 (by omega)] at hbit
    simp at hbit
  simp [judgeFld, hacc, hex, hw, fld_merge cur v m hm]

/-! ### An access and the register it reaches (R4, R433) -/

section
variable {s : State} {a : Access} {pa : BitVec 44} {p : Nat} {r : Reg} {n : Nat} (h : Half) (hpa : pa.toNat / 8 * 8 = p)
include hpa

theorem writeReg_reached (v : Word) (hr : reached s a p = some (r, n)) :
    writeReg s a pa.toNat h v = some (regWrite s a r n p (halfVal h v) (halfMask h)) := by
  simp only [writeReg, hpa, hr, Option.map_some]

theorem exec_registerWrite_reached (v : Word) (hr : reached s a p = some (r, n)) :
    exec (.registerWrite a pa h v) s = .next (regWrite s a r n p (halfVal h v) (halfMask h)) := by
  show execRegisterWrite a pa h v s = _
  rw [execRegisterWrite, writeReg_reached h hpa v hr, Option.getD_some]

theorem exec_expertEnWrite_reached (v : Word) (hr : reached s a p = some (r, n)) (hctrl : p = ctrlOf p) (hcode : (expertCode p).isSome = true) :
    exec (.expertEnWrite a pa h v) s = .next (regWrite s a r n p (halfVal h v) (halfMask h)) := by
  show execExpertEnWrite a pa h v s = _
  rw [execExpertEnWrite, hpa, if_pos ⟨hctrl, hcode⟩, writeReg_reached h hpa v hr, Option.getD_some]

theorem exec_opAbortRequest_reached {v : Word} {u : State} (hr : reached s a p = some (r, n)) (hop : isOpStatus r = true)
    (hw : writeReg s a pa.toNat h (v ||| 0x100) = some u) : exec (.opAbortRequest a pa h v) s = .next u := by
  show execOpAbortRequest a pa h v s = _
  simp only [execOpAbortRequest, hpa, hr, hop, hw, if_true, Option.getD_some]

/-- What is left of a state after a read of a half of a register (R3, R433). -/
theorem readReg_reached (hr : reached s a p = some (r, n)) :
    (readReg s a pa.toNat h).map Prod.fst =
      some (if a.peek then (if popsQueue r n then { s with dbg := { s.dbg with sideSuppressed := true } } else s)
        else regClear s r n p (halfMask h)) := by
  simp only [readReg, hpa, hr]
  split
  · split <;> rw [Option.map_some]
  · rw [Option.map_some]

end

theorem exec_rcRead_of_readReg {s u : State} {a : Access} {pa : BitVec 44} {h : Half} (hu : (readReg s a pa.toNat h).map Prod.fst = some u) :
    exec (.rcRead a pa h) s = .next u := by
  show execRcRead a pa h s = _
  obtain ⟨x, hx, rfl⟩ := Option.map_eq_some_iff.mp hu
  simp only [execRcRead, hx]

theorem exec_dataPop_of_readReg {s u : State} {a : Access} {pa : BitVec 44} (hu : (readReg s a pa.toNat .full).map Prod.fst = some u) :
    exec (.dataPop a pa) s = .next u := by
  show execDataPop a pa s = _
  obtain ⟨x, hx, rfl⟩ := Option.map_eq_some_iff.mp hu
  simp only [execDataPop, hx]

/-! ### An access that reaches no register (R479, R484) -/

section
variable {s : State} {a : Access} {pa : BitVec 44} (h : Half) (hnone : regAt (pa.toNat / 8 * 8) = none)
include hnone

theorem reached_unmapped : reached s a (pa.toNat / 8 * 8) = none := by simp [reached, hnone]

theorem exec_rcRead_unmapped : exec (.rcRead a pa h) s = .next (readFailed s a.init a.cell 2 stDECODE pa.toNat) := by
  show execRcRead a pa h s = _
  simp [execRcRead, readReg, reached_unmapped hnone]

theorem exec_dataPop_unmapped : exec (.dataPop a pa) s = .next (readFailed s a.init a.cell 2 stDECODE pa.toNat) := by
  show execDataPop a pa s = _
  simp [execDataPop, readReg, reached_unmapped hnone]

theorem exec_registerWrite_unmapped (v : Word) :
    exec (.registerWrite a pa h v) s = .next (writeFailed s a.init a.cell 2 stDECODE pa.toNat 0) := by
  show execRegisterWrite a pa h v s = _
  simp [execRegisterWrite, writeReg, reached_unmapped hnone]

end

/-- A read answered DECODE is recorded, with the address it named. -/
theorem readFailed_decode (s : State) (a : Access) (pa : BitVec 44) :
    ∃ f : FaultMsg, f.code = 0x0204 ∧ f.addr = some (pa.setWidth 64, false) ∧
      readFailed s a.init a.cell 2 stDECODE pa.toNat = { s with flt := { s.flt with raised := s.flt.raised ++ [f] } } :=
  ⟨_, rfl, by simp, rfl⟩

/-! ### A write answered with a failure (R330, R331) -/

@[simp] theorem raiseEvent_flt (s : State) (e : Nat) : (raiseEvent s e).flt = s.flt := by
  simp only [raiseEvent, raiseEventAt, raiseEventBy]
  repeat' split
  all_goals rfl
@[simp] theorem raiseEvent_mem (s : State) (e : Nat) : (raiseEvent s e).mem = s.mem := by
  simp only [raiseEvent, raiseEventAt, raiseEventBy]
  repeat' split
  all_goals rfl

theorem mem_put {α : Type} (k : Nat) (x : α) (t : Tbl α) : (k, x) ∈ put k x t := by
  induction t with
  | nil => simp [put]
  | cons e t ih =>
    obtain ⟨j, y⟩ := e
    simp only [put]
    split
    · simp
    · split
      · simp
      · exact List.mem_cons_of_mem _ ih

@[simp] theorem blockOf_raise (s : State) (f : FaultMsg) (i : InitId) (st : BitVec 4) (c : Option CellId) :
    blockOf (raise s f) i st c = blockOf s i st c := rfl
@[simp] theorem blockOf_raiseEvent (s : State) (e : Nat) (i : InitId) (st : BitVec 4) (c : Option CellId) :
    blockOf (raiseEvent s e) i st c = blockOf s i st c := by simp only [blockOf, raiseEvent_flt]
/-- A valid entry of a stream set in the block table blocks it. -/
theorem blockOf_setBlock_isSome (s : State) (e : Nat) {b : BlockEntry} {i : InitId} {st : BitVec 4} {c : Option CellId}
    (hv : b.valid = true) (hi : b.init = i) (hs : b.stream = st) (hc : b.cell = c) : (blockOf (setBlock s e b) i st c).isSome = true := by
  simp only [blockOf, List.find?_isSome]
  exact ⟨(e, b), mem_put e b s.flt.blocks, by simp [hv, hi, hs, hc]⟩

/-- A write of a stream that is not blocked fails while an entry is free: recorded, and the stream is blocked. -/
theorem failWrite_unblocked {s : State} {i : InitId} {st : BitVec 4} {c : Option CellId} (status : BitVec 3) (pa va code : Nat)
    (source : BitVec 16) (hb : blockOf s i st c = none) (hf : freeBlock s ≠ none) :
    ∃ (u : State) (f : FaultMsg), failWrite s i st c status pa va code source = (u, true) ∧ u.flt.raised = s.flt.raised ++ [f] ∧
      f.code = code ∧ (blockOf u i st c).isSome = true ∧ u.mem = s.mem := by
  obtain ⟨e, he⟩ := Option.ne_none_iff_exists'.mp hf
  simp only [failWrite, hb, he]
  refine ⟨_, _, rfl, by rw [raiseEvent_flt]; rfl, rfl, ?_, by rw [raiseEvent_mem]; rfl⟩
  rw [blockOf_raiseEvent, blockOf_raise]
  exact blockOf_setBlock_isSome s e rfl rfl rfl rfl

/-- What the initiating core learns of a blocked stream changes neither the collector nor memory. -/
theorem writeFailed_of_blocked {s u : State} {i : InitId} {c : Option CellId} {st : BitVec 4} {status : BitVec 3} {pa va : Nat}
    (h : failWrite s i st c status pa va (statusCode status) (BitVec.ofNat 16 i.toNat) = (u, true)) :
    (writeFailed s i c st status pa va).flt = u.flt ∧ (writeFailed s i c st status pa va).mem = u.mem := by
  rw [writeFailed, h]
  generalize coreOfInit i = core
  generalize hb : blockOf u i st c = b
  dsimp only
  rw [hb]
  rcases core with _ | k <;> rcases b with _ | ⟨e, x⟩ <;> exact ⟨rfl, rfl⟩

/-- A write that reaches no register is recorded, and its stream, not blocked before, is blocked. -/
theorem exec_registerWrite_unmapped_blocks {s : State} {a : Access} {pa : BitVec 44} (h : Half) (v : Word)
    (hnone : regAt (pa.toNat / 8 * 8) = none) (hb : blockOf s a.init 2 a.cell = none) (hf : freeBlock s ≠ none) :
    ∃ (u : State) (f : FaultMsg), exec (.registerWrite a pa h v) s = .next u ∧ u.flt.raised = s.flt.raised ++ [f] ∧ f.code = 0x0204 ∧
      (blockOf u a.init 2 a.cell).isSome = true ∧ u.mem = s.mem := by
  obtain ⟨u, f, hfail, hraised, hcode, hblocked, hmem⟩ :=
    failWrite_unblocked stDECODE pa.toNat 0 (statusCode stDECODE) (BitVec.ofNat 16 a.init.toNat) hb hf
  obtain ⟨hflt, hm⟩ := writeFailed_of_blocked hfail
  refine ⟨_, f, exec_registerWrite_unmapped h hnone v, by rw [hflt, hraised], hcode, ?_, by rw [hm, hmem]⟩
  simpa only [blockOf, hflt] using hblocked

/-! ### The blocks of the registers named in the statement -/

theorem regWrite_domSel (s : State) (a : Access) (v m : Word) :
    regWrite s a .pwrDomSel 0 0xF8000050010 v m = writePlain s a .pwrDomSel 0xF8000050010 0xF8000050010 false v m := rfl
theorem regWrite_pwrCtrl (s : State) (a : Access) (v m : Word) :
    regWrite s a .pwrCtrl 0 0xF8000050000 v m = writeCtrl s a .pwrCtrl 0xF8000050000 v m := rfl
theorem reached_compOpStatus (s : State) (a : Access) : reached s a 0xF8000010010 = some (.compOpStatus, 0) := rfl
theorem regWrite_compOpStatus (s : State) (a : Access) (v m : Word) :
    regWrite s a .compOpStatus 0 0xF8000010010 v m = updComp s (fun c => { c with op := opWrite c.op v m }) := rfl
theorem regClear_fltLost (s : State) (m : Word) : regClear s .fltLost 0 0xF8000040030 m = fltClear s .fltLost m := rfl
theorem regClear_uartData (s : State) (m : Word) : regClear s .periDataPage 0 0xF8000A20010 m = periClear s .periDataPage 0 m := rfl
theorem regAt_pwrCtrl : regAt (0xF8000050000 % 2 ^ 44 / 8 * 8) = some (.pwrCtrl, 0) := rfl
theorem expertCode_pwrCtrl : (expertCode 0xF8000050000).isSome = true := rfl

/-! ### PWR_DOM_SEL (R5, R484) -/

theorem exec_registerWrite_domSel (s : State) (a : Access) (h : Half) (v : Word) :
    exec (.registerWrite a 0xF8000050010 h v) s =
      .next (writePlain s a .pwrDomSel 0xF8000050010 0xF8000050010 false (halfVal h v) (halfMask h)) := by
  rw [← regWrite_domSel]
  exact exec_registerWrite_reached h (by decide) v rfl

theorem writePlain_of_judged {s : State} {a : Access} {r : Reg} {pa key : Nat} {lock : Bool} {v m : Word} {j : Judged}
    (hj : judgeReg s a r pa lock (stored s r key) v m = j) :
    writePlain s a r pa key lock v m = recordCodes (store s key j.word) a pa j.codes := by rw [← hj]; rfl

/-- A write that reaches SEL: an unchanged or listed domain is taken, another is refused. -/
theorem judgeReg_domSel (s : State) (a : Access) (pa : Nat) (cur v : Word) {h : Half} (hh : h ≠ .high) :
    judgeReg s a .pwrDomSel pa false cur (halfVal h v) (halfMask h) =
      if v.toNat % 64 = fld cur 5 0 then { word := cur }
      else if v.toNat % 64 ≤ 38 then { word := putFld cur 5 0 (v.toNat % 64) }
      else { word := cur, codes := [0x0003] } := by
  have hval : halfVal h v = v := by
    cases h with
    | full => rfl
    | low => rfl
    | high => exact absurd rfl hh
  have hmask : ∀ i, i < 5 - 0 + 1 → (halfMask h).getLsbD (0 + i) = true := by
    cases h with
    | full => decide
    | low => decide
    | high => exact absurd rfl hh
  have hfld : fld v 5 0 = v.toNat % 64 := rfl
  have hj := judgeFld_plain (expertMode s a .pwrDomSel pa v (halfMask h)) false cur v { word := cur } (f := ⟨5, 0, .rw, false, [(0, 38)]⟩) rfl rfl hmask
  rw [hval]
  refine hj.trans ?_
  simp [legalVal, hfld]

/-- A write of the high half does not reach SEL. -/
theorem judgeReg_domSel_high (s : State) (a : Access) (pa : Nat) (cur v : Word) :
    judgeReg s a .pwrDomSel pa false cur v (halfMask .high) = { word := cur } :=
  judgeFld_unreached (expertMode s a .pwrDomSel pa v (halfMask .high)) false cur v (m := halfMask .high) { word := cur }
    (f := ⟨5, 0, .rw, false, [(0, 38)]⟩) (by decide)

theorem domSel_listed (s : State) (a : Access) {h : Half} {v : Word} (hh : h ≠ .high) (hv : v.toNat % 64 ≤ 38) :
    ∃ u, exec (.registerWrite a 0xF8000050010 h v) s = .next u ∧ fld (stored u .pwrDomSel 0xF8000050010) 5 0 = v.toNat % 64 ∧
      u.flt = s.flt ∧ u.mem = s.mem := by
  have hj := judgeReg_domSel s a 0xF8000050010 (stored s .pwrDomSel 0xF8000050010) v hh
  refine ⟨_, exec_registerWrite_domSel s a h v, ?_⟩
  by_cases hsame : v.toNat % 64 = fld (stored s .pwrDomSel 0xF8000050010) 5 0
  · rw [if_pos hsame] at hj
    rw [writePlain_of_judged hj]
    simp [hsame]
  · rw [if_neg hsame, if_pos hv] at hj
    rw [writePlain_of_judged hj]
    refine ⟨?_, rfl, rfl⟩
    rw [recordCodes_nil, stored_store]
    exact fld_putFld _ (by decide) (by decide) (Nat.mod_lt v.toNat (by decide))

theorem domSel_unlisted (s : State) (a : Access) {h : Half} {v : Word} (hh : h ≠ .high) (hv : 38 < v.toNat % 64)
    (hne : v.toNat % 64 ≠ fld (stored s .pwrDomSel 0xF8000050010) 5 0) :
    ∃ (u : State) (f : FaultMsg), exec (.registerWrite a 0xF8000050010 h v) s = .next u ∧
      stored u .pwrDomSel 0xF8000050010 = stored s .pwrDomSel 0xF8000050010 ∧
      u.flt = { s.flt with raised := s.flt.raised ++ [f] } ∧ f.code = 3 ∧ u.mem = s.mem := by
  have hj := judgeReg_domSel s a 0xF8000050010 (stored s .pwrDomSel 0xF8000050010) v hh
  rw [if_neg hne, if_neg (by omega)] at hj
  obtain ⟨f, hf, hcode⟩ := refuse_flt (store s 0xF8000050010 (stored s .pwrDomSel 0xF8000050010)) a 3 (regSource 0xF8000050010) 0xF8000050010
  refine ⟨_, f, exec_registerWrite_domSel s a h v, ?_⟩
  rw [writePlain_of_judged hj]
  simp only [recordCodes_singleton]
  exact ⟨by simp, hf, hcode, rfl⟩

theorem domSel_high (s : State) (a : Access) (v : Word) :
    ∃ u, exec (.registerWrite a 0xF8000050010 .high v) s = .next u ∧
      stored u .pwrDomSel 0xF8000050010 = stored s .pwrDomSel 0xF8000050010 ∧ u.flt = s.flt ∧ u.mem = s.mem := by
  refine ⟨_, exec_registerWrite_domSel s a .high v, ?_⟩
  rw [writePlain_of_judged (judgeReg_domSel_high s a 0xF8000050010 _ _)]
  simp

/-! ### EXPERT_EN of PWR_CTRL (R6 to R9) -/

section
variable {s : State} {a : Access} {r : Reg} {pa : Nat} {v m w : Word} (hcode : (expertCode pa).isSome = true)
  (hj : judgeReg s a r pa false (stored s r pa) v m = { word := w }) (hw : w.getLsbD 0 ≠ (stored s r pa).getLsbD 0)
include hcode hj hw

theorem writeCtrl_permitted (hmay : mayExpert s a pa = true) :
    writeCtrl s a r pa v m = if w.getLsbD 0 then store s pa w else clearExpert (store s pa w) pa := by
  simp only [writeCtrl, hj, hcode, hmay, bne_iff_ne.mpr hw, Bool.and_self, if_true, recordCodes_nil]

theorem writeCtrl_denied (hmay : mayExpert s a pa = false) :
    writeCtrl s a r pa v m = refuse (store s pa (putFld w 0 0 (b2n ((stored s r pa).getLsbD 0)))) a 0x0002 (regSource pa) pa := by
  simp only [writeCtrl, hj, hcode, hmay, bne_iff_ne.mpr hw, Bool.and_self, if_true, Bool.false_eq_true, if_false, List.nil_append,
    recordCodes_singleton]

end

theorem getLsbD_putFld_bit (w : Word) (b : Bool) : (putFld w 0 0 (b2n b)).getLsbD 0 = b := by
  rw [getLsbD_putFld w _ 0 (le_refl 0) (by decide)]
  cases b <;> rfl

theorem judgeReg_pwrCtrl (s : State) (a : Access) (pa : Nat) {cur v : Word} (hne : v.getLsbD 0 ≠ cur.getLsbD 0) :
    judgeReg s a .pwrCtrl pa false cur v (halfMask .full) = { word := putFld cur 0 0 (b2n (v.getLsbD 0)) } := by
  have hfld : fld v 0 0 ≠ fld cur 0 0 := by simpa only [fld_bit, ne_eq, b2n_inj] using hne
  refine (judgeFld_plain (expertMode s a .pwrCtrl pa v (halfMask .full)) false cur v (m := halfMask .full) { word := cur } (f := ⟨0, 0, .rw, false, []⟩) rfl rfl (by decide)).trans ?_
  rw [if_neg hfld, if_pos (by rfl), fld_bit]

/-- EXPERT_EN of the power controller is for the hypervisor of a sealed composition with EXPERT_PERMIT for block 3. -/
theorem mayExpert_pwrCtrl (s : State) (a : Access) :
    mayExpert s a 0xF8000050000 = true ↔ isHyp a = true ∧ s.comp.isSealed = true ∧ expertPermit s.comp.live 3 0 = true := by
  show (isHyp a && s.comp.isSealed && expertPermit s.comp.live 3 0) = true ↔ _
  simp only [Bool.and_eq_true, and_assoc]

theorem exec_expertEnWrite_pwrCtrl (s : State) (a : Access) (v : Word) :
    exec (.expertEnWrite a 0xF8000050000 .full v) s = .next (writeCtrl s a .pwrCtrl 0xF8000050000 v (halfMask .full)) := by
  rw [← regWrite_pwrCtrl]
  exact exec_expertEnWrite_reached .full (by decide) v rfl (by decide) expertCode_pwrCtrl

section
variable {s : State} {a : Access} {v : Word} (hne : v.getLsbD 0 ≠ (stored s .pwrCtrl 0xF8000050000).getLsbD 0)
include hne

theorem expertEn_permitted (hmay : mayExpert s a 0xF8000050000 = true) :
    ∃ u, exec (.expertEnWrite a 0xF8000050000 .full v) s = .next u ∧
      (stored u .pwrCtrl 0xF8000050000).getLsbD 0 = v.getLsbD 0 ∧ u.flt = s.flt ∧ u.mem = s.mem := by
  refine ⟨_, exec_expertEnWrite_pwrCtrl s a v, ?_⟩
  rw [writeCtrl_permitted expertCode_pwrCtrl (judgeReg_pwrCtrl s a 0xF8000050000 hne) (by rwa [getLsbD_putFld_bit]) hmay]
  split
  · rw [stored_store, getLsbD_putFld_bit]
    exact ⟨rfl, rfl, rfl⟩
  · rw [stored_clearExpert _ _ regAt_pwrCtrl (fun _ => rfl), stored_store, getLsbD_putFld_bit]
    exact ⟨rfl, rfl, rfl⟩

theorem expertEn_denied (hmay : mayExpert s a 0xF8000050000 = false) :
    ∃ (u : State) (f : FaultMsg), exec (.expertEnWrite a 0xF8000050000 .full v) s = .next u ∧
      (stored u .pwrCtrl 0xF8000050000).getLsbD 0 = (stored s .pwrCtrl 0xF8000050000).getLsbD 0 ∧
      u.flt = { s.flt with raised := s.flt.raised ++ [f] } ∧ f.code = 2 ∧ u.mem = s.mem := by
  have hw := writeCtrl_denied expertCode_pwrCtrl (judgeReg_pwrCtrl s a 0xF8000050000 hne) (by rwa [getLsbD_putFld_bit]) hmay
  obtain ⟨f, hf, hcode⟩ := refuse_flt (store s 0xF8000050000 _) a 2 (regSource 0xF8000050000) 0xF8000050000
  refine ⟨_, f, (exec_expertEnWrite_pwrCtrl s a v).trans (congrArg _ hw), ?_, hf, hcode, rfl⟩
  rw [stored_refuse, stored_store, getLsbD_putFld_bit]

end

/-! ### Reads that clear or remove, abort requests -/

/-- A read of FLT_LOST clears the counters of the half it returns (R3, R4); a peek clears nothing (R433). -/
theorem exec_rcRead_fltLost (s : State) (a : Access) (h : Half) {pa : BitVec 44} (hpa : pa.toNat / 8 * 8 = 0xF8000040030) :
    exec (.rcRead a pa h) s = .next (if a.peek then s else fltClear s .fltLost (halfMask h)) := by
  rw [← regClear_fltLost]
  exact exec_rcRead_of_readReg (readReg_reached h hpa rfl)

theorem opWrite_abortReq (o : OpStatus) {v : Word} (hv : v.getLsbD 3 = false) : opWrite o (v ||| 0x100) (halfMask .full) = o.request := by
  have h3 : bit ((v ||| 0x100) &&& halfMask .full) 3 = false := by
    rw [bit, BitVec.getLsbD_and, BitVec.getLsbD_or, hv]; rfl
  have h8 : bit ((v ||| 0x100) &&& halfMask .full) 8 = true := by simp [bit, halfMask]
  simp only [opWrite, h3, h8, Bool.false_eq_true, if_false, if_true]

theorem exec_opAbortRequest_comp (s : State) (a : Access) {v : Word} (hv : v.getLsbD 3 = false) :
    exec (.opAbortRequest a 0xF8000010010 .full v) s = .next { s with comp := { s.comp with op := s.comp.op.request } } := by
  have hw := writeReg_reached .full (by decide : (0xF8000010010 : BitVec 44).toNat / 8 * 8 = 0xF8000010010) (v ||| 0x100)
    (reached_compOpStatus s a)
  rw [exec_opAbortRequest_reached .full (by decide) (reached_compOpStatus s a) rfl hw, regWrite_compOpStatus, updComp, ← opWrite_abortReq s.comp.op hv]
  rfl

theorem reached_uartData {s : State} {a : Access} (ho : ownsInstance s a 0 0 = true) :
    reached s a 0xF8000A20010 = some (.periDataPage, 0) := if_pos ho

/-- A read of the DATA register of UART_0 by its owner removes the oldest byte; a peek only notes it (R433, R449). -/
theorem exec_dataPop_uart {s : State} {a : Access} (ho : ownsInstance s a 0 0 = true) :
    exec (.dataPop a 0xF8000A20010) s =
      .next (if a.peek then { s with dbg := { s.dbg with sideSuppressed := true } } else updSerial s 0 (fun u => { u with rx := u.rx.drop 1 })) := by
  have hread := readReg_reached .full (by decide : (0xF8000A20010 : BitVec 44).toNat / 8 * 8 = 0xF8000A20010) (reached_uartData ho)
  rw [regClear_uartData] at hread
  exact exec_dataPop_of_readReg hread

/-- Settles O55: each register access acts as its clause says, by the register it reaches. -/
theorem registerAccessesAreJudgedByField : Obligations.RegisterAccessesAreJudgedByField := by
  intro s a
  refine ⟨fun pa h hnone => ?_, fun pa h v hnone hb hf => exec_registerWrite_unmapped_blocks h v hnone hb hf, fun h v => ⟨?_, ?_, ?_⟩,
    fun hp => ⟨?_, ?_, ?_⟩, fun hp h => ?_, fun v hne => ⟨fun hall => ?_, fun hall => ?_⟩, fun v hv => ?_, fun ho => ⟨fun hp => ?_, fun hp => ?_⟩⟩
  · obtain ⟨f, hcode, haddr, hf⟩ := readFailed_decode s a pa
    exact ⟨f, hcode, haddr, hf ▸ exec_rcRead_unmapped h hnone, hf ▸ exec_dataPop_unmapped hnone⟩
  · exact domSel_listed s a
  · exact domSel_unlisted s a
  · rintro rfl
    exact domSel_high s a v
  · rw [exec_rcRead_fltLost s a .full (by decide), hp]; rfl
  · rw [exec_rcRead_fltLost s a .low (by decide), hp]; rfl
  · rw [exec_rcRead_fltLost s a .high (by decide), hp]; rfl
  · rw [exec_rcRead_fltLost s a h (by decide), hp, if_pos rfl]
  · exact expertEn_permitted hne ((mayExpert_pwrCtrl s a).mpr hall)
  · exact expertEn_denied hne (Bool.eq_false_iff.mpr (fun hmay => hall ((mayExpert_pwrCtrl s a).mp hmay)))
  · exact exec_opAbortRequest_comp s a hv
  · rw [exec_dataPop_uart ho, hp]; rfl
  · rw [exec_dataPop_uart ho, hp]; rfl

end Sys2Proof.Machine
end

section
/-! Settles O49 (supplies, canaries, PMIC and heat: 02_handshake_timing.md R19 to R24, 18_power_management.md R384, R390,
R392, 21_host_and_peripheral_ports.md R451). The layers: domains and canaries read after an update; the work on a rail,
which touches setpoints and the PMIC's queue alone; raises and changes of RUN state; then the commands one by one. -/
namespace Sys2Proof.Machine

/-! ### Domains and canaries -/

@[simp] theorem getDom_updDom (s : State) (d : Nat) (f : Dom → Dom) : getDom (updDom s d f) d = f (getDom s d) := by
  simp [getDom, updDom]
@[simp] theorem getCanary_updCanary (s : State) (c : Nat) (f : Canary → Canary) : getCanary (updCanary s c f) c = f (getCanary s c) := by
  simp [getCanary, updCanary]
@[simp] theorem getDom_updCanary (s : State) (c d : Nat) (f : Canary → Canary) : getDom (updCanary s c f) d = getDom s d := rfl
@[simp] theorem getCanary_updDom (s : State) (c d : Nat) (f : Dom → Dom) : getCanary (updDom s d f) c = getCanary s c := rfl

/-- Every canary lies in a cluster or at a site (R19), so that its domain has a regulator. -/
theorem canaryDom_lt (c : BitVec 8) : canaryDom c.toNat < 32 := by
  have hc := c.isLt
  unfold canaryDom siteOfSwitch
  split
  · omega
  · split <;> omega

/-! ### Work on a rail -/

/-- `u` is `s` but for the setpoints of the rails and the commands under way to the PMIC. -/
def RailsOnly (s u : State) : Prop :=
  ∃ core slc pm ok, u = { s with pwr := { s.pwr with coreMv := core, slcMv := slc, pmic := pm, pmicOk := ok } }

theorem RailsOnly.refl (s : State) : RailsOnly s s := ⟨_, _, _, _, rfl⟩
theorem RailsOnly.trans {s t u : State} : RailsOnly s t → RailsOnly t u → RailsOnly s u := by
  rintro ⟨c, l, p, o, rfl⟩ ⟨c', l', p', o', rfl⟩
  exact ⟨c', l', p', o', rfl⟩
theorem RailsOnly.getDom {s u : State} (h : RailsOnly s u) (d : Nat) : getDom u d = Machine.getDom s d := by
  obtain ⟨c, l, p, o, rfl⟩ := h; rfl
theorem RailsOnly.getCanary {s u : State} (h : RailsOnly s u) (c : Nat) : getCanary u c = Machine.getCanary s c := by
  obtain ⟨c, l, p, o, rfl⟩ := h; rfl
theorem RailsOnly.flt {s u : State} (h : RailsOnly s u) : u.flt = s.flt := by
  obtain ⟨c, l, p, o, rfl⟩ := h; rfl
theorem RailsOnly.mem {s u : State} (h : RailsOnly s u) : u.mem = s.mem := by
  obtain ⟨c, l, p, o, rfl⟩ := h; rfl

theorem sendPmic_rails (s : State) (bs : List Byte) (d rail : Nat) (up : Bool) (n : Nat) : RailsOnly s (sendPmic s bs d rail up n) :=
  ⟨_, _, _, _, rfl⟩
theorem setRail_rails (s : State) (rail mv : Nat) : RailsOnly s (setRail s rail mv) := by
  unfold setRail
  split <;> exact ⟨_, _, _, _, rfl⟩
theorem trackRail_rails (s : State) (rail d : Nat) : RailsOnly s (trackRail s rail d) := by
  have sent := fun bs up => (setRail_rails s rail (railDemand s rail)).trans (sendPmic_rails _ bs d rail up 0)
  unfold trackRail
  dsimp only
  split_ifs
  · exact .refl s
  all_goals exact sent _ _

/-! ### Levels and raises (R20) -/

theorem getDom_setMv (s : State) {d : Nat} (mv : Nat) (hd : d < 32) :
    getDom (setMv s d mv) d = { getDom s d with mv := mv, levels := put (levelKey s d (supplyPs (getDom s d))) mv (getDom s d).levels } := by
  rw [setMv, if_pos hd, getDom_updDom]
/-- A level set changes a domain alone. -/
theorem setMv_domain (s : State) (d mv : Nat) : ∃ ds, setMv s d mv = { s with pwr := { s.pwr with doms := ds } } := by
  unfold setMv
  split <;> exact ⟨_, rfl⟩
@[simp] theorem setMv_flt (s : State) (d mv : Nat) : (setMv s d mv).flt = s.flt := by
  obtain ⟨ds, h⟩ := setMv_domain s d mv; rw [h]
@[simp] theorem setMv_mem (s : State) (d mv : Nat) : (setMv s d mv).mem = s.mem := by
  obtain ⟨ds, h⟩ := setMv_domain s d mv; rw [h]
@[simp] theorem setMv_pmic (s : State) (d mv : Nat) : (setMv s d mv).pwr.pmic = s.pwr.pmic := by
  obtain ⟨ds, h⟩ := setMv_domain s d mv; rw [h]
@[simp] theorem getCanary_setMv (s : State) (d mv c : Nat) : getCanary (setMv s d mv) c = getCanary s c := by
  obtain ⟨ds, h⟩ := setMv_domain s d mv; rw [h]; rfl

/-- The rail of a domain with a regulator: 0 VDD_CORE, 1 VDD_SLC. -/
def railOf (d : Nat) : Nat := if d < 16 then 0 else 1

theorem raiseSupply_atTop {s : State} {d : Nat} (h : psMax (supplyPs (getDom s d)) ≤ (getDom s d).mv) : raiseSupply s d = s :=
  if_pos (le_trans h (Nat.le_add_right _ _))

/-- A raise that the rail leaves room for is made at the regulator. -/
theorem raiseSupply_headroom {s : State} {d : Nat} (hcap : (getDom s d).mv + 10 ≤ psMax (supplyPs (getDom s d)))
    (hw : (getDom s d).raiseWaits = 0) (hroom : (getDom s d).mv + 20 ≤ railMv s (railOf d) ∨ railMv s (railOf d) = 900) :
    RailsOnly (setMv s d ((getDom s d).mv + 10)) (raiseSupply s d) := by
  have hlow : ¬ psMax (supplyPs (getDom s d)) ≤ (getDom s d).mv := by omega
  simp only [raiseSupply, railOf, hw, Nat.mul_zero, Nat.add_zero, min_eq_right hcap] at hroom ⊢
  rw [if_neg hlow, if_pos ⟨trivial, hroom⟩]
  exact trackRail_rails _ _ _

/-- A raise asked for while one waits for the PMIC waits too. -/
theorem raiseSupply_waits {s : State} {d : Nat}
    (hcap : (getDom s d).mv + 10 * (getDom s d).raiseWaits + 10 ≤ psMax (supplyPs (getDom s d))) (hw : (getDom s d).raiseWaits ≠ 0) :
    RailsOnly (updDom s d (fun x => { x with raiseWaits := x.raiseWaits + 1 })) (raiseSupply s d) := by
  have hlow : ¬ psMax (supplyPs (getDom s d)) ≤ (getDom s d).mv + 10 * (getDom s d).raiseWaits := by omega
  have hset : ∀ rail dem, RailsOnly (updDom s d (fun x => { x with raiseWaits := x.raiseWaits + 1 }))
      (updDom (setRail s rail dem) d (fun x => { x with raiseWaits := x.raiseWaits + 1 })) := by
    intro rail dem
    unfold setRail
    split <;> exact ⟨_, _, _, _, rfl⟩
  simp only [raiseSupply, hw, false_and, if_false, if_neg hlow]
  generalize (if d < 16 then 0 else 1) = rail
  split
  · exact (hset _ _).trans ⟨_, _, _, _, rfl⟩
  · split <;> exact (hset _ _).trans (sendPmic_rails _ _ _ _ _ _)

/-! ### Changes of RUN state (R22) -/

/-- What a decision about the RUN state of domain `d` leaves as it was: everything outside the power controller, the
sensors and canaries, and what heat has decided for the domain. -/
structure StateChange (d : Nat) (s u : State) : Prop where
  outside : ∃ p, u = { s with pwr := p }
  sensors : u.pwr.sensors = s.pwr.sensors
  canaries : u.pwr.canaries = s.pwr.canaries
  limited : (getDom u d).limited = (getDom s d).limited
  thermAt : (getDom u d).thermAt = (getDom s d).thermAt

theorem StateChange.refl (d : Nat) (s : State) : StateChange d s s := ⟨⟨_, rfl⟩, rfl, rfl, rfl, rfl⟩
theorem StateChange.trans {d : Nat} {s t u : State} (h : StateChange d s t) (k : StateChange d t u) : StateChange d s u := by
  refine ⟨?_, k.sensors.trans h.sensors, k.canaries.trans h.canaries, k.limited.trans h.limited, k.thermAt.trans h.thermAt⟩
  obtain ⟨p, rfl⟩ := h.outside
  obtain ⟨q, rfl⟩ := k.outside
  exact ⟨q, rfl⟩
theorem StateChange.flt {d : Nat} {s u : State} (h : StateChange d s u) : u.flt = s.flt := by
  obtain ⟨p, rfl⟩ := h.outside; rfl
theorem StateChange.mem {d : Nat} {s u : State} (h : StateChange d s u) : u.mem = s.mem := by
  obtain ⟨p, rfl⟩ := h.outside; rfl
theorem StateChange.getCanary {d : Nat} {s u : State} (h : StateChange d s u) (c : Nat) : getCanary u c = Machine.getCanary s c := by
  rw [Machine.getCanary, h.canaries]; rfl
theorem StateChange.of_updDom {s : State} {d : Nat} (f : Dom → Dom) (hl : (f (getDom s d)).limited = (getDom s d).limited)
    (ht : (f (getDom s d)).thermAt = (getDom s d).thermAt) : StateChange d s (updDom s d f) :=
  ⟨⟨_, rfl⟩, rfl, rfl, by rw [getDom_updDom, hl], by rw [getDom_updDom, ht]⟩
theorem RailsOnly.stateChange {s u : State} (h : RailsOnly s u) (d : Nat) : StateChange d s u := by
  obtain ⟨c, l, p, o, rfl⟩ := h; exact ⟨⟨_, rfl⟩, rfl, rfl, rfl, rfl⟩

theorem startPs_change (s : State) (d ps : Nat) : StateChange d s (startPs s d ps) := by
  have begun : StateChange d s (updDom s d (fun x => { x with toPs := some ps })) := .of_updDom _ rfl rfl
  unfold startPs
  dsimp only
  split
  · exact .refl d s
  · split
    · exact begun.trans (.trans (.of_updDom _ rfl rfl) ((trackRail_rails _ _ _).stateChange d))
    · split
      · exact begun.trans (.of_updDom _ rfl rfl)
      · exact begun

theorem settlePs_change (s : State) (d : Nat) : StateChange d s (settlePs s d) := startPs_change s d _

/-! ### Canary samples (R19, R20, R24) -/

theorem foldl_raise {α : Type} (m : α → FaultMsg) (l : List α) (s : State) :
    l.foldl (fun s k => raise s (m k)) s = { s with flt := { s.flt with raised := s.flt.raised ++ l.map (fun k => { m k with time := s.now }) } } := by
  induction l generalizing s with
  | nil => simp
  | cons k l ih => rw [List.foldl_cons, ih]; simp [raise]

/-- What the domain of a canary carries, by the composition in force. -/
def carriedAt (s : State) (c kind : Nat) : List Nat := carriedOf (if s.comp.isSealed then s.comp.live else []) (canaryDom c) kind
/-- The record of SPEED_FLOOR at a canary, in a class and for a cell. -/
def floorMsg (c cls : Nat) (cell : Option Nat) : FaultMsg :=
  { code := 0x0801, cls := BitVec.ofNat 2 cls, source := pwrSource, cell := cell.map (BitVec.ofNat 12), syndrome := BitVec.ofNat 64 (at' (canaryDom c) 8 + c) }
/-- SPEED_FLOOR recorded: once in class D, once in class C, or in class K for every real-time cell carried (R24). -/
def floorRecorded (s : State) (c : Nat) : State :=
  if carriedAt s c 2 ≠ [] then raise s (floorMsg c 3 none)
  else if carriedAt s c 1 = [] then raise s (floorMsg c 0 none)
  else (carriedAt s c 1).foldl (fun s k => raise s (floorMsg c 2 (some k))) s

theorem speedFloor_change (s : State) (c : Nat) : StateChange (canaryDom c) (floorRecorded s c) (speedFloor s c) := by
  have slower : ∀ (t : State) (p : Prop) [Decidable p] (n : Nat), StateChange (canaryDom c) t
      (if p then startPs (updDom t (canaryDom c) (fun y => { y with slowed := n })) (canaryDom c) n else t) := by
    intro t p _ n
    split
    · exact .trans (.of_updDom _ rfl rfl) (startPs_change _ _ _)
    · exact .refl _ t
  unfold speedFloor floorRecorded
  by_cases hsafe : carriedAt s c 2 = []
  · have hempty : (carriedOf (if s.comp.isSealed then s.comp.live else []) (canaryDom c) 2).isEmpty = true := List.isEmpty_iff.mpr hsafe
    simp only [hempty, hsafe, ne_eq, not_true_eq_false, if_false, Bool.not_true, Bool.false_eq_true, List.isEmpty_iff]
    exact slower _ _ _
  · have hempty : (carriedOf (if s.comp.isSealed then s.comp.live else []) (canaryDom c) 2).isEmpty = false := List.isEmpty_eq_false_iff.mpr hsafe
    simp only [hempty, hsafe, ne_eq, not_false_eq_true, if_true, Bool.not_false]
    exact .refl _ _

theorem floorRecorded_raised (s : State) (c : Nat) :
    ∃ (f : FaultMsg) (fs : List FaultMsg), floorRecorded s c = { s with flt := { s.flt with raised := s.flt.raised ++ f :: fs } } ∧ f.code = 0x0801 ∧
      f.cls = (if carriedAt s c 2 ≠ [] then 3 else if carriedAt s c 1 ≠ [] then 2 else 0) ∧ f.syndrome = BitVec.ofNat 64 (canaryDom c * 256 + c) := by
  have hsynd : BitVec.ofNat 64 (at' (canaryDom c) 8 + c) = BitVec.ofNat 64 (canaryDom c * 256 + c) := by rw [at', Nat.shiftLeft_eq]
  unfold floorRecorded
  split
  · exact ⟨_, [], rfl, rfl, rfl, hsynd⟩
  · cases hrt : carriedAt s c 1 with
    | nil => exact ⟨_, [], rfl, rfl, rfl, hsynd⟩
    | cons k ks =>
      rw [if_neg (List.cons_ne_nil k ks), foldl_raise]
      exact ⟨_, _, rfl, rfl, rfl, hsynd⟩

/-- A canary's sample kept in RUN: counted where it lies over 950, and over 1,000 per mille; low samples counted to 64. -/
def sampled (pm : BitVec 10) (x : Canary) : Canary :=
  { x with
    last := pm, warn := if 950 < pm.toNat then satAdd x.warn 1 else x.warn, floor := if 1000 < pm.toNat then satAdd x.floor 1 else x.floor
    low := if pm.toNat < 850 then min 64 (x.low + 1) else 0 }

section
variable {s : State} {c : BitVec 8} {pm : BitVec 10}

theorem exec_canarySample_asleep (h : (getDom s (canaryDom c.toNat)).state ≠ .run) :
    exec (.canarySample c pm) s = .next (updCanary s c.toNat (fun x => { x with last := 0 })) := congrArg Host.Outcome.next (if_pos h)

theorem exec_canarySample_run (h : (getDom s (canaryDom c.toNat)).state = .run) :
    exec (.canarySample c pm) s = .next (
      let s1 := updCanary s c.toNat (sampled pm)
      let s2 := if 950 < pm.toNat then raiseSupply s1 (canaryDom c.toNat) else s1
      if 1000 < pm.toNat ∧ psMax (supplyPs (getDom s (canaryDom c.toNat))) ≤ (getDom s (canaryDom c.toNat)).mv then speedFloor s2 c.toNat else s2) := by
  show execCanarySample c pm s = _
  simp only [execCanarySample, h, ne_eq, not_true_eq_false, if_false, decide_eq_true_eq]
  rfl

/-- Below the top of its range a domain whose canary warns is raised, and records nothing. -/
theorem exec_canarySample_warns (h : (getDom s (canaryDom c.toNat)).state = .run) (hpm : 950 < pm.toNat)
    (hlow : (getDom s (canaryDom c.toNat)).mv < psMax (supplyPs (getDom s (canaryDom c.toNat)))) :
    exec (.canarySample c pm) s = .next (raiseSupply (updCanary s c.toNat (sampled pm)) (canaryDom c.toNat)) := by
  rw [exec_canarySample_run h]
  simp only [hpm, if_true, Nat.not_le.mpr hlow, and_false, if_false]

theorem canarySample_kept (h : (getDom s (canaryDom c.toNat)).state = .run) (hpm : pm.toNat ≤ 950) :
    exec (.canarySample c pm) s = .next (updCanary s c.toNat (fun y => { y with last := pm, low := if pm.toNat < 850 then min 64 (y.low + 1) else 0 })) := by
  have h1 : ¬ 950 < pm.toNat := by omega
  have h2 : ¬ 1000 < pm.toNat := by omega
  rw [exec_canarySample_run h]
  simp only [h1, h2, if_false, false_and]
  simp only [updCanary, sampled, h1, h2, if_false]

theorem canarySample_raises (h : (getDom s (canaryDom c.toNat)).state = .run) (hpm : 950 < pm.toNat)
    (hcap : (getDom s (canaryDom c.toNat)).mv + 10 ≤ psMax (supplyPs (getDom s (canaryDom c.toNat)))) (hw : (getDom s (canaryDom c.toNat)).raiseWaits = 0)
    (hroom : (getDom s (canaryDom c.toNat)).mv + 20 ≤ railMv s (railOf (canaryDom c.toNat)) ∨ railMv s (railOf (canaryDom c.toNat)) = 900) :
    ∃ u, exec (.canarySample c pm) s = .next u ∧ (getDom u (canaryDom c.toNat)).mv = (getDom s (canaryDom c.toNat)).mv + 10 ∧
      (getCanary u c.toNat).last = pm ∧ (getCanary u c.toNat).warn = satAdd (getCanary s c.toNat).warn 1 ∧ u.flt = s.flt ∧ u.mem = s.mem := by
  have hrails := raiseSupply_headroom (s := updCanary s c.toNat (sampled pm)) hcap hw hroom
  refine ⟨_, exec_canarySample_warns h hpm (by omega), ?_, ?_, ?_, by rw [hrails.flt, setMv_flt]; rfl, by rw [hrails.mem, setMv_mem]; rfl⟩
  · rw [hrails.getDom, getDom_setMv _ _ (canaryDom_lt c)]; rfl
  · rw [hrails.getCanary, getCanary_setMv, getCanary_updCanary]; rfl
  · rw [hrails.getCanary, getCanary_setMv, getCanary_updCanary]; exact if_pos hpm

theorem canarySample_waits (h : (getDom s (canaryDom c.toNat)).state = .run) (hpm : 950 < pm.toNat)
    (hcap : (getDom s (canaryDom c.toNat)).mv + 10 * (getDom s (canaryDom c.toNat)).raiseWaits + 10 ≤ psMax (supplyPs (getDom s (canaryDom c.toNat))))
    (hw : (getDom s (canaryDom c.toNat)).raiseWaits ≠ 0) :
    ∃ u, exec (.canarySample c pm) s = .next u ∧ (getDom u (canaryDom c.toNat)).mv = (getDom s (canaryDom c.toNat)).mv ∧
      (getDom u (canaryDom c.toNat)).raiseWaits = (getDom s (canaryDom c.toNat)).raiseWaits + 1 ∧ u.flt = s.flt ∧ u.mem = s.mem := by
  have hrails := raiseSupply_waits (s := updCanary s c.toNat (sampled pm)) hcap hw
  refine ⟨_, exec_canarySample_warns h hpm (by omega), ?_, ?_, hrails.flt, hrails.mem⟩ <;> rw [hrails.getDom, getDom_updDom] <;> rfl

/-- Over 1,000 per mille at the top of the range no raise helps, and SPEED_FLOOR is recorded (R24). -/
theorem canarySample_floor (h : (getDom s (canaryDom c.toNat)).state = .run) (hpm : 1000 < pm.toNat)
    (htop : psMax (supplyPs (getDom s (canaryDom c.toNat))) ≤ (getDom s (canaryDom c.toNat)).mv) :
    ∃ (u : State) (f : FaultMsg) (fs : List FaultMsg), exec (.canarySample c pm) s = .next u ∧ u.flt.raised = s.flt.raised ++ f :: fs ∧ f.code = 0x0801 ∧
      f.cls = (if carriedAt s c.toNat 2 ≠ [] then 3 else if carriedAt s c.toNat 1 ≠ [] then 2 else 0) ∧
      f.syndrome = BitVec.ofNat 64 (canaryDom c.toNat * 256 + c.toNat) ∧
      (getCanary u c.toNat).floor = satAdd (getCanary s c.toNat).floor 1 ∧ u.mem = s.mem := by
  have hwarn : 950 < pm.toNat := by omega
  have hexec : exec (.canarySample c pm) s = .next (speedFloor (updCanary s c.toNat (sampled pm)) c.toNat) := by
    rw [exec_canarySample_run h]
    simp only [hpm, hwarn, htop, and_self, if_true]
    rw [raiseSupply_atTop (s := updCanary s c.toNat (sampled pm)) htop]
  obtain ⟨f, fs, hrec, hcode, hcls, hsynd⟩ := floorRecorded_raised (updCanary s c.toNat (sampled pm)) c.toNat
  have hch := speedFloor_change (updCanary s c.toNat (sampled pm)) c.toNat
  rw [hrec] at hch
  refine ⟨_, f, fs, hexec, by rw [hch.flt]; rfl, hcode, hcls, hsynd, ?_, hch.mem⟩
  rw [hch.getCanary]
  exact (congrArg Canary.floor (getCanary_updCanary s c.toNat (sampled pm))).trans (if_pos hpm)

end

/-! ### SUPPLY_LOWER (R21) -/

/-- No raise on a rail is in progress: none waits for the PMIC, no change to a faster state or wake is under way, and no
command brings the rail up. -/
def RailFree (s : State) (rail : Nat) : Prop :=
  (∀ j, j < 16 → (getDom s (rail * 16 + j)).raiseWaits = 0 ∧
      (∀ p, (getDom s (rail * 16 + j)).toPs = some p → (getDom s (rail * 16 + j)).ps ≤ p) ∧ (getDom s (rail * 16 + j)).state ≠ .waking) ∧
    ∀ c ∈ s.pwr.pmic, c.rail = rail → c.up = false

theorem railRaising_eq_false_iff (s : State) (rail : Nat) : railRaising s rail = false ↔ RailFree s rail := by
  have faster : ∀ x : Dom, (match x.toPs with | some p => decide (p < x.ps) | none => false) = false ↔ ∀ p, x.toPs = some p → x.ps ≤ p := by
    intro x
    cases x.toPs <;> simp
  simp only [railRaising, RailFree, Bool.or_eq_false_iff, List.any_eq_false, List.mem_range, Bool.not_eq_true, and_assoc]
  refine and_congr (forall₂_congr fun j _ => ?_) (by simp)
  refine and_congr (by simp) (and_congr (faster _) (by simp))

/-- The low samples of some canaries counted afresh. -/
def clearLow (s : State) (cs : List Nat) : State := cs.foldl (fun s c => updCanary s c (fun y => { y with low := 0 })) s

theorem clearLow_canaries (cs : List Nat) (s : State) : ∃ t, clearLow s cs = { s with pwr := { s.pwr with canaries := t } } := by
  induction cs generalizing s with
  | nil => exact ⟨_, rfl⟩
  | cons c cs ih =>
    obtain ⟨t, h⟩ := ih (updCanary s c (fun y => { y with low := 0 }))
    exact ⟨t, h⟩
theorem clearLow_low (cs : List Nat) (s : State) (c : Nat) : (getCanary (clearLow s cs) c).low = if c ∈ cs then 0 else (getCanary s c).low := by
  induction cs generalizing s with
  | nil => rfl
  | cons k cs ih =>
    refine (ih (updCanary s k (fun y => { y with low := 0 }))).trans ?_
    by_cases hk : k = c
    · subst hk; simp
    · have hother : getCanary (updCanary s k (fun y => { y with low := 0 })) c = getCanary s c := by
        simp [getCanary, updCanary, look_put_other _ hk]
      simp [hother, Ne.symm hk]

section
variable {s : State} {d : Fin 32}

/-- When SUPPLY_LOWER lowers a domain's supply. -/
def MayLower (s : State) (d : Nat) : Prop :=
  (getDom s d).state = .run ∧ (∀ c ∈ canariesOf d, 64 ≤ (getCanary s c).low) ∧ RailFree s (railOf d) ∧ psMin (supplyPs (getDom s d)) + 5 ≤ (getDom s d).mv

theorem exec_supplyLower_of_not (h : ¬ MayLower s d.val) : exec (.supplyLower d) s = .next s := by
  refine congrArg Host.Outcome.next (if_neg fun hall => h ?_)
  obtain ⟨hrun, hlow, hfree, hmv⟩ := hall
  exact ⟨hrun, by simpa using hlow, (railRaising_eq_false_iff _ _).mp ((Bool.not_eq_true' _).mp hfree), hmv⟩

theorem supplyLower_lowers (h : MayLower s d.val) :
    ∃ u, exec (.supplyLower d) s = .next u ∧ (getDom u d.val).mv = (getDom s d.val).mv - 5 ∧ u.flt = s.flt ∧ u.mem = s.mem ∧
      ∀ c ∈ canariesOf d.val, (getCanary u c).low = 0 := by
  obtain ⟨hrun, hlow, hfree, hmv⟩ := h
  have hexec : exec (.supplyLower d) s =
      .next (trackRail (clearLow (setMv s d.val ((getDom s d.val).mv - 5)) (canariesOf d.val)) (railOf d.val) d.val) :=
    congrArg Host.Outcome.next (if_pos ⟨hrun, by simpa using hlow, (Bool.not_eq_true' _).mpr ((railRaising_eq_false_iff _ _).mpr hfree), hmv⟩)
  have hrails := trackRail_rails (clearLow (setMv s d.val ((getDom s d.val).mv - 5)) (canariesOf d.val)) (railOf d.val) d.val
  obtain ⟨t, hclear⟩ := clearLow_canaries (canariesOf d.val) (setMv s d.val ((getDom s d.val).mv - 5))
  refine ⟨_, hexec, ?_, ?_, ?_, fun c hc => ?_⟩
  · rw [hrails.getDom, hclear]
    exact congrArg Dom.mv (getDom_setMv s _ d.isLt)
  · rw [hrails.flt, hclear]; exact setMv_flt _ _ _
  · rw [hrails.mem, hclear]; exact setMv_mem _ _ _
  · rw [hrails.getCanary, clearLow_low, if_pos hc]

end

/-! ### PS_CHANGE_DONE, and the PMIC (R22, R451, R392) -/

theorem psChangeDone_none {s : State} {d : Fin 39} (h : (getDom s d.val).toPs = none) : exec (.psChangeDone d) s = .next s := by
  show execPsChangeDone d s = _
  simp only [execPsChangeDone, h]

theorem psChangeDone_faster {s : State} {d : Fin 39} {ps : Nat} (h : (getDom s d.val).toPs = some ps) (hps : ps < (getDom s d.val).ps) :
    exec (.psChangeDone d) s = .next (updDom s d.val (fun x => { x with
      ps := ps, toPs := none, bias := if ps = 0 then .forward else .none, assist := if ps = 2 then .negBitline else .nominal })) := by
  show execPsChangeDone d s = _
  simp only [execPsChangeDone, h, Nat.not_le.mpr hps, if_false]
  rfl

/-- A domain whose change to a RUN state has ended, its bias and assist those of the state. -/
def changedTo (ps : Nat) (x : Dom) : Dom := { x with ps := ps, toPs := none, bias := runBias ps, assist := runAssist ps }

theorem psChangeDone_slower {s : State} {d : Fin 39} {ps : Nat} (h : (getDom s d.val).toPs = some ps) (hps : (getDom s d.val).ps ≤ ps) (hd : d.val < 32) :
    ∃ u, exec (.psChangeDone d) s = .next u ∧ (getDom u d.val).ps = ps ∧ (getDom u d.val).toPs = none ∧ (getDom u d.val).mv = recordedMv s d.val ps ∧
      u.flt = s.flt ∧ u.mem = s.mem := by
  have hexec : exec (.psChangeDone d) s = .next (trackRail (setMv (updDom s d.val (changedTo ps)) d.val (recordedMv s d.val ps)) (railOf d.val) d.val) := by
    show execPsChangeDone d s = _
    simp only [execPsChangeDone, h, hps, if_true]
    rfl
  have hrails := trackRail_rails (setMv (updDom s d.val (changedTo ps)) d.val (recordedMv s d.val ps)) (railOf d.val) d.val
  have hdom := (hrails.getDom d.val).trans (getDom_setMv (updDom s d.val (changedTo ps)) _ hd)
  have hdone : getDom (updDom s d.val (changedTo ps)) d.val = changedTo ps (getDom s d.val) := getDom_updDom s d.val _
  exact ⟨_, hexec, by rw [hdom, hdone]; rfl, by rw [hdom, hdone]; rfl, by rw [hdom], hrails.flt.trans (setMv_flt _ _ _), hrails.mem.trans (setMv_mem _ _ _)⟩

theorem pmicEcho_none {s : State} (h : s.pwr.pmic = []) : exec .pmicEcho s = .next s := by
  show execPmicEcho s = _
  simp only [execPmicEcho, h]

section
variable {s : State} {c : PmicCmd} {cs : List PmicCmd}

/-- The PMIC has acknowledged its oldest command. -/
def acknowledged (s : State) (cs : List PmicCmd) : State := { s with pwr := { s.pwr with pmic := cs, pmicOk := cs.isEmpty } }

theorem pmicEcho_plain (h : s.pwr.pmic = c :: cs) (hn : c.raises = 0) :
    exec .pmicEcho s = .next (acknowledged s cs) := by
  show execPmicEcho s = _
  simp only [execPmicEcho, h, hn, if_true]
  rfl

theorem pmicEcho_raises (h : s.pwr.pmic = c :: cs) (hn : c.raises ≠ 0) (hd : c.dom < 32) :
    ∃ u, exec .pmicEcho s = .next u ∧ u.pwr.pmic = cs ∧
      (getDom u c.dom).mv = max (getDom s c.dom).mv (min (psMax (supplyPs (getDom s c.dom))) ((getDom s c.dom).mv + 10 * c.raises)) ∧
      (getDom u c.dom).raiseWaits = (getDom s c.dom).raiseWaits - c.raises ∧ u.flt = s.flt ∧ u.mem = s.mem := by
  have hexec : exec .pmicEcho s =
      .next (updDom (setMv (acknowledged s cs) c.dom (raiseMv (getDom s c.dom) c.raises)) c.dom (fun x => { x with raiseWaits := x.raiseWaits - c.raises })) := by
    show execPmicEcho s = _
    simp only [execPmicEcho, h, hn, if_false]
    rfl
  refine ⟨_, hexec, setMv_pmic _ _ _, ?_, ?_, setMv_flt _ _ _, setMv_mem _ _ _⟩ <;> rw [getDom_updDom, getDom_setMv (acknowledged s cs) _ hd] <;> rfl

end

/-- The record of a PMIC or rail failure is of class D. -/
theorem fault_railFailure (s : State) :
    ∃ f : FaultMsg, f.code = 0x0802 ∧ f.cls = 3 ∧ fault { s with pwr := { s.pwr with pmicOk := false } } 0x0802 pwrSource none =
      { s with pwr := { s.pwr with pmicOk := false }, flt := { s.flt with raised := s.flt.raised ++ [f] } } := ⟨_, rfl, rfl, rfl⟩

theorem exec_pwrPmicFail_late {s : State} (h : ∃ c ∈ s.pwr.pmic, 10000 ≤ (s.now - c.sent).toNat) :
    exec .pwrPmicFail s = .next (fault { s with pwr := { s.pwr with pmicOk := false } } 0x0802 pwrSource none) :=
  congrArg Host.Outcome.next (if_pos (by simpa using h))
theorem exec_pwrPmicFail_acknowledged {s : State} (h : ¬ ∃ c ∈ s.pwr.pmic, 10000 ≤ (s.now - c.sent).toNat) : exec .pwrPmicFail s = .next s :=
  congrArg Host.Outcome.next (if_neg (by simpa using h))

/-! ### Heat (R390) -/

/-- A device event below 128 reaches Mladette firmware, whatever its route; an event changes queues of the schedulers alone. -/
theorem raiseEvent_device (s : State) {e : Nat} (he : e < 128) :
    ∃ q, raiseEvent s e = { s with sched := q } ∧ q.mld = s.sched.mld ++ [{ num := e }] := by
  have horigin : originOf s e = none := if_pos (.inr he)
  unfold raiseEvent raiseEventAt raiseEventBy
  simp only [horigin, he, if_true]
  split
  · split
    · exact ⟨_, rfl, rfl⟩
    · split
      · exact ⟨_, rfl, rfl⟩
      · split <;> exact ⟨_, rfl, rfl⟩
  · exact ⟨_, rfl, rfl⟩

section
variable {s : State} {d : Nat}

/-- May the thermal controller act on a domain again: has it not acted, or not for 100 µs? -/
def ThermReady (s : State) (d : Nat) : Prop := (getDom s d).thermAt = 0 ∨ 100000 ≤ (s.now - (getDom s d).thermAt).toNat

theorem thermReady_iff (s : State) (d : Nat) : ThermReady s d ↔ ¬ ((getDom s d).thermAt ≠ 0 ∧ (s.now - (getDom s d).thermAt).toNat < 100000) := by
  rw [not_and_or, not_not, not_lt]; rfl

theorem thermStep_hot_waits (hot : limitC s d < domTemp s d) (hr : ¬ ThermReady s d) : thermStep s d = s := by
  have hw := not_not.mp (mt (thermReady_iff s d).mpr hr)
  simp only [thermStep, not_le.mpr hot, false_and, if_false, hw, ne_eq, not_false_eq_true, and_self, or_true, if_true]

theorem thermStep_hot (hrun : (getDom s d).state = .run) (hr : ThermReady s d) (hot : limitC s d < domTemp s d) :
    thermStep s d =
      if slowestState d ≤ (getDom s d).ps ∨ !(manyStates d) then
        if (getDom s d).crossed then s else raiseEvent (updDom s d (fun x => { x with crossed := true })) 18
      else
        let (s1, ok) := if composedSlowest s d < (getDom s d).ps + 1 then thermConflict s d else (s, true)
        let s2 := updDom s1 d (fun x => { x with thermAt := s.now })
        if ok then settlePs (updDom s2 d (fun x => { x with limited := (getDom s d).ps + 1 })) d else s2 := by
  have hw := (thermReady_iff s d).mp hr
  simp only [thermStep, not_le.mpr hot, false_and, if_false, hrun, hw, ne_eq, not_true_eq_false, or_self, hot, if_true]

theorem thermStep_slows (hrun : (getDom s d).state = .run) (hr : ThermReady s d) (hot : limitC s d < domTemp s d) (hd : d < 32)
    (hfloor : (getDom s d).ps + 1 ≤ composedSlowest s d) (hps : (getDom s d).ps < slowestState d) :
    (getDom (thermStep s d) d).limited = (getDom s d).ps + 1 ∧ (getDom (thermStep s d) d).thermAt = s.now ∧
      (thermStep s d).pwr.sensors = s.pwr.sensors ∧ (thermStep s d).flt = s.flt ∧ (thermStep s d).mem = s.mem := by
  have hmany : manyStates d = true := decide_eq_true hd
  have heq : thermStep s d = settlePs (updDom (updDom s d (fun x => { x with thermAt := s.now })) d (fun x => { x with limited := (getDom s d).ps + 1 })) d := by
    rw [thermStep_hot hrun hr hot]
    simp only [hmany, not_le.mpr hps, not_lt.mpr hfloor, Bool.not_true, Bool.false_eq_true, or_self, if_false, if_true]
  have hch := settlePs_change (updDom (updDom s d (fun x => { x with thermAt := s.now })) d (fun x => { x with limited := (getDom s d).ps + 1 })) d
  rw [heq]
  exact ⟨hch.limited.trans (by rw [getDom_updDom]), hch.thermAt.trans (by rw [getDom_updDom, getDom_updDom]), hch.sensors, hch.flt, hch.mem⟩

theorem thermStep_crosses (hrun : (getDom s d).state = .run) (hr : ThermReady s d) (hot : limitC s d < domTemp s d)
    (hslow : 32 ≤ d ∨ slowestState d ≤ (getDom s d).ps) (hc : (getDom s d).crossed = false) :
    (getDom (thermStep s d) d).crossed = true ∧ (thermStep s d).sched.mld = s.sched.mld ++ [{ num := 18 }] ∧
      (thermStep s d).flt = s.flt ∧ (thermStep s d).mem = s.mem := by
  have hlast : slowestState d ≤ (getDom s d).ps ∨ (!(manyStates d)) = true := hslow.symm.imp_right fun h => by simp [manyStates, h]
  obtain ⟨q, hq, hmld⟩ := raiseEvent_device (updDom s d (fun x => { x with crossed := true })) (by decide : 18 < 128)
  rw [thermStep_hot hrun hr hot, if_pos hlast, if_neg (by simp [hc]), hq]
  exact ⟨congrArg Dom.crossed (getDom_updDom s d (fun x => { x with crossed := true })), hmld, rfl, rfl⟩

/-- The state in which the controller decides below the limit: the crossing, if any, is over. -/
def uncrossed (s : State) (d : Nat) : State := if (getDom s d).crossed then updDom s d (fun x => { x with crossed := false }) else s

theorem uncrossed_target (s : State) (d : Nat) : (getDom (uncrossed s d) d).target = (getDom s d).target := by
  unfold uncrossed
  split
  · rw [getDom_updDom]
  · rfl
theorem uncrossed_flt (s : State) (d : Nat) : (uncrossed s d).flt = s.flt := by
  unfold uncrossed
  split <;> rfl

/-- A domain given one state back, at an instant (R390). -/
def cooled (now : Word) (lim : Nat) (x : Dom) : Dom := { x with thermAt := now, limited := if lim ≤ x.target then 0 else lim }

theorem thermStep_cools (hrun : (getDom s d).state = .run) (hr : ThermReady s d) (cool : domTemp s d < limitC s d - hystC s d)
    (hl : (getDom s d).limited ≠ 0) :
    (getDom (thermStep s d) d).limited = (if (getDom s d).limited - 1 ≤ (getDom s d).target then 0 else (getDom s d).limited - 1) ∧
      (getDom (thermStep s d) d).thermAt = s.now ∧ (thermStep s d).flt = s.flt := by
  have hw := (thermReady_iff s d).mp hr
  have hhyst : 0 ≤ hystC s d := Int.natCast_nonneg _
  have hle : domTemp s d ≤ limitC s d := by omega
  have heq : thermStep s d = settlePs (updDom (uncrossed s d) d (cooled s.now ((getDom s d).limited - 1))) d := by
    simp only [thermStep, hrun, hw, ne_eq, not_true_eq_false, or_self, if_false, not_lt.mpr hle, hle, true_and, cool, hl, not_false_eq_true, and_self, if_true]
    rfl
  have hch := settlePs_change (updDom (uncrossed s d) d (cooled s.now ((getDom s d).limited - 1))) d
  have hdom : getDom (updDom (uncrossed s d) d (cooled s.now ((getDom s d).limited - 1))) d = cooled s.now ((getDom s d).limited - 1) (getDom (uncrossed s d) d) := getDom_updDom _ _ _
  rw [heq]
  refine ⟨hch.limited.trans ?_, hch.thermAt.trans (by rw [hdom]; rfl), hch.flt.trans (uncrossed_flt s d)⟩
  rw [hdom]
  simp only [cooled, uncrossed_target]

end

/-- The commands of the thermal controller: a sample kept with its maximum, or the timer alone, and one decision. -/
theorem exec_thermal {s s1 : State} {i : Instr} {d : Nat}
    (h : (∃ f : Fin 39, i = .thermalStepTimer f ∧ s1 = s ∧ d = f.val) ∨
      (∃ (k : BitVec 6) (temp : BitVec 8) (old : Sensor), i = .thermalSample k temp ∧ sensorDom k.toNat = some d ∧ old = look {} k.toNat s.pwr.sensors ∧
        s1 = { s with pwr := { s.pwr with sensors := put k.toNat { temp := temp, max := if old.max.slt temp then temp else old.max } s.pwr.sensors } })) :
    exec i s = .next (thermStep s1 d) ∧ ∃ t, s1 = { s with pwr := { s.pwr with sensors := t } } := by
  obtain ⟨f, rfl, rfl, rfl⟩ | ⟨k, temp, old, rfl, hd, rfl, rfl⟩ := h
  · exact ⟨rfl, _, rfl⟩
  · refine ⟨?_, _, rfl⟩
    show execThermalSample k temp s = _
    simp only [execThermalSample, hd]

/-- Settles O49: each command of supplies, canaries, PMIC and heat by the lemma of its case. -/
theorem suppliesFollowCanariesAndHeat : Obligations.SuppliesFollowCanariesAndHeat := by
  intro s
  refine ⟨fun c pm => ⟨exec_canarySample_asleep, canarySample_kept, canarySample_raises, canarySample_waits, canarySample_floor⟩,
    fun d => ⟨fun hrun hlow hfree hmv => supplyLower_lowers ⟨hrun, hlow, hfree, hmv⟩, fun hnot => exec_supplyLower_of_not fun hmay => ?_⟩,
    fun d => ⟨psChangeDone_none, fun ps => psChangeDone_faster, fun ps => psChangeDone_slower⟩,
    pmicEcho_none, fun c cs hq => ⟨pmicEcho_plain hq, pmicEcho_raises hq⟩, ?_, fun i s1 d hi => ?_⟩
  · obtain ⟨hrun, hlow, hfree, hmv⟩ := hmay
    obtain hn | ⟨c, hc, hn⟩ | hn | hn := hnot
    · exact hn hrun
    · exact absurd (hlow c hc) (by omega)
    · exact hn hfree
    · omega
  · obtain ⟨f, hcode, hcls, hf⟩ := fault_railFailure s
    exact ⟨fun hlate => ⟨f, hcode, hcls, hf ▸ exec_pwrPmicFail_late hlate⟩, exec_pwrPmicFail_acknowledged, f, hcode, hcls, congrArg Host.Outcome.next hf⟩
  · obtain ⟨hexec, t, rfl⟩ := exec_thermal hi
    rw [hexec]
    refine ⟨fun _ hot hr => congrArg Host.Outcome.next (thermStep_hot_waits hot hr), fun hrun hr hot hd hfloor hps => ⟨_, rfl, thermStep_slows hrun hr hot hd hfloor hps⟩,
      fun hrun hr hot hslow hc => ⟨_, rfl, thermStep_crosses hrun hr hot hslow hc⟩, fun hrun hr cool hl => ⟨_, rfl, thermStep_cools hrun hr cool hl⟩⟩

end Sys2Proof.Machine
end

section
/-! Settles O57 (the composition engine: 02_handshake_timing.md R31, R33, 03_composition_image.md R42 to R53, R486). The
layers: what the schedulers, the deadline monitor, the network and the power controller never touch; memory but for NEXT
of free nodes; a cell that leaves or enters ACTIVE; then the endings of a load, and the commands of COMP. -/
namespace Sys2Proof.Machine

/-! ### What lies apart from scheduling

Decisions of the schedulers, jobs, timers, watchdogs, streams and domains leave memory, the composition engine, the cells
and the fabric as they are. -/

/-- Memory, the composition engine, the cells and the fabric. -/
def compView (s : State) : List Host.Cell × Comp × Tbl Cell × Fab := (s.mem, s.comp, s.cells, s.fab)

theorem compView_eq_iff {s u : State} : compView u = compView s ↔ u.mem = s.mem ∧ u.comp = s.comp ∧ u.cells = s.cells ∧ u.fab = s.fab := by
  simp [compView]

/-- What every step of a fold keeps, the fold keeps. -/
theorem foldl_keeps {α β : Type} {g : State → β} {f : State → α → State} (h : ∀ s x, g (f s x) = g s) (l : List α) (s : State) :
    g (l.foldl f s) = g s := by
  induction l generalizing s with
  | nil => rfl
  | cons x l ih => rw [List.foldl_cons, ih, h]

theorem compView_foldl {α : Type} {f : State → α → State} (h : ∀ s x, compView (f s x) = compView s) (l : List α) (s : State) :
    compView (l.foldl f s) = compView s := foldl_keeps h l s

@[simp] theorem compView_updCore (s : State) (c : Nat) (f : Core → Core) : compView (updCore s c f) = compView s := rfl
@[simp] theorem compView_updTcb (s : State) (t : Nat) (f : Tcb → Tcb) : compView (updTcb s t f) = compView s := rfl
@[simp] theorem compView_setQueue (s : State) (k : Nat) (q : List Nat) : compView (setQueue s k q) = compView s := rfl
@[simp] theorem compView_updJob (s : State) (j : Nat) (f : Job → Job) : compView (updJob s j f) = compView s := rfl
@[simp] theorem compView_updTimer (s : State) (t : Nat) (f : Timer → Timer) : compView (updTimer s t f) = compView s := rfl
@[simp] theorem compView_updWd (s : State) (c : Nat) (f : CellWd → CellWd) : compView (updWd s c f) = compView s := rfl
@[simp] theorem compView_updStream (s : State) (i : Nat) (f : Stream → Stream) : compView (updStream s i f) = compView s := rfl
@[simp] theorem compView_updPort (s : State) (p : Nat) (f : Port → Port) : compView (updPort s p f) = compView s := rfl
@[simp] theorem compView_updDom (s : State) (d : Nat) (f : Dom → Dom) : compView (updDom s d f) = compView s := rfl
@[simp] theorem compView_updSite (s : State) (n : Nat) (f : Site → Site) : compView (updSite s n f) = compView s := rfl
@[simp] theorem compView_updDbgCell (s : State) (c : Nat) (f : DbgCell → DbgCell) : compView (updDbgCell s c f) = compView s := rfl
@[simp] theorem compView_raise (s : State) (m : FaultMsg) : compView (raise s m) = compView s := rfl
@[simp] theorem compView_fault (s : State) (code : Nat) (source : BitVec 16) (cell : Option Nat) : compView (fault s code source cell) = compView s := rfl
@[simp] theorem compView_tellHv (s : State) (cls detail home : Nat) (origin : Option Nat) : compView (tellHv s cls detail home origin) = compView s := rfl

/-! Ready queues and dispatch. -/

@[simp] theorem compView_enqTail (s : State) (t : Nat) : compView (enqTail s t) = compView s := rfl
@[simp] theorem compView_enqHead (s : State) (t : Nat) : compView (enqHead s t) = compView s := rfl
@[simp] theorem compView_dequeue (s : State) (t : Nat) : compView (dequeue s t) = compView s := rfl
@[simp] theorem compView_startUse (s : State) (t : Nat) : compView (startUse s t) = compView s := by
  unfold startUse; split <;> simp

@[simp] theorem compView_stopUse (s : State) (t : Nat) : compView (stopUse s t) = compView s := by
  unfold stopUse; split <;> simp

@[simp] theorem compView_dispatchTo (s : State) (t c : Nat) : compView (dispatchTo s t c) = compView s := by simp [dispatchTo]
@[simp] theorem compView_undispatch (s : State) (c : Nat) : compView (undispatch s c) = compView s := by
  unfold undispatch; split <;> simp

@[simp] theorem compView_prefetchFor (s : State) (t c : Nat) : compView (prefetchFor s t c) = compView s := by
  unfold prefetchFor; dsimp only; split <;> simp

@[simp] theorem compView_giveTo (s : State) (t c : Nat) : compView (giveTo s t c) = compView s := by
  unfold giveTo; dsimp only; split <;> simp

@[simp] theorem compView_preemptFor (s : State) (t c : Nat) : compView (preemptFor s t c) = compView s := by simp [preemptFor]
theorem compView_place {s u : State} {t : Nat} (h : place s t = some u) : compView u = compView s := by
  unfold place at h
  dsimp only at h
  split at h
  · cases h; simp
  · split at h
    · split at h
      · cases h; simp
      · cases h
    · cases h

@[simp] theorem compView_makeReady (s : State) (t : Nat) : compView (makeReady s t) = compView s := by
  unfold makeReady
  dsimp only
  cases h : place (updTcb s t (fun x => { x with state := .ready })) t with
  | none => exact compView_enqTail _ _
  | some u => exact (compView_place h).trans (compView_updTcb _ _ _)

@[simp] theorem compView_replace (s : State) (t : Nat) : compView (replace s t) = compView s := by
  unfold replace
  cases h : place (dequeue s t) t with
  | none => rfl
  | some u => exact (compView_place h).trans (compView_dequeue _ _)

@[simp] theorem compView_feedCore (s : State) (c : Nat) : compView (feedCore s c) = compView s := by
  unfold feedCore; split <;> simp

@[simp] theorem compView_vacate (s : State) (c : Nat) : compView (vacate s c) = compView s := by
  unfold vacate; split <;> simp

@[simp] theorem compView_leaveCore (s : State) (t : Nat) : compView (leaveCore s t) = compView s := by
  unfold leaveCore; dsimp only; split_ifs <;> simp

@[simp] theorem compView_unchoose (s : State) (c : Nat) : compView (unchoose s c) = compView s := by
  unfold unchoose; split_ifs <;> simp

@[simp] theorem compView_forget (s : State) (t : Nat) : compView (forget s t) = compView s := by
  unfold forget
  rw [compView_foldl (fun s c => by split <;> simp), compView_dequeue]

@[simp] theorem compView_holdTask (s : State) (keep : Bool) (t : Nat) : compView (holdTask s keep t) = compView s := by
  unfold holdTask
  dsimp only
  split
  · rfl
  · rfl
  · split
    · split <;> simp
    · simp
  all_goals simp

@[simp] theorem compView_freeTask (s : State) (t : Nat) : compView (freeTask s t) = compView s := by
  unfold freeTask; dsimp only; split_ifs <;> simp

@[simp] theorem compView_startTcb (s : State) (t : Nat) : compView (startTcb s t) = compView s := by
  unfold startTcb; dsimp only; split_ifs <;> simp

/-! Jobs, timers and watchdogs. -/

@[simp] theorem compView_endJob (s : State) (j : Nat) (goal : JobState) (count : Job → Job) : compView (endJob s j goal count) = compView s := by
  unfold endJob; dsimp only; split <;> simp

@[simp] theorem compView_missJob (s : State) (j : Nat) (goal : JobState) : compView (missJob s j goal) = compView s := by
  unfold missJob; split <;> simp

@[simp] theorem compView_overrunJob (s : State) (j : Nat) : compView (overrunJob s j) = compView s := by
  unfold overrunJob
  split
  · rfl
  · dsimp only
    split
    · simp
    · split <;> simp

@[simp] theorem compView_overrunFirst (s : State) (r : Rec) (j limit : Nat) : compView (overrunFirst s r j limit) = compView s := by
  unfold overrunFirst
  split
  · split <;> simp
  · rfl

@[simp] theorem compView_closeJob (s : State) (j stamp : Nat) : compView (closeJob s j stamp) = compView s := by
  unfold closeJob
  split
  · rfl
  · dsimp only; split_ifs <;> simp

@[simp] theorem compView_expireJob (s : State) (j : Nat) : compView (expireJob s j) = compView s := by
  unfold expireJob
  split
  · rfl
  · dsimp only; split_ifs <;> simp

@[simp] theorem compView_settleJob (s : State) (j : Nat) : compView (settleJob s j) = compView s := by
  unfold settleJob
  split
  · exact compView_closeJob _ _ _
  · rfl

@[simp] theorem compView_suspendJobs (s : State) (c : Nat) : compView (suspendJobs s c) = compView s := by
  refine compView_foldl (fun s r => ?_) _ _
  dsimp only
  split
  · split_ifs <;> simp
  · simp
  · rfl

@[simp] theorem compView_resumeJobs (s : State) (c : Nat) : compView (resumeJobs s c) = compView s :=
  compView_foldl (fun s r => by split <;> simp) _ _

@[simp] theorem compView_raiseEventAt (s : State) (e : Nat) (stamp : Word) : compView (raiseEventAt s e stamp) = compView s := by
  unfold raiseEventAt raiseEventBy
  dsimp only
  split
  · split
    · split <;> rfl
    · split_ifs <;> rfl
  · split <;> rfl

@[simp] theorem compView_raiseEvent (s : State) (e : Nat) : compView (raiseEvent s e) = compView s := compView_raiseEventAt _ _ _
@[simp] theorem compView_expireLate (s : State) (t : Nat) : compView (expireLate s t) = compView s := by simp [expireLate]
@[simp] theorem compView_wakeTimers (s : State) (c : Nat) : compView (wakeTimers s c) = compView s :=
  compView_foldl (fun s t => by split <;> simp) _ _

@[simp] theorem compView_wdStart (s : State) (c : Nat) : compView (wdStart s c) = compView s := by
  unfold wdStart; split <;> simp

@[simp] theorem compView_wdFreeze (s : State) (c : Nat) : compView (wdFreeze s c) = compView s := by
  unfold wdFreeze; split <;> simp

@[simp] theorem compView_wdStop (s : State) (c : Nat) : compView (wdStop s c) = compView s := rfl
@[simp] theorem compView_wdThaw (s : State) (c : Nat) : compView (wdThaw s c) = compView s := by
  unfold wdThaw; dsimp only; split <;> simp

/-! Streams. -/

@[simp] theorem compView_setRing (s : State) (k i : Nat) (r : Ring) : compView (setRing s k i r) = compView s := by
  unfold setRing; split <;> rfl

@[simp] theorem compView_noteSafe (s : State) (i : Nat) : compView (noteSafe s i) = compView s := by
  unfold noteSafe; split <;> simp

@[simp] theorem compView_discardQueued (s : State) (i : Nat) : compView (discardQueued s i) = compView s := by
  unfold discardQueued freeSlots; simp; rfl

@[simp] theorem compView_enterHold (s : State) (i : Nat) : compView (enterHold s i) = compView s := by simp [enterHold]
@[simp] theorem compView_enterStale (s : State) (i : Nat) : compView (enterStale s i) = compView s := rfl
@[simp] theorem compView_refreshStream (s : State) (i : Nat) : compView (refreshStream s i) = compView s := by
  unfold refreshStream
  dsimp only
  split
  · rfl
  all_goals split <;> simp

@[simp] theorem compView_netRefresh (s : State) : compView (netRefresh s) = compView s := compView_foldl compView_refreshStream _ _
@[simp] theorem compView_createStreams (s : State) (reset : Bool) : compView (createStreams s reset) = compView s := by
  unfold createStreams
  rw [compView_netRefresh, compView_foldl (fun s r => by simp [apply_ite compView])]

@[simp] theorem compView_removeStreams (s : State) : compView (removeStreams s) = compView s :=
  compView_foldl (fun s i => by split <;> simp) _ _

@[simp] theorem compView_dropWatch (s : State) (i : Nat) : compView (dropWatch s i) = compView s := rfl
@[simp] theorem compView_ringOff (s : State) (k i : Nat) : compView (ringOff s k i) = compView s := by
  unfold ringOff
  dsimp only
  split_ifs <;> simp

/-! Domains. -/

@[simp] theorem compView_settlePs (s : State) (d : Nat) : compView (settlePs s d) = compView s := by
  obtain ⟨p, h⟩ := (settlePs_change s d).outside
  rw [h]; rfl

@[simp] theorem compView_wakeDom (s : State) (d : Nat) : compView (wakeDom s d) = compView s := by
  unfold wakeDom
  dsimp only
  split
  · split <;> simp
  all_goals simp

@[simp] theorem compView_loseVotes (s : State) : compView (loseVotes s) = compView s :=
  compView_foldl (fun s d => by rw [compView_settlePs]; split <;> simp) _ _

@[simp] theorem compView_pwrSeal (s : State) : compView (pwrSeal s) = compView s := compView_loseVotes _
@[simp] theorem compView_pwrCommit (s : State) : compView (pwrCommit s) = compView s := compView_loseVotes _
@[simp] theorem compView_pwrRelease (s : State) (old : List Rec) : compView (pwrRelease s old) = compView s := by
  unfold pwrRelease
  dsimp only
  split
  · refine (compView_wakeDom _ _).trans (compView_foldl (fun s r => ?_) _ _)
    exact compView_wakeDom _ _
  · refine compView_foldl (fun s r => ?_) _ _
    exact compView_wakeDom _ _

/-! Cells that leave and enter ACTIVE: memory, the composition engine and the fabric stay, and no other cell changes. -/

theorem compView_updCell {s u : State} (h : compView u = compView s) (c : Nat) (f : Cell → Cell) : compView (updCell u c f) = compView (updCell s c f) := by
  obtain ⟨hmem, hcomp, hcells, hfab⟩ := compView_eq_iff.mp h
  simp [compView, getCell, hmem, hcomp, hcells, hfab]

theorem compView_leaveActive (s : State) (c : Nat) (goal : CellState) :
    compView (leaveActive s c goal) = compView (updCell s c (fun x => { x with state := goal })) := by
  have hheld : ∀ (l : List Nat) (k : Bool) (t : State), compView (l.foldl (fun s t => holdTask s k t) t) = compView t :=
    fun l k t => compView_foldl (fun s t => compView_holdTask s k t) l t
  unfold leaveActive
  dsimp only
  rw [compView_netRefresh]
  split
  · rw [compView_wdFreeze, hheld, compView_updCell (compView_suspendJobs s c)]
  · split
    · rw [compView_wdFreeze, hheld, compView_updCell (compView_suspendJobs s c)]
    · rw [hheld, compView_updCell (compView_suspendJobs s c)]
  · split
    · rw [compView_wdStop, hheld, compView_updCell (compView_suspendJobs s c)]
    · rw [hheld, compView_updCell (compView_suspendJobs s c)]

theorem compView_enterActive (s : State) (c : Nat) (afresh : Bool) :
    compView (enterActive s c afresh) = compView (updCell s c (fun x => { x with state := .active })) := by
  unfold enterActive
  dsimp only
  rw [compView_netRefresh, compView_foldl compView_freeTask, compView_wakeTimers]
  split <;> simp

/-! ### Memory but for NEXT of free nodes (R189, R190, R192) -/

/-- `u` reads as `s` does, but for NEXT of the context nodes of some compositions. -/
def NextOnly (cs : List (List Rec)) (s u : State) : Prop :=
  ∀ p, (∀ live c hi n, live ∈ cs → n < poolCount live c hi → ¬ (nodeAddr live c hi n ≤ p ∧ p < nodeAddr live c hi n + 8)) → rdByte u p = rdByte s p

/-- `u` has the composition engine and the fabric of `s`, and its memory but for NEXT of context nodes. -/
structure Linked (cs : List (List Rec)) (s u : State) : Prop where
  next : NextOnly cs s u
  comp : u.comp = s.comp
  fab : u.fab = s.fab

theorem NextOnly.of_mem (cs : List (List Rec)) {s u : State} (h : u.mem = s.mem) : NextOnly cs s u := fun p _ => by simp [rdByte, h]
theorem NextOnly.trans {cs : List (List Rec)} {s t u : State} (h : NextOnly cs s t) (k : NextOnly cs t u) : NextOnly cs s u :=
  fun p hp => (k p hp).trans (h p hp)

theorem NextOnly.mono {cs ds : List (List Rec)} {s u : State} (h : NextOnly cs s u) (hsub : cs ⊆ ds) : NextOnly ds s u :=
  fun p hp => h p fun live c hi n hl => hp live c hi n (hsub hl)

theorem Linked.trans {cs : List (List Rec)} {s t u : State} (h : Linked cs s t) (k : Linked cs t u) : Linked cs s u :=
  ⟨h.next.trans k.next, k.comp.trans h.comp, k.fab.trans h.fab⟩

theorem Linked.of_eq (cs : List (List Rec)) {s u : State} (hmem : u.mem = s.mem) (hcomp : u.comp = s.comp) (hfab : u.fab = s.fab) : Linked cs s u :=
  ⟨.of_mem cs hmem, hcomp, hfab⟩

theorem Linked.of_view (cs : List (List Rec)) {s u : State} (h : compView u = compView s) : Linked cs s u := by
  obtain ⟨hmem, hcomp, -, hfab⟩ := compView_eq_iff.mp h
  exact .of_eq cs hmem hcomp hfab

theorem Linked.foldl {α : Type} {cs : List (List Rec)} {f : State → α → State} {l : List α}
    (h : ∀ t x, t.comp.live ∈ cs → Linked cs t (f t x)) (s : State) (hs : s.comp.live ∈ cs) : Linked cs s (l.foldl f s) := by
  induction l generalizing s with
  | nil => exact .of_eq cs rfl rfl rfl
  | cons x l ih =>
    have hx := h s x hs
    exact hx.trans (ih _ (hx.comp ▸ hs))

/-- A byte put at an address leaves every other address as it was, whatever the form of the list. -/
theorem cellGet_cellPut_other {a p : Nat} (h : p ≠ a) (x : Byte) (m : List Host.Cell) : cellGet p (cellPut a x m) = cellGet p m := by
  induction m with
  | nil => by_cases hx : x = unlistedByte <;> simp [cellPut, cellGet, hx, h.symm]
  | cons e t ih =>
    obtain ⟨b, y⟩ := e
    by_cases h1 : a < b
    · by_cases hx : x = unlistedByte <;> simp [cellPut, cellGet, h1, hx, h.symm]
    · by_cases h2 : a = b
      · subst h2
        by_cases hx : x = unlistedByte <;> simp [cellPut, cellGet, hx, h.symm]
      · simp [cellPut, cellGet, h1, h2, ih]

theorem cellGet_cellsPut_outside {a p : Nat} {bs : List Byte} (h : ¬ (a ≤ p ∧ p < a + bs.length)) (m : List Host.Cell) :
    cellGet p (cellsPut a bs m) = cellGet p m := by
  induction bs generalizing a m with
  | nil => rfl
  | cons x xs ih =>
    rw [List.length_cons] at h
    rw [cellsPut, ih (by omega), cellGet_cellPut_other (by omega)]

theorem length_natLe (n x : Nat) : (natLe n x).length = n := by
  induction n generalizing x with
  | zero => rfl
  | succ n ih => rw [natLe, List.length_cons, ih]

theorem rdByte_performWrite_outside (s : State) {pa p : Nat} {bs : List Byte} (h : ¬ (pa ≤ p ∧ p < pa + bs.length)) :
    rdByte (performWrite s pa bs) p = rdByte s p := by
  unfold performWrite putMem
  split
  · rfl
  · exact cellGet_cellsPut_outside h s.mem

theorem performWrite_apart (s : State) (pa : Nat) (bs : List Byte) :
    (performWrite s pa bs).comp = s.comp ∧ (performWrite s pa bs).cells = s.cells ∧ (performWrite s pa bs).fab = s.fab := by
  unfold performWrite putMem
  split <;> exact ⟨rfl, rfl, rfl⟩

theorem performWrite_next {cs : List (List Rec)} {s : State} (hs : s.comp.live ∈ cs) {c n : Nat} {hi : Bool} (hn : n < poolCount s.comp.live c hi) (x : Nat) :
    Linked cs s (performWrite s (nodeAddr s.comp.live c hi n) (natLe 8 x)) := by
  obtain ⟨hcomp, -, hfab⟩ := performWrite_apart s (nodeAddr s.comp.live c hi n) (natLe 8 x)
  refine ⟨fun p hp => rdByte_performWrite_outside s ?_, hcomp, hfab⟩
  rw [length_natLe]
  exact hp _ c hi n hs hn

/-- The NEXT words of one pool of a cell, every node free. -/
def linkPool (c : Nat) (hi : Bool) (s : State) : State :=
  (List.range (poolCount s.comp.live c hi)).foldl (fun s' i => performWrite s' (nodeAddr s'.comp.live c hi i)
    (natLe 8 (if i + 1 < poolCount s.comp.live c hi then nodeAddr s'.comp.live c hi (i + 1) else 0))) s

/-- No node of a cell's pools returned or taken. -/
def untouchedPools (s : State) (c : Nat) : State := { s with sched := { s.sched with poolLo := drop' c s.sched.poolLo, poolHi := drop' c s.sched.poolHi } }
theorem freshPools_eq (s : State) (c : Nat) : freshPools s c = linkPool c true (linkPool c false (untouchedPools s c)) := rfl

theorem foldl_performWrite {cs : List (List Rec)} {c : Nat} {hi : Bool} {live : List Rec} (hl : live ∈ cs) (next : State → Nat → Nat) {is : List Nat}
    (his : ∀ i ∈ is, i < poolCount live c hi) (s : State) (hs : s.comp.live = live) :
    Linked cs s (is.foldl (fun s i => performWrite s (nodeAddr s.comp.live c hi i) (natLe 8 (next s i))) s) ∧
      (is.foldl (fun s i => performWrite s (nodeAddr s.comp.live c hi i) (natLe 8 (next s i))) s).cells = s.cells := by
  induction is generalizing s with
  | nil => exact ⟨.of_eq cs rfl rfl rfl, rfl⟩
  | cons i is ih =>
    have hfirst := performWrite_next (cs := cs) (s := s) (hs ▸ hl) (hs ▸ his i (by simp)) (next s i)
    obtain ⟨hrest, hcells⟩ := ih (fun j hj => his j (by simp [hj])) (performWrite s (nodeAddr s.comp.live c hi i) (natLe 8 (next s i))) (by rw [hfirst.comp]; exact hs)
    exact ⟨hfirst.trans hrest, hcells.trans (performWrite_apart _ _ _).2.1⟩

theorem linkPool_linked {cs : List (List Rec)} {s : State} (hs : s.comp.live ∈ cs) (c : Nat) (hi : Bool) :
    Linked cs s (linkPool c hi s) ∧ (linkPool c hi s).cells = s.cells :=
  foldl_performWrite hs _ (fun _ => List.mem_range.mp) s rfl

theorem freshPools_linked {cs : List (List Rec)} {s : State} (hs : s.comp.live ∈ cs) (c : Nat) : Linked cs s (freshPools s c) := by
  have hlo := (linkPool_linked (cs := cs) (s := untouchedPools s c) hs c false).1
  have hhi := (linkPool_linked (cs := cs) (hlo.comp ▸ hs) c true).1
  rw [freshPools_eq]
  exact (Linked.of_eq cs (s := s) (u := untouchedPools s c) rfl rfl rfl).trans (hlo.trans hhi)

@[simp] theorem freshPools_cells (s : State) (c : Nat) : (freshPools s c).cells = s.cells := by
  have hcells : ∀ (s : State) (hi : Bool), (linkPool c hi s).cells = s.cells := fun s hi => (linkPool_linked (List.mem_singleton_self s.comp.live) c hi).2
  rw [freshPools_eq, hcells, hcells]
  rfl

theorem poolReturn_linked {cs : List (List Rec)} {s : State} (hs : s.comp.live ∈ cs) {c n : Nat} {hi : Bool} (hn : n < poolCount s.comp.live c hi) :
    Linked cs s (poolReturn s c hi n) := by
  refine (performWrite_next hs hn (poolHeadAddr s c hi)).trans ?_
  unfold poolReturn setPool
  dsimp only
  split <;> exact .of_eq cs rfl rfl rfl

/-- A node given back is one of its cell's pool, so that NEXT of a node is written. -/
theorem giveBack_linked {cs : List (List Rec)} {s : State} (hs : s.comp.live ∈ cs) (c : Nat) (hi : Bool) (a : Nat) : Linked cs s (giveBack s c hi a) := by
  unfold giveBack
  split
  · exact .of_eq cs rfl rfl rfl
  · split
    next n hn => exact poolReturn_linked hs (List.mem_range.mp (List.mem_of_find?_eq_some hn))
    next => exact .of_eq cs rfl rfl rfl

/-! ### The states of cells (R215) -/

theorem cellState_updCell (s : State) (c d : Nat) (f : Cell → Cell) : cellState (updCell s c f) d = if c = d then (f (getCell s c)).state else cellState s d := by
  simp only [cellState, getCell, updCell_cells, look_put]
  split <;> rfl

theorem cellState_of_cells {s u : State} (h : u.cells = s.cells) (c : Nat) : cellState u c = cellState s c := by simp [cellState, getCell, h]
theorem cellState_of_view {s u : State} (h : compView u = compView s) (c : Nat) : cellState u c = cellState s c :=
  cellState_of_cells (compView_eq_iff.mp h).2.2.1 c

theorem cellState_leaveActive (s : State) (c d : Nat) (goal : CellState) : cellState (leaveActive s c goal) d = if c = d then goal else cellState s d := by
  rw [cellState_of_view (compView_leaveActive s c goal), cellState_updCell]

theorem cellState_enterActive (s : State) (c d : Nat) (afresh : Bool) : cellState (enterActive s c afresh) d = if c = d then .active else cellState s d := by
  rw [cellState_of_view (compView_enterActive s c afresh), cellState_updCell]

theorem updCell_linked (cs : List (List Rec)) (s : State) (c : Nat) (f : Cell → Cell) : Linked cs s (updCell s c f) := .of_eq cs rfl rfl rfl
theorem leaveActive_linked (cs : List (List Rec)) (s : State) (c : Nat) (goal : CellState) : Linked cs s (leaveActive s c goal) :=
  (updCell_linked cs s c _).trans (.of_view cs (compView_leaveActive s c goal))

theorem enterActive_linked (cs : List (List Rec)) (s : State) (c : Nat) (afresh : Bool) : Linked cs s (enterActive s c afresh) :=
  (updCell_linked cs s c _).trans (.of_view cs (compView_enterActive s c afresh))

theorem leaveActive_mem (s : State) (c : Nat) (goal : CellState) : (leaveActive s c goal).mem = s.mem :=
  (compView_eq_iff.mp (compView_leaveActive s c goal)).1

theorem enterActive_mem (s : State) (c : Nat) (afresh : Bool) : (enterActive s c afresh).mem = s.mem :=
  (compView_eq_iff.mp (compView_enterActive s c afresh)).1

/-- What every step of a fold keeps, and one of its steps brings about where `I` holds, holds at its end. -/
theorem foldl_reaches {α : Type} {f : State → α → State} {P I : State → Prop} {x : α} (hP : ∀ s y, P s → P (f s y)) (hI : ∀ s y, I s → I (f s y))
    (hx : ∀ s, I s → P (f s x)) {l : List α} (hmem : x ∈ l) (s : State) (hs : I s) : P (l.foldl f s) := by
  have hkeep : ∀ (l : List α) (s : State), P s → P (l.foldl f s) := by
    intro l
    induction l with
    | nil => exact fun _ h => h
    | cons y l ih => exact fun s h => ih _ (hP s y h)
  induction l generalizing s with
  | nil => cases hmem
  | cons y l ih =>
    rcases List.mem_cons.mp hmem with rfl | hl
    · exact hkeep l _ (hx s hs)
    · exact ih hl _ (hI s y hs)

/-! ### What a composition creates (R46, R51) -/

@[simp] theorem compView_createTasks (s : State) (cs : List Nat) : compView (createTasks s cs) = compView s :=
  compView_foldl (fun s r => by dsimp only; split <;> simp) _ _

@[simp] theorem compView_createJobs (s : State) (c : Nat) : compView (createJobs s c) = compView s :=
  compView_foldl (fun s r => by split <;> simp) _ _

theorem createCell_linked {cs : List (List Rec)} {s : State} (hs : s.comp.live ∈ cs) (c : Nat) : Linked cs s (createCell s c) :=
  (freshPools_linked hs c).trans ((updCell_linked cs _ c _).trans ((enterActive_linked cs _ c true).trans (.of_view cs (compView_createJobs _ c))))

theorem cellState_createCell (s : State) (c d : Nat) : cellState (createCell s c) d = if c = d then .active else cellState s d := by
  unfold createCell
  rw [cellState_of_view (compView_createJobs _ c), cellState_enterActive, cellState_updCell]
  split
  · rfl
  · exact cellState_of_cells (freshPools_cells s c) d

/-! ### The commands of COMP_CTRL (R45, R53) -/

/-- A command refused for its party (0x0103), for the engine's state (0x0102), or taken. -/
def judgedCommand (s : State) (a : Access) (party listed : Bool) (t : State) : State :=
  if !party then refuse s a 0x0103 compSource compBase else if !listed then refuse s a 0x0102 compSource compBase else t

/-- MODE as a command writes it. -/
def withMode (s : State) (mode : Bool) : State := updComp s (fun c => { c with modeBit := mode })

/-- A command row writes its own command bit and no other. -/
theorem bit_commandRow (v : Word) {k i : Nat} (hk : k < 6) (hi : i < 6) :
    bit (((v &&& 0x100) ||| BitVec.ofNat 64 (1 <<< k)) &&& BitVec.allOnes 64) i = decide (i = k) := by
  have h100 : ((0x100 : Nat) : Word).getLsbD i = false := by interval_cases i <;> rfl
  have hone : (BitVec.ofNat 64 (1 <<< k)).getLsbD i = decide (i = k) := by interval_cases k <;> interval_cases i <;> rfl
  simp only [bit, BitVec.and_allOnes, BitVec.getLsbD_or, BitVec.getLsbD_and, h100, hone, Bool.and_false, Bool.false_or]

theorem mode_commandRow (v : Word) {k : Nat} (hk : k < 6) : bit ((v &&& 0x100) ||| BitVec.ofNat 64 (1 <<< k)) 8 = v.getLsbD 8 := by
  have h100 : ((0x100 : Nat) : Word).getLsbD 8 = true := rfl
  have hone : (BitVec.ofNat 64 (1 <<< k)).getLsbD 8 = false := by interval_cases k <;> rfl
  simp only [bit, BitVec.getLsbD_or, BitVec.getLsbD_and, h100, hone, Bool.and_true, Bool.or_false]

theorem compRow_eq (a : Access) (v : Word) (s : State) {k : Nat} (hk : k < 6) : compRow k a v s = compCommand s a k (v.getLsbD 8) := by
  have hcmd : (List.range 6).filter (fun i => bit (((v &&& 0x100) ||| BitVec.ofNat 64 (1 <<< k)) &&& BitVec.allOnes 64) i) = [k] := by
    rw [List.filter_congr fun i hi => bit_commandRow v hk (List.mem_range.mp hi)]
    interval_cases k <;> rfl
  have hall : bit (BitVec.allOnes 64) 8 = true := rfl
  simp only [compRow, writeCompCtrl, hcmd, hall, if_true, mode_commandRow v hk]

section
variable (s : State) (a : Access) (v : Word)

theorem exec_compStart : exec (.compStart a v) s = .next (judgedCommand s a (if v.getLsbD 8 then isHyp a else isMld a)
    (if v.getLsbD 8 then decide (s.comp.engine = .sealed) else decide (s.comp.engine = .empty ∨ s.comp.engine = .applied))
    (compStart (withMode s (v.getLsbD 8)) (v.getLsbD 8))) := by
  rw [Bool.decide_or]
  exact congrArg Host.Outcome.next (compRow_eq a v s (by decide))

theorem exec_compSeal : exec (.compSeal a v) s = .next (judgedCommand s a (isMld a) (decide (s.comp.engine = .applied)) (sealComp (withMode s (v.getLsbD 8)))) :=
  congrArg Host.Outcome.next (compRow_eq a v s (by decide))

theorem exec_compQuiesce : exec (.compQuiesce a v) s = .next (judgedCommand s a (isHyp a) (decide (s.comp.engine = .staged)) (quiesce (withMode s (v.getLsbD 8)))) :=
  congrArg Host.Outcome.next (compRow_eq a v s (by decide))

theorem exec_compCommit : exec (.compCommit a v) s = .next (judgedCommand s a (isHyp a) (decide (s.comp.engine = .quiesced)) (commitComp (withMode s (v.getLsbD 8)))) :=
  congrArg Host.Outcome.next (compRow_eq a v s (by decide))

theorem exec_compRelease : exec (.compRelease a v) s = .next (judgedCommand s a (isHyp a) (decide (s.comp.engine = .committed)) (release (withMode s (v.getLsbD 8)))) :=
  congrArg Host.Outcome.next (compRow_eq a v s (by decide))

theorem exec_compDiscard : exec (.compDiscard a v) s =
    .next (judgedCommand s a (isHyp a) (decide (s.comp.engine = .staged ∨ s.comp.engine = .quiesced)) (discard (withMode s (v.getLsbD 8)))) := by
  rw [Bool.decide_or]
  exact congrArg Host.Outcome.next (compRow_eq a v s (by decide))

end

section
variable {s : State} {a : Access}

theorem refuse_comp (code : Nat) : ∃ f : FaultMsg, refuse s a code compSource compBase = { s with flt := { s.flt with raised := s.flt.raised ++ [f] } } ∧
    f.code = code ∧ f.init = some (a.init, 2) := ⟨_, rfl, rfl, rfl⟩

/-- The two refusals of a command, whatever it would do. -/
theorem judged_refused {i : Instr} {party listed : Bool} {t : State} (h : exec i s = .next (judgedCommand s a party listed t)) :
    (party = false → ∃ f : FaultMsg, exec i s = .next { s with flt := { s.flt with raised := s.flt.raised ++ [f] } } ∧ f.code = 0x0103 ∧ f.init = some (a.init, 2)) ∧
    (party = true → listed = false → ∃ f : FaultMsg, exec i s = .next { s with flt := { s.flt with raised := s.flt.raised ++ [f] } } ∧ f.code = 0x0102 ∧ f.init = some (a.init, 2)) := by
  refine ⟨?_, ?_⟩
  · rintro rfl
    obtain ⟨f, hf, hcode⟩ := refuse_comp (s := s) (a := a) 0x0103
    exact ⟨f, hf ▸ h, hcode⟩
  · rintro rfl rfl
    obtain ⟨f, hf, hcode⟩ := refuse_comp (s := s) (a := a) 0x0102
    exact ⟨f, hf ▸ h, hcode⟩

theorem judged_taken {i : Instr} {party listed : Bool} {t : State} (h : exec i s = .next (judgedCommand s a party listed t)) (hp : party = true)
    (hl : listed = true) : exec i s = .next t := by
  rw [h, hp, hl]; rfl

end

/-! ### The endings of a load (R31, R42, R44, R45, R486) -/

/-- A load that has ended without success: the engine at rest, shadow tables and locks cleared, nothing else changed. -/
def LoadEnded (s u : State) : Prop :=
  u.comp.engine = compHome s ∧ u.comp.shadow = [] ∧ u.comp.locked = [] ∧ u.comp.targets = [] ∧ u.comp.live = s.comp.live ∧ u.mem = s.mem ∧ u.cells = s.cells

theorem poisonEnd_ended (s : State) (n : Nat) :
    LoadEnded s (poisonEnd s n) ∧ (poisonEnd s n).comp.op.st = 4 ∧ (poisonEnd s n).comp.cause = 3 ∧ (poisonEnd s n).flt = s.flt :=
  ⟨⟨rfl, rfl, rfl, rfl, rfl, rfl, rfl⟩, rfl, rfl, rfl⟩

theorem abortEnd_ended (s : State) (n : Nat) :
    LoadEnded s (abortEnd s n) ∧ (abortEnd s n).comp.op.st = 3 ∧ (abortEnd s n).comp.op.abortReq = false ∧ (abortEnd s n).flt = s.flt :=
  ⟨⟨rfl, rfl, rfl, rfl, rfl, rfl, rfl⟩, rfl, rfl, rfl⟩

/-- The code stands in the low byte of COMP_REJECT (R486). -/
theorem rejectCode_mod (off typ sec code : Nat) :
    (BitVec.ofNat 64 (at' (off % 2 ^ 32) 32 + at' (typ % 65536) 16 + at' (sec % 16) 8 + code)).toNat % 256 = code % 256 := by
  simp only [at', Nat.shiftLeft_eq, BitVec.toNat_ofNat]
  omega

theorem rejectEnd_ended (s : State) (code : Nat) (f : Fail) (n : Nat) :
    ∃ m : FaultMsg, LoadEnded s (rejectEnd s code f n) ∧ (rejectEnd s code f n).comp.op.st = 4 ∧ (rejectEnd s code f n).comp.cause = 1 ∧
      (rejectEnd s code f n).comp.reject.toNat % 256 = code % 256 ∧ (rejectEnd s code f n).flt = { s.flt with raised := s.flt.raised ++ [m] } ∧ m.code = 0x0101 :=
  ⟨_, ⟨rfl, rfl, rfl, rfl, rfl, rfl, rfl⟩, rfl, rfl, rejectCode_mod _ _ _ _, rfl, rfl⟩

/-- The end of a phase of a load (R45): a granted abort, poison, or what the phase itself decides. -/
def phaseEnd (s : State) (decided : State → State) : State :=
  let n := (readImage (srcBytes s)).1.length
  let (won, s1) := abortWins s
  if won then abortEnd s1 n else if srcPoisoned s then poisonEnd s1 n else decided s1

/-- A judgement that rejects with the first failing rule, or goes on. -/
def judgeWith (s : State) (r : Option (Nat × Fail)) (goOn : State → State) (s1 : State) : State :=
  match r with
  | some (code, f) => rejectEnd s1 code f (readImage (srcBytes s)).1.length
  | none => goOn s1

/-- The first form rule, and the first rule of the plan, that the source image fails. -/
def formFault (s : State) : Option (Nat × Fail) := firstFailing (formRules s (srcBytes s) (srcLen s))
def planFault (s : State) : Option (Nat × Fail) := firstFailing (planRules (judgeOf s (srcBytes s)))
/-- The engine goes on to a state, its operation's progress afresh. -/
def goOnTo (e : Engine) (s : State) : State := updComp s (fun c => { c with engine := e, op := { c.op with progress := 0 } })

section
variable {s : State}

theorem exec_compCheckDone : exec .compCheckDone s =
    .next (if s.comp.engine ≠ .checking then s else phaseEnd s (judgeWith s (formFault s) (goOnTo .validating))) := by
  rfl

theorem exec_compValidateDone : exec .compValidateDone s =
    .next (if s.comp.engine ≠ .validating then s else phaseEnd s (judgeWith s (planFault s) (goOnTo .applying))) := by
  rfl

theorem exec_compApplyDone : exec .compApplyDone s =
    .next (if s.comp.engine ≠ .applying then s else phaseEnd s (fun s1 => writeShadow s1 .applied)) := by
  rfl

theorem exec_compStageDone : exec .compStageDone s =
    .next (if s.comp.engine ≠ .staging then s else phaseEnd s (judgeWith s (formFault s) (judgeWith s (planFault s) (fun s1 => writeShadow s1 .staged)))) := by
  rfl

end

section
variable {s : State} {decided : State → State}

theorem phaseEnd_aborted (habort : s.comp.op.abortReq = true) (hwon : Config.freeBit s.free = true) :
    phaseEnd s decided = abortEnd (drawFree s).2 (readImage (srcBytes s)).1.length := by
  have hwins : abortWins s = (true, (drawFree s).2) := by rw [← hwon]; exact if_pos habort
  simp only [phaseEnd, hwins, if_true]

theorem abortWins_idle (habort : s.comp.op.abortReq = false) : abortWins s = (false, s) := if_neg (by simp [habort])
theorem phaseEnd_poisoned (habort : s.comp.op.abortReq = false) (hp : srcPoisoned s = true) :
    phaseEnd s decided = poisonEnd s (readImage (srcBytes s)).1.length := by
  simp only [phaseEnd, abortWins_idle habort, hp, Bool.false_eq_true, if_false, if_true]

theorem phaseEnd_decided (habort : s.comp.op.abortReq = false) (hp : srcPoisoned s = false) : phaseEnd s decided = decided s := by
  simp only [phaseEnd, abortWins_idle habort, hp, Bool.false_eq_true, if_false]

end

/-- Each of the four commands ends its phase of a load, and does nothing in another state. -/
theorem exec_phaseDone (s : State) {i : Instr} {e : Engine}
    (h : (i, e) ∈ [(Instr.compCheckDone, Engine.checking), (.compValidateDone, .validating), (.compApplyDone, .applying), (.compStageDone, .staging)]) :
    ∃ decided, exec i s = .next (if s.comp.engine ≠ e then s else phaseEnd s decided) := by
  simp only [List.mem_cons, Prod.mk.injEq, List.not_mem_nil, or_false] at h
  obtain ⟨rfl, rfl⟩ | ⟨rfl, rfl⟩ | ⟨rfl, rfl⟩ | ⟨rfl, rfl⟩ := h
  · exact ⟨_, exec_compCheckDone⟩
  · exact ⟨_, exec_compValidateDone⟩
  · exact ⟨_, exec_compApplyDone⟩
  · exact ⟨_, exec_compStageDone⟩

/-- An image rejected with the rule of the code (R486). -/
def Rejected (s : State) (i : Instr) (code : Nat) : Prop :=
  ∃ (u : State) (f : FaultMsg), exec i s = .next u ∧ LoadEnded s u ∧ u.comp.op.st = 4 ∧ u.comp.cause = 1 ∧ u.comp.reject.toNat % 256 = code % 256 ∧
    u.flt = { s.flt with raised := s.flt.raised ++ [f] } ∧ f.code = 0x0101

/-- Poison that ends a load. -/
def PoisonEnds (s : State) (i : Instr) : Prop :=
  ∃ u, exec i s = .next u ∧ LoadEnded s u ∧ u.comp.op.st = 4 ∧ u.comp.cause = 3 ∧ u.flt = s.flt

theorem rejected_of_exec {s : State} {i : Instr} {code n : Nat} {f : Fail} (h : exec i s = .next (rejectEnd s code f n)) : Rejected s i code := by
  obtain ⟨m, hm⟩ := rejectEnd_ended s code f n
  exact ⟨_, m, h, hm⟩

theorem poisonEnds_of_exec {s : State} {i : Instr} {n : Nat} (h : exec i s = .next (poisonEnd s n)) : PoisonEnds s i :=
  ⟨_, h, poisonEnd_ended s n⟩

section
variable {s : State} (habort : s.comp.op.abortReq = false) (hp : srcPoisoned s = false)
include habort hp

theorem compCheckDone_decides (he : s.comp.engine = .checking) :
    (∀ x, formFault s = some x → Rejected s .compCheckDone x.1) ∧
    (formFault s = none → exec .compCheckDone s = .next { s with comp := { s.comp with engine := .validating, op := { s.comp.op with progress := 0 } } }) := by
  have hexec := exec_compCheckDone (s := s)
  rw [if_neg (not_not.mpr he), phaseEnd_decided habort hp] at hexec
  refine ⟨fun x hx => ?_, fun hx => ?_⟩ <;> rw [hx] at hexec
  · exact rejected_of_exec hexec
  · exact hexec

theorem compValidateDone_decides (he : s.comp.engine = .validating) :
    (∀ x, planFault s = some x → Rejected s .compValidateDone x.1) ∧
    (planFault s = none → exec .compValidateDone s = .next { s with comp := { s.comp with engine := .applying, op := { s.comp.op with progress := 0 } } }) := by
  have hexec := exec_compValidateDone (s := s)
  rw [if_neg (not_not.mpr he), phaseEnd_decided habort hp] at hexec
  refine ⟨fun x hx => ?_, fun hx => ?_⟩ <;> rw [hx] at hexec
  · exact rejected_of_exec hexec
  · exact hexec

theorem compApplyDone_writes (he : s.comp.engine = .applying) : exec .compApplyDone s = .next (writeShadow s .applied) := by
  rw [exec_compApplyDone, if_neg (not_not.mpr he), phaseEnd_decided habort hp]

theorem compStageDone_decides (he : s.comp.engine = .staging) :
    (∀ x, formFault s = some x → Rejected s .compStageDone x.1) ∧ (∀ x, formFault s = none → planFault s = some x → Rejected s .compStageDone x.1) ∧
    (formFault s = none → planFault s = none → exec .compStageDone s = .next (writeShadow s .staged)) := by
  have hexec := exec_compStageDone (s := s)
  rw [if_neg (not_not.mpr he), phaseEnd_decided habort hp] at hexec
  refine ⟨fun x hx => ?_, fun x hx hy => ?_, fun hx hy => ?_⟩
  · rw [hx] at hexec; exact rejected_of_exec hexec
  · rw [hx, hy] at hexec; exact rejected_of_exec hexec
  · rw [hx, hy] at hexec; exact hexec

end

theorem compSourcePoison_ends {s : State} (he : s.comp.engine = .checking ∨ s.comp.engine = .validating ∨ s.comp.engine = .applying ∨ s.comp.engine = .staging)
    (hp : srcPoisoned s = true) : PoisonEnds s .compSourcePoison := by
  have hexec : exec .compSourcePoison s = .next (poisonEnd s (readImage (srcBytes s)).1.length) := by
    show execCompSourcePoison s = _
    obtain he | he | he | he := he <;> simp only [execCompSourcePoison, he, hp, if_true]
  exact poisonEnds_of_exec hexec

theorem compSourcePoison_clean {s : State} (hp : srcPoisoned s = false) : exec .compSourcePoison s = .next s := by
  show execCompSourcePoison s = _
  unfold execCompSourcePoison
  split <;> simp [hp]

/-! ### START, SEAL and QUIESCE (R45, R46, R49, R52) -/

/-- The nodes a new cell takes are of the composition it is created from (R486). -/
theorem createCells_linked {cs : List (List Rec)} {s : State} (hs : s.comp.live ∈ cs) (l : List Nat) : Linked cs s (l.foldl createCell s) :=
  Linked.foldl (fun _ c ht => createCell_linked ht c) s hs

theorem resumeCell_linked (cs : List (List Rec)) (s : State) (c : Nat) : Linked cs s (resumeCell s c) := by
  unfold resumeCell
  dsimp only
  split
  · refine .trans (.of_view cs ((compView_updDbgCell _ _ _).trans (compView_foldl (fun s n => ?_) _ _))) (enterActive_linked cs _ c false)
    split <;> simp
  · refine .of_view cs ((compView_updDbgCell _ _ _).trans (compView_foldl (fun s n => ?_) _ _))
    split <;> simp

theorem uncoverCell_linked (cs : List (List Rec)) (s : State) (c : Nat) : Linked cs s (uncoverCell s c) := by
  unfold uncoverCell
  dsimp only
  split
  · exact (resumeCell_linked cs s c).trans (.of_eq cs rfl rfl rfl)
  · exact .of_eq cs rfl rfl rfl

/-- The granted level evaluated anew touches cells and cores alone. -/
theorem reLevel_linked {cs : List (List Rec)} {s : State} (hs : s.comp.live ∈ cs) : Linked cs s (reLevel s) := by
  unfold reLevel
  dsimp only
  split
  · exact (Linked.foldl (fun t c _ => uncoverCell_linked cs t c) s hs).trans (.of_eq cs rfl rfl rfl)
  · exact .of_eq cs rfl rfl rfl

/-- The shadow tables made live (R46), before what the composition creates. -/
def madeLive (s : State) : State :=
  let s1 := updComp s (fun c => { c with
    engine := .sealed, isSealed := true, live := c.shadow, programme := c.shadowProg, scope := c.shadowScope, sealedSeq := c.stagedSeq, stagedSeq := 0, shadow := [], shadowProg := [] })
  { s1 with
    fab := { s1.fab with changing := true }
    cache := { s1.cache with masks := [] }
    cells := s1.cells.map (fun e => (e.1, { e.2 with s1 := 0 }))
    cores := s1.cores.map (fun e => (e.1, { e.2 with chk := [] })) }

/-- The cells, tasks, streams and votes of the composition now live come into being. -/
def populated (s : State) : State :=
  pwrSeal (createStreams (createTasks ((cellsOf s.comp.live).foldl createCell s) (cellsOf s.comp.live)) true)

theorem sealComp_eq (s : State) : sealComp s = reLevel (populated (madeLive s)) := rfl

theorem populated_linked {cs : List (List Rec)} {s : State} (hs : s.comp.live ∈ cs) : Linked cs s (populated s) :=
  (createCells_linked hs (cellsOf s.comp.live)).trans (.of_view cs (by simp [populated]))

theorem sealComp_linked (s : State) : Linked [s.comp.shadow] (madeLive s) (sealComp s) := by
  have hpop := populated_linked (s := madeLive s) (List.mem_singleton_self s.comp.shadow)
  rw [sealComp_eq]
  exact hpop.trans (reLevel_linked (by rw [hpop.comp]; exact List.mem_singleton_self s.comp.shadow))

/-- What QUIESCE does with one target. -/
def quiesceOne (s : State) (c : Nat) : State := if cellState s c = .active then leaveActive s c .quiesced else s

theorem quiesceOne_apart (s : State) (c : Nat) : ((quiesceOne s c).comp, (quiesceOne s c).mem) = (s.comp, s.mem) := by
  unfold quiesceOne
  split
  · rw [(leaveActive_linked [] s c .quiesced).comp, leaveActive_mem]
  · rfl

theorem cellState_quiesceOne (s : State) (c d : Nat) :
    cellState (quiesceOne s c) d = if c = d ∧ cellState s d = .active then .quiesced else cellState s d := by
  unfold quiesceOne
  by_cases hd : c = d
  · subst hd
    by_cases ha : cellState s c = .active <;> simp [ha, cellState_leaveActive]
  · by_cases ha : cellState s c = .active <;> simp [ha, hd, cellState_leaveActive]

theorem cellState_foldl_quiesce {cs : List Nat} {c : Nat} (hc : c ∈ cs) {s : State} (ha : cellState s c = .active) :
    cellState (cs.foldl quiesceOne s) c = .quiesced := by
  refine foldl_reaches (P := fun s => cellState s c = .quiesced) (I := fun s => cellState s c = .active ∨ cellState s c = .quiesced)
    (fun s d hq => ?_) (fun s d hs => ?_) (fun s hs => ?_) hc s (.inl ha)
  · simp [cellState_quiesceOne, hq]
  · rcases hs with hs | hs <;> simp [cellState_quiesceOne, hs, em']
  · rcases hs with hs | hs <;> simp [cellState_quiesceOne, hs]

theorem quiesce_refused {s : State} (h : (oldTargets s).any (fun c => cellState s c = .halted || cellState s c = .faulted) = true) :
    quiesce s = updComp s (fun c => { c with cause := 4 }) := if_pos h

theorem quiesce_begun {s : State} (h : (oldTargets s).any (fun c => cellState s c = .halted || cellState s c = .faulted) = false) :
    quiesce s = (oldTargets s).foldl quiesceOne (updComp s (fun c => { c with engine := .quiescing, op := OpStatus.start })) :=
  if_neg (by simp [h])

/-! ### Targets released unchanged (R45, R49) -/

/-- A quiesced target returned to ACTIVE. -/
def reactivate (s : State) (t : Nat × Nat) : State := if cellState s t.1 = .quiesced then enterActive s t.1 false else s

theorem reactivate_apart (s : State) (t : Nat × Nat) : ((reactivate s t).comp, (reactivate s t).mem) = (s.comp, s.mem) := by
  unfold reactivate
  split
  · rw [(enterActive_linked [] s t.1 false).comp, enterActive_mem]
  · rfl

theorem cellState_reactivate (s : State) (t : Nat × Nat) (d : Nat) :
    cellState (reactivate s t) d = if t.1 = d ∧ cellState s d = .quiesced then .active else cellState s d := by
  unfold reactivate
  by_cases hd : t.1 = d
  · subst hd
    by_cases ha : cellState s t.1 = .quiesced <;> simp [ha, cellState_enterActive]
  · by_cases ha : cellState s t.1 = .quiesced <;> simp [ha, hd, cellState_enterActive]

theorem cellState_foldl_reactivate {ts : List (Nat × Nat)} {t : Nat × Nat} (ht : t ∈ ts) {s : State} (hq : cellState s t.1 = .quiesced) :
    cellState (ts.foldl reactivate s) t.1 = .active := by
  refine foldl_reaches (P := fun s => cellState s t.1 = .active) (I := fun s => cellState s t.1 = .quiesced ∨ cellState s t.1 = .active)
    (fun s d ha => ?_) (fun s d hs => ?_) (fun s hs => ?_) ht s (.inl hq)
  · simp [cellState_reactivate, ha]
  · rcases hs with hs | hs <;> simp [cellState_reactivate, hs, em']
  · rcases hs with hs | hs <;> simp [cellState_reactivate, hs]

/-- An event held for a target goes to a scheduler's queue, or is counted as dropped. -/
theorem releaseEvent_eq (s : State) (h : HeldEvent) : ∃ q n, releaseEvent s h = { s with sched := q, comp := { s.comp with dropped := n } } := by
  unfold releaseEvent tellHv
  split
  · exact ⟨_, _, rfl⟩
  · split
    · exact ⟨_, _, rfl⟩
    · split_ifs <;> exact ⟨_, _, rfl⟩

theorem releaseEvents_eq (l : List HeldEvent) (s : State) : ∃ q n, l.foldl releaseEvent s = { s with sched := q, comp := { s.comp with dropped := n } } := by
  induction l generalizing s with
  | nil => exact ⟨_, _, rfl⟩
  | cons h l ih =>
    obtain ⟨q, n, hfirst⟩ := releaseEvent_eq s h
    obtain ⟨q', n', hrest⟩ := ih (releaseEvent s h)
    rw [List.foldl_cons, hrest, hfirst]
    exact ⟨_, _, rfl⟩

/-- The targets that exist already, reactivated; and the state in which no target is left and no event held. -/
def reactivated (s : State) : State := (s.comp.targets.filter (fun t => t.2 ≠ 2)).foldl reactivate s
def untargeted (s : State) : State := { s with comp := { s.comp with held := [], targets := [] } }
theorem releaseUnchanged_eq (s : State) : releaseUnchanged s = untargeted ((reactivated s).comp.held.foldl releaseEvent (reactivated s)) := rfl

theorem reactivated_apart (s : State) : (reactivated s).comp = s.comp ∧ (reactivated s).mem = s.mem :=
  Prod.mk.inj (foldl_keeps (g := fun s => (s.comp, s.mem)) reactivate_apart _ s)

theorem releaseUnchanged_apart (s : State) :
    (∃ n, (releaseUnchanged s).comp = { s.comp with dropped := n, held := [], targets := [] }) ∧ (releaseUnchanged s).mem = s.mem ∧
      (releaseUnchanged s).cells = (reactivated s).cells := by
  obtain ⟨hcomp, hmem⟩ := reactivated_apart s
  obtain ⟨q, n, h⟩ := releaseEvents_eq (reactivated s).comp.held (reactivated s)
  rw [releaseUnchanged_eq, h]
  exact ⟨⟨n, by simp only [untargeted, hcomp]⟩, hmem, rfl⟩

theorem cellState_releaseUnchanged {s : State} {c : Nat} (hc : c ∈ oldTargets s) (hq : cellState s c = .quiesced) : cellState (releaseUnchanged s) c = .active := by
  obtain ⟨t, ht, rfl⟩ := List.mem_map.mp hc
  rw [cellState_of_cells (releaseUnchanged_apart s).2.2]
  exact cellState_foldl_reactivate ht hq

section
variable {s : State}

theorem compQuiesceDone_goes (he : s.comp.engine = .quiescing) (habort : s.comp.op.abortReq = false) :
    exec .compQuiesceDone s = .next (if (oldTargets s).all (cellQuiet s) then { s with comp := { s.comp with engine := .quiesced, op := s.comp.op.finish 2 } } else s) := by
  show execCompQuiesceDone s = _
  simp only [execCompQuiesceDone, he, ne_eq, not_true_eq_false, if_false, abortWins_idle habort, Bool.false_eq_true]
  rfl

/-- The state after a granted abort of QUIESCING. -/
def quiesceAborted (s : State) : State :=
  updComp (releaseUnchanged s) (fun c => { c with engine := .sealed, op := c.op.aborted, shadow := [], shadowProg := [], stagedSeq := 0 })

/-- An abort of QUIESCING, granted or not (R31, R45): memory stays; granted, the targets are ACTIVE again. -/
theorem compQuiesceDone_abort (he : s.comp.engine = .quiescing) (habort : s.comp.op.abortReq = true) :
    ∃ u, exec .compQuiesceDone s = .next u ∧ u.mem = s.mem ∧ (Config.freeBit s.free = true → u.comp.engine = .sealed ∧ u.comp.op.st = 3 ∧ u.comp.live = s.comp.live ∧
      ∀ c, c ∈ oldTargets s → cellState s c = .quiesced → cellState u c = .active) := by
  have hwins : abortWins s = (Config.freeBit s.free, (drawFree s).2) := if_pos habort
  have hexec : exec .compQuiesceDone s = .next (if Config.freeBit s.free then quiesceAborted (drawFree s).2
      else if (oldTargets s).all (cellQuiet s) then updComp (drawFree s).2 (fun c => { c with engine := .quiesced, op := c.op.finish 2 }) else s) := by
    show execCompQuiesceDone s = _
    simp only [execCompQuiesceDone, he, ne_eq, not_true_eq_false, if_false, hwins]
    rfl
  refine ⟨_, hexec, ?_, fun hwon => ?_⟩
  · obtain ⟨-, hmem, -⟩ := releaseUnchanged_apart (drawFree s).2
    split_ifs
    · exact hmem
    · rfl
    · rfl
  · obtain ⟨⟨n, hcomp⟩, -, hcells⟩ := releaseUnchanged_apart (drawFree s).2
    rw [if_pos hwon]
    refine ⟨rfl, rfl, (congrArg Comp.live hcomp :), fun c hc hq => ?_⟩
    exact cellState_releaseUnchanged (s := (drawFree s).2) hc hq

theorem compCommitDone_waits (h : s.comp.engine ≠ .committing ∨ s.comp.cleaning ≠ []) : exec .compCommitDone s = .next s := by
  refine congrArg Host.Outcome.next (if_pos (h.imp_right fun hc => ?_))
  simpa using hc

theorem compCommitDone_done (he : s.comp.engine = .committing) (hc : s.comp.cleaning = []) :
    ∃ u, exec .compCommitDone s = .next u ∧ u.comp.engine = .committed ∧ u.comp.op.st = 2 ∧ u.comp.sealedSeq = s.comp.stagedSeq ∧ u.comp.live = s.comp.live ∧
      u.flt = s.flt ∧ u.mem = s.mem :=
  ⟨_, congrArg Host.Outcome.next (if_neg (by simp [he, hc])), rfl, rfl, rfl, rfl, rfl, rfl⟩

/-! ### DISCARD and RELEASE (R45, R51) -/

theorem discard_staged (he : s.comp.engine = .staged) :
    discard s = updComp s (fun c => { c with engine := .sealed, shadow := [], shadowProg := [], targets := [], stagedSeq := 0 }) := by
  simp [discard, he]

theorem discard_quiesced (he : s.comp.engine = .quiesced) :
    discard s = updComp (releaseUnchanged s) (fun c => { c with engine := .sealed, shadow := [], shadowProg := [], targets := [], stagedSeq := 0 }) := by
  simp [discard, he]

end

/-- S1_CELL of a cell cleared, as a target comes back (R51). -/
def clearS1 (s : State) (c : Nat) : State := updCell s c (fun x => { x with s1 := 0 })

theorem clearS1_linked (cs : List (List Rec)) (s : State) (c : Nat) : Linked cs s (clearS1 s c) := updCell_linked cs s c _
theorem cellState_clearS1 (s : State) (c d : Nat) : cellState (clearS1 s c) d = cellState s d := by
  rw [clearS1, cellState_updCell]
  split
  next h => rw [← h]; rfl
  next => rfl

/-- What RELEASE does with one target, by its ACTION: 0 replaced, 1 removed, 2 added. -/
def releaseOne (s : State) (t : Nat × Nat) : State :=
  match t.2 with
  | 2 => createCell s t.1
  | 1 => clearS1 s t.1
  | _ => reactivate (clearS1 (freshPools s t.1) t.1) t

theorem releaseOne_linked {cs : List (List Rec)} {s : State} (hs : s.comp.live ∈ cs) (t : Nat × Nat) : Linked cs s (releaseOne s t) := by
  unfold releaseOne
  split
  · exact createCell_linked hs t.1
  · exact clearS1_linked cs s t.1
  · refine (freshPools_linked hs t.1).trans ((clearS1_linked cs _ t.1).trans ?_)
    unfold reactivate
    split
    · exact enterActive_linked cs _ t.1 false
    · exact .of_eq cs rfl rfl rfl

theorem cellState_releaseOne (s : State) (t : Nat × Nat) (c : Nat) :
    cellState (releaseOne s t) c = if t.1 = c ∧ (t.2 = 2 ∨ t.2 ≠ 1 ∧ cellState s c = .quiesced) then .active else cellState s c := by
  unfold releaseOne
  split
  next h2 => simp [cellState_createCell, h2]
  next h1 => simp [cellState_clearS1, h1]
  next h2 h1 =>
    have n2 : t.2 ≠ 2 := h2
    have n1 : t.2 ≠ 1 := h1
    rw [cellState_reactivate, cellState_clearS1, cellState_of_cells (freshPools_cells s t.1)]
    simp [n2, n1]

theorem cellState_foldl_release {ts : List (Nat × Nat)} {t : Nat × Nat} (ht : t ∈ ts) {s : State}
    (h : t.2 = 2 ∨ t.2 = 0 ∧ cellState s t.1 = .quiesced) : cellState (ts.foldl releaseOne s) t.1 = .active := by
  have hactive : ∀ s u, cellState s t.1 = .active → cellState (releaseOne s u) t.1 = .active := by
    intro s u ha
    rw [cellState_releaseOne, ha, ite_self]
  rcases h with h2 | ⟨h0, hq⟩
  · refine foldl_reaches (I := fun _ => True) hactive (fun _ _ _ => trivial) (fun s _ => ?_) ht s trivial
    rw [cellState_releaseOne, if_pos ⟨rfl, .inl h2⟩]
  · refine foldl_reaches (I := fun s => cellState s t.1 = .quiesced ∨ cellState s t.1 = .active) hactive (fun s u hs => ?_) (fun s hs => ?_) ht s (.inl hq)
    · rcases hs with hs | hs
      · rw [cellState_releaseOne, hs]
        split <;> simp
      · exact .inr (hactive s u hs)
    · rcases hs with hs | hs
      · rw [cellState_releaseOne, if_pos ⟨rfl, .inr ⟨by simp [h0], hs⟩⟩]
      · exact hactive s t hs

/-- The engine SEALED again, with no target and nothing staged. -/
def released (s : State) : State :=
  updComp s (fun c => { c with engine := .sealed, stagedSeq := 0, shadow := [], shadowProg := [], targets := [], before := [] })

/-- The tasks of the targets that stay, and their held events on their routes. -/
def rerouted (s : State) (ts : List (Nat × Nat)) : State :=
  updComp (releaseHeld (createTasks s ((ts.filter (fun t => t.2 ≠ 1)).map (·.1)))) (fun c => { c with held := [] })

theorem release_eq (s : State) : release s =
    pwrRelease (createStreams (rerouted (s.comp.targets.foldl releaseOne (released s)) s.comp.targets) false) s.comp.before := rfl

theorem rerouted_apart (s : State) (ts : List (Nat × Nat)) :
    (∃ n, (rerouted s ts).comp = { s.comp with dropped := n, held := [] }) ∧ (rerouted s ts).mem = s.mem ∧ (rerouted s ts).cells = s.cells := by
  have hview := compView_createTasks s ((ts.filter (fun t => t.2 ≠ 1)).map (·.1))
  obtain ⟨hmem, hcomp, hcells, -⟩ := compView_eq_iff.mp hview
  obtain ⟨q, n, h⟩ := releaseEvents_eq (createTasks s ((ts.filter (fun t => t.2 ≠ 1)).map (·.1))).comp.held (createTasks s ((ts.filter (fun t => t.2 ≠ 1)).map (·.1)))
  rw [rerouted, releaseHeld, h]
  exact ⟨⟨n, by simp only [updComp, hcomp]⟩, hmem, hcells⟩

theorem release_releases (s : State) :
    (release s).comp.engine = .sealed ∧ (release s).comp.targets = [] ∧ (release s).comp.held = [] ∧ (release s).comp.live = s.comp.live ∧
      (release s).comp.sealedSeq = s.comp.sealedSeq ∧ NextOnly [s.comp.live] s (release s) ∧
      ∀ t ∈ s.comp.targets, t.2 = 2 ∨ t.2 = 0 ∧ cellState s t.1 = .quiesced → cellState (release s) t.1 = .active := by
  have htargets : Linked [s.comp.live] (released s) (s.comp.targets.foldl releaseOne (released s)) :=
    Linked.foldl (fun u t hu => releaseOne_linked hu t) (released s) (List.mem_singleton_self _)
  obtain ⟨⟨n, hcomp⟩, hmem, hcells⟩ := rerouted_apart (s.comp.targets.foldl releaseOne (released s)) s.comp.targets
  have hview : compView (release s) = compView (rerouted (s.comp.targets.foldl releaseOne (released s)) s.comp.targets) := by
    rw [release_eq, compView_pwrRelease, compView_createStreams]
  obtain ⟨hmem', hcomp', hcells', -⟩ := compView_eq_iff.mp hview
  rw [hcomp, htargets.comp] at hcomp'
  refine ⟨by rw [hcomp']; rfl, by rw [hcomp']; rfl, by rw [hcomp'], by rw [hcomp']; rfl, by rw [hcomp']; rfl, ?_, fun t ht h => ?_⟩
  · exact (NextOnly.of_mem _ (s := s) (u := released s) rfl).trans (htargets.next.trans (.of_mem _ (hmem'.trans hmem)))
  · rw [cellState_of_cells (hcells'.trans hcells)]
    exact cellState_foldl_release ht h

/-! ### COMMIT (R50) -/

/-! ### COMMIT (R50)

The maintenance engine of a slice that a COMMIT takes over ends its operation in the caches alone. -/

@[simp] theorem compView_setL2 (s : State) (n : Nat) (l : List L2Line) : compView (setL2 s n l) = compView s := rfl
@[simp] theorem compView_setPoison (s : State) (a : Nat) : compView (setPoison s a) = compView s := rfl
@[simp] theorem compView_drawFree (s : State) : compView (drawFree s).2 = compView s := rfl
@[simp] theorem compView_cacheFault (s : State) (code cls : Nat) (source : BitVec 16) (cell : Option CellId) (init : Option (InitId × BitVec 4)) (pa : Nat) :
    compView (cacheFault s code cls source cell init pa) = compView s := rfl

@[simp] theorem compView_removeSlc (s : State) (n line : Nat) : compView (removeSlc s n line) = compView s := rfl
@[simp] theorem compView_mapL2 (s : State) (n line : Nat) (f : L2Line → L2Line) : compView (mapL2 s n line f) = compView s := by
  unfold mapL2; split <;> simp

@[simp] theorem compView_mapSlc (s : State) (line : Nat) (f : SlcLine → SlcLine) : compView (mapSlc s line f) = compView s := by
  unfold mapSlc; split <;> simp

@[simp] theorem compView_applyInject (s : State) (pa : Nat) : compView (applyInject s pa) = compView s := by
  unfold applyInject
  dsimp only
  split
  · rfl
  · split <;> rfl

@[simp] theorem compView_writeDown (s : State) (line : Nat) : compView (writeDown s line) = compView s := by
  have hdirty : compView (dirtySlc s line) = compView s := by
    unfold dirtySlc; split <;> simp
  exact hdirty

@[simp] theorem compView_dropL1 (s : State) (c line : Nat) : compView (dropL1 s c line) = compView s := by
  unfold dropL1
  split
  · dsimp only; split <;> simp
  · rfl

@[simp] theorem compView_dropL2 (s : State) (n line : Nat) : compView (dropL2 s n line) = compView s := by
  have hl1 := compView_foldl (fun s j => compView_dropL1 s (8 * n + j) line) (List.range 8) s
  unfold dropL2
  dsimp only
  split
  · split <;> simp [hl1]
  · exact hl1

@[simp] theorem compView_dropOthers (s : State) (keep : Option Nat) (line : Nat) : compView (dropOthers s keep line) = compView s := by
  unfold dropOthers
  dsimp only
  rw [compView_foldl (fun s n => by split <;> simp), compView_foldl (fun s c => by split <;> simp)]

@[simp] theorem compView_cleanCopies (s : State) (line : Nat) : compView (cleanCopies s line) = compView s := by
  have hl1 := compView_foldl (f := fun s c => if (getCore s c).l1d.any (fun l => l.line = line) then
      updCore s c (fun k => { k with l1d := k.l1d.map (fun l => if l.line = line then { l with dirty := false, excl := false } else l) }) else s)
    (fun s c => by split <;> simp) (listedCores s) s
  unfold cleanCopies
  dsimp only
  split
  · rw [compView_writeDown]; exact hl1
  · exact hl1

@[simp] theorem compView_writeBack (s : State) (n line : Nat) (fails : Bool) : compView (writeBack s n line fails).1 = compView s := by
  unfold writeBack
  dsimp only
  split
  · split
    · refine (compView_cacheFault _ _ _ _ _ _ _).trans (compView_foldl (fun s u => ?_) _ _)
      rfl
    · refine (compView_mapSlc _ _ _).trans (compView_foldl (fun s u => ?_) _ _)
      rfl
  · rfl

@[simp] theorem compView_mntLine (s : State) (site : Nat) (inval fails : Bool) (line : Nat) : compView (mntLine s site inval fails line).1 = compView s := by
  unfold mntLine
  dsimp only
  split <;> (split <;> simp)

@[simp] theorem compView_mntFold (site : Nat) (inval : Bool) (fails : Option Nat) (ls : List Nat) (s : State) :
    compView (mntFold site inval fails ls s).1 = compView s := by
  induction ls generalizing s with
  | nil => rfl
  | cons l ls ih => exact (ih _).trans (compView_mntLine _ _ _ _ _)

@[simp] theorem compView_mntLines (s : State) (site n : Nat) (fails : Option Nat) : compView (mntLines s site n fails).1 = compView s := by
  unfold mntLines
  split
  · rfl
  · simp

@[simp] theorem compView_mntEnd (s : State) (site : Nat) (op : OpStatus → OpStatus) (cause : BitVec 4) (ok : Bool) : compView (mntEnd s site op cause ok) = compView s := by
  unfold mntEnd remaskSlice
  split
  · rfl
  · dsimp only; split <;> rfl

@[simp] theorem compView_mntAbort (s : State) (site : Nat) (cause : BitVec 4) : compView (mntAbort s site cause) = compView s := by simp [mntAbort]
@[simp] theorem compView_mntFinish (s : State) (site : Nat) (fails : Option Nat) (cause : BitVec 4) : compView (mntFinish s site fails cause) = compView s := by
  simp [mntFinish, apply_ite compView]

@[simp] theorem compView_mntDecide (s : State) (site : Nat) (cause : BitVec 4) (fails : Option Nat) : compView (mntDecide s site cause fails) = compView s := by
  simp [mntDecide, apply_ite compView]

/-! What a COMMIT changes outside the engine's own registers. -/

@[simp] theorem compView_commitRings (s0 s : State) (gone : List Nat) : compView (commitRings s0 s gone) = compView s := by
  refine compView_foldl (fun s q => ?_) _ _
  split
  · split <;> simp
  · rfl

@[simp] theorem compView_commitGates (s : State) (old : List Rec) : compView (commitGates s old) = compView s := by
  refine compView_foldl (fun s p => ?_) _ _
  dsimp only
  split
  · split <;> simp
  · simp
  · rfl

@[simp] theorem compView_dropTlbs (s : State) (io : Bool) (p : TlbEntry → Bool) : compView (dropTlbs s io p) = compView s := by
  unfold dropTlbs
  dsimp only
  split
  · refine Eq.trans (b := compView ((listedCores s).foldl _ s)) rfl (compView_foldl (fun s c => ?_) _ _)
    split <;> simp
  · refine compView_foldl (fun s c => ?_) _ _
    split <;> simp

@[simp] theorem compView_commitTlbs (s : State) (old : List Rec) (gone : List Nat) : compView (commitTlbs s old gone) = compView s :=
  compView_dropTlbs _ _ _

@[simp] theorem compView_commitCores (s : State) (gone : List Nat) : compView (commitCores s gone) = compView s := rfl
@[simp] theorem compView_commitTcbs (s : State) (gone : List Nat) : compView (commitTcbs s gone) = compView s := rfl

/-- The cleaning of a COMMIT is the engine's note of classes and sites; the tokens are the slices'. -/
theorem compView_commitClean (s : State) (cls sites : List Nat) :
    compView (commitClean s cls sites) = compView (updComp s (fun c => { c with cleanCls := cls, cleaning := sites })) := by
  refine compView_foldl (fun s n => ?_) _ _
  split <;> simp

theorem updTcb_linked (cs : List (List Rec)) (s : State) (t : Nat) (f : Tcb → Tcb) : Linked cs s (updTcb s t f) := .of_eq cs rfl rfl rfl

theorem unbindTcbs_linked {cs : List (List Rec)} {s : State} (hs : s.comp.live ∈ cs) (gone : List Nat) : Linked cs s (unbindTcbs s gone) := by
  refine Linked.foldl (fun u e hu => ?_) s hs
  split
  · have htcb := updTcb_linked cs u e.1 (fun x => { x with srcLo := x.nodeLo, srcHi := rdNat u x.nodeLo 8, nodeLo := 0, nodeHi := 0 })
    have hlo := htcb.trans (giveBack_linked (by rw [htcb.comp]; exact hu) e.2.cell false e.2.nodeLo)
    exact hlo.trans (giveBack_linked (by rw [hlo.comp]; exact hu) e.2.cell true e.2.nodeHi)
  · exact .of_eq cs rfl rfl rfl

/-! The stages of a COMMIT, in its order. -/

/-- Events of the targets held, their rings off, and the nodes of their tasks given back. -/
def unbound (s : State) : State := unbindTcbs (commitRings s (commitEvents s (oldTargets s)) (oldTargets s)) (oldTargets s)
/-- The staged composition made live, with its Passes. -/
def switched (s : State) : State :=
  commitPasses (updComp (unbound s) (fun c => { c with engine := .committing, op := OpStatus.start, live := c.shadow, before := s.comp.live }))

/-- Jobs without a record gone; and a removed cell, and a target's jobs, as the new composition has them. -/
def unjobbed (s : State) : State := { s with time := { s.time with jobs := s.time.jobs.filter (fun e => (jobRec s e.1).isSome) } }
def removeOne (s : State) (c : Nat) : State :=
  { updCell (freshPools s c) c (fun x => { x with state := .absent, tabs := [] }) with
    time := { s.time with wds := drop' c s.time.wds }, flt := { s.flt with blocks := s.flt.blocks.map (fun e => if e.2.valid ∧ e.2.cell = some (BitVec.ofNat 12 c) then (e.1, { e.2 with cmd := some false }) else e) } }

def rejob (s : State) (c : Nat) : State := createJobs (updCell s c (fun x => { x with tabs := [] })) c
/-- The targets of `s` taken from `s1`: control blocks, cells, jobs, TLB entries and cores. -/
def stripped (s s1 : State) : State :=
  commitCores (commitTlbs ((oldTargets s).foldl rejob (((s.comp.targets.filter (fun t => t.2 = 1)).map (·.1)).foldl removeOne
    (commitTcbs (unjobbed s1) (oldTargets s)))) s.comp.live (oldTargets s)) (oldTargets s)

/-- The masks of classes that the composition has changed dropped. -/
def unmasked (old : List Rec) (s : State) : State :=
  { s with cache := { s.cache with masks := s.cache.masks.filter (fun e => (findRec old tCLASS (fun r => ru8 r 0 = e.1)).map (·.data) = (findRec s.comp.live tCLASS (fun r => ru8 r 0 = e.1)).map (·.data)) } }

/-- Schedules, gate lists, streams and votes of the new composition, and the granted level. -/
def settled (s s1 : State) : State := reLevel (pwrCommit (removeStreams (commitGates (commitSched s s1) s.comp.live)))

theorem commitComp_eq (s : State) : ∃ cls sites, commitComp s = settled s (commitClean (unmasked s.comp.live (stripped s (switched s))) cls sites) := ⟨_, _, rfl⟩

theorem commitEvents_eq (s : State) (gone : List Nat) : ∃ q h, commitEvents s gone = { s with sched := q, comp := { s.comp with held := h } } := ⟨_, _, rfl⟩
theorem unbound_linked (s : State) : ∃ h, (unbound s).comp = { s.comp with held := h } ∧ (unbound s).fab = s.fab ∧ NextOnly [s.comp.live] s (unbound s) := by
  obtain ⟨q, h, hev⟩ := commitEvents_eq s (oldTargets s)
  obtain ⟨hmem, hcomp, -, hfab⟩ := compView_eq_iff.mp (compView_commitRings s (commitEvents s (oldTargets s)) (oldTargets s))
  rw [hev] at hmem hcomp hfab
  have hun := unbindTcbs_linked (cs := [s.comp.live]) (s := commitRings s (commitEvents s (oldTargets s)) (oldTargets s))
    (by rw [hev, hcomp]; exact List.mem_singleton_self _) (oldTargets s)
  refine ⟨h, hun.comp.trans ?_, hun.fab.trans ?_, (NextOnly.of_mem _ ?_).trans hun.next⟩ <;> rw [hev]
  · exact hcomp
  · exact hfab
  · exact hmem

theorem removeOne_linked {cs : List (List Rec)} {s : State} (hs : s.comp.live ∈ cs) (c : Nat) : Linked cs s (removeOne s c) :=
  (freshPools_linked hs c).trans (.of_eq cs rfl rfl rfl)

theorem rejob_linked (cs : List (List Rec)) (s : State) (c : Nat) : Linked cs s (rejob s c) :=
  (updCell_linked cs s c _).trans (.of_view cs (compView_createJobs _ c))

theorem stripped_linked {cs : List (List Rec)} (s : State) {s1 : State} (hs : s1.comp.live ∈ cs) : Linked cs s1 (stripped s s1) := by
  have hremoved : Linked cs s1 (((s.comp.targets.filter (fun t => t.2 = 1)).map (·.1)).foldl removeOne (commitTcbs (unjobbed s1) (oldTargets s))) :=
    Linked.trans (t := commitTcbs (unjobbed s1) (oldTargets s)) (.of_eq cs rfl rfl rfl) (Linked.foldl (fun u c hu => removeOne_linked hu c) _ hs)
  have hjobs := hremoved.trans (Linked.foldl (l := oldTargets s) (fun u c _ => rejob_linked cs u c) _ (by rw [hremoved.comp]; exact hs))
  exact hjobs.trans (.of_view cs (by rw [stripped, compView_commitCores, compView_commitTlbs]))

/-- After the switch the engine's registers change in the notes on cleaning and schedules alone. -/
theorem commitClean_linked (cs : List (List Rec)) (s : State) (cls sites : List Nat) :
    (commitClean s cls sites).comp = { s.comp with cleanCls := cls, cleaning := sites } ∧ (commitClean s cls sites).fab = s.fab ∧ NextOnly cs s (commitClean s cls sites) := by
  obtain ⟨hmem, hcomp, -, hfab⟩ := compView_eq_iff.mp (compView_commitClean s cls sites)
  exact ⟨hcomp, hfab, .of_mem cs hmem⟩

theorem settled_linked {cs : List (List Rec)} (s : State) {s1 : State} (hs : s1.comp.live ∈ cs) :
    (∃ x y, (settled s s1).comp = { s1.comp with oldSched := x, newSched := y }) ∧ (settled s s1).fab = s1.fab ∧ NextOnly cs s1 (settled s s1) := by
  have hrest : Linked cs (commitSched s s1) (pwrCommit (removeStreams (commitGates (commitSched s s1) s.comp.live))) := .of_view cs (by simp)
  have hall := hrest.trans (reLevel_linked (by rw [hrest.comp]; exact hs))
  exact ⟨⟨_, _, hall.comp⟩, hall.fab, (NextOnly.of_mem cs rfl).trans hall.next⟩

theorem switched_switches (s : State) :
    (∃ h, (switched s).comp = { s.comp with held := h, engine := .committing, op := OpStatus.start, live := s.comp.shadow, before := s.comp.live }) ∧
      (switched s).fab.passes = passesOf s.comp.shadow ∧ NextOnly [s.comp.live] s (switched s) := by
  obtain ⟨h, hcomp, -, hnext⟩ := unbound_linked s
  refine ⟨⟨h, ?_⟩, ?_, hnext.trans (.of_mem _ rfl)⟩
  · show { (unbound s).comp with engine := .committing, op := OpStatus.start, live := (unbound s).comp.shadow, before := s.comp.live } = _
    rw [hcomp]
  · show passesOf (unbound s).comp.shadow = _
    rw [hcomp]

theorem commitComp_commits (s : State) :
    (commitComp s).comp.engine = .committing ∧ (commitComp s).comp.op = { st := 1 } ∧ (commitComp s).comp.live = s.comp.shadow ∧ (commitComp s).comp.before = s.comp.live ∧
      (commitComp s).fab.passes = passesOf s.comp.shadow ∧ NextOnly [s.comp.live, s.comp.shadow] s (commitComp s) := by
  obtain ⟨cls, sites, heq⟩ := commitComp_eq s
  obtain ⟨⟨h, hsw⟩, hpasses, hswitch⟩ := switched_switches s
  have hlive : (switched s).comp.live ∈ [s.comp.live, s.comp.shadow] := by rw [hsw]; simp
  have hst := stripped_linked s hlive
  obtain ⟨hclcomp, hclfab, hclnext⟩ := commitClean_linked [s.comp.live, s.comp.shadow] (unmasked s.comp.live (stripped s (switched s))) cls sites
  have hcl : (commitClean (unmasked s.comp.live (stripped s (switched s))) cls sites).comp = { (switched s).comp with cleanCls := cls, cleaning := sites } := by
    rw [hclcomp, ← hst.comp]; rfl
  obtain ⟨⟨x, y, hcomp⟩, hfab, hnext⟩ := settled_linked (cs := [s.comp.live, s.comp.shadow]) s
    (s1 := commitClean (unmasked s.comp.live (stripped s (switched s))) cls sites) (by rw [hcl]; exact hlive)
  rw [hcl, hsw] at hcomp
  rw [heq]
  refine ⟨by rw [hcomp], by rw [hcomp]; rfl, by rw [hcomp], by rw [hcomp], ?_, ?_⟩
  · rw [hfab, hclfab, ← hpasses]
    exact congrArg Fab.passes hst.fab
  · exact (hswitch.mono (by simp)).trans (hst.next.trans ((NextOnly.of_mem _ rfl).trans (hclnext.trans hnext)))

/-! ### The statement -/

/-- The state after START of a load that its region allows, and after one that it does not. -/
theorem compStart_begun {s : State} (hp : srcPlaced s = true) (mode : Bool) : compStart (withMode s mode) mode =
    { s with comp := { s.comp with modeBit := mode, engine := if mode then .staging else .checking, partialMode := mode, op := { st := 1 }, reject := 0, shadow := [], shadowProg := [], targets := [], stagedSeq := 0, locked := srcPages s } } :=
  if_pos hp

theorem compStart_refused {s : State} (hp : srcPlaced s = false) (mode : Bool) : compStart (withMode s mode) mode =
    { s with comp := { s.comp with modeBit := mode, op := { st := 4 }, cause := 5, reject := 0 } } :=
  if_neg (Bool.eq_false_iff.mp hp)

section
variable {s : State} {a : Access} {v : Word}

theorem compStart_starts (h : if v.getLsbD 8 then isHyp a = true ∧ s.comp.engine = .sealed else isMld a = true ∧ (s.comp.engine = .empty ∨ s.comp.engine = .applied)) :
    exec (.compStart a v) s = .next (compStart (withMode s (v.getLsbD 8)) (v.getLsbD 8)) := by
  have hexec := exec_compStart s a v
  cases hm : v.getLsbD 8 <;> rw [hm] at h hexec
  · exact judged_taken hexec h.1 (decide_eq_true h.2)
  · exact judged_taken hexec h.1 (decide_eq_true h.2)

theorem compSeal_seals (hparty : isMld a = true) (he : s.comp.engine = .applied) :
    ∃ u, exec (.compSeal a v) s = .next u ∧ u.comp.engine = .sealed ∧ u.comp.isSealed = true ∧ u.comp.live = s.comp.shadow ∧ u.comp.sealedSeq = s.comp.stagedSeq ∧
      u.comp.shadow = [] ∧ u.fab.changing = true ∧ NextOnly [s.comp.shadow] s u := by
  have hl := sealComp_linked (withMode s (v.getLsbD 8))
  have hcomp : (sealComp (withMode s (v.getLsbD 8))).comp = (madeLive (withMode s (v.getLsbD 8))).comp := hl.comp
  refine ⟨_, judged_taken (exec_compSeal s a v) hparty (decide_eq_true he), ?_, ?_, ?_, ?_, ?_, ?_, (NextOnly.of_mem _ rfl).trans hl.next⟩
  · rw [hcomp]; rfl
  · rw [hcomp]; rfl
  · rw [hcomp]; rfl
  · rw [hcomp]; rfl
  · rw [hcomp]; rfl
  · rw [hl.fab]; rfl

theorem compQuiesce_refuses (hparty : isHyp a = true) (he : s.comp.engine = .staged)
    (h : (oldTargets s).any (fun c => cellState s c = .halted || cellState s c = .faulted) = true) :
    exec (.compQuiesce a v) s = .next { s with comp := { s.comp with modeBit := v.getLsbD 8, cause := 4 } } := by
  rw [judged_taken (exec_compQuiesce s a v) hparty (decide_eq_true he), quiesce_refused (s := withMode s (v.getLsbD 8)) h]
  rfl

theorem compQuiesce_begins (hparty : isHyp a = true) (he : s.comp.engine = .staged)
    (h : (oldTargets s).any (fun c => cellState s c = .halted || cellState s c = .faulted) = false) :
    ∃ u, exec (.compQuiesce a v) s = .next u ∧ u.comp.engine = .quiescing ∧ u.comp.op = { st := 1 } ∧ u.mem = s.mem ∧
      ∀ c, c ∈ oldTargets s → cellState s c = .active → cellState u c = .quiesced := by
  have hexec := judged_taken (exec_compQuiesce s a v) hparty (decide_eq_true he)
  rw [quiesce_begun (s := withMode s (v.getLsbD 8)) h] at hexec
  obtain ⟨hcomp, hmem⟩ := Prod.mk.inj (foldl_keeps (g := fun s => (s.comp, s.mem)) quiesceOne_apart (oldTargets s)
    (updComp (withMode s (v.getLsbD 8)) (fun c => { c with engine := .quiescing, op := OpStatus.start })))
  refine ⟨_, hexec, congrArg Comp.engine hcomp, congrArg Comp.op hcomp, hmem, fun c hc ha => ?_⟩
  exact cellState_foldl_quiesce hc ha

theorem compCommit_commits (hparty : isHyp a = true) (he : s.comp.engine = .quiesced) :
    ∃ u, exec (.compCommit a v) s = .next u ∧ u.comp.engine = .committing ∧ u.comp.op = { st := 1 } ∧ u.comp.live = s.comp.shadow ∧ u.comp.before = s.comp.live ∧
      u.fab.passes = passesOf s.comp.shadow ∧ NextOnly [s.comp.live, s.comp.shadow] s u :=
  ⟨_, judged_taken (exec_compCommit s a v) hparty (decide_eq_true he), commitComp_commits (withMode s (v.getLsbD 8))⟩

theorem compRelease_releases (hparty : isHyp a = true) (he : s.comp.engine = .committed) :
    ∃ u, exec (.compRelease a v) s = .next u ∧ u.comp.engine = .sealed ∧ u.comp.targets = [] ∧ u.comp.held = [] ∧ u.comp.live = s.comp.live ∧
      u.comp.sealedSeq = s.comp.sealedSeq ∧ NextOnly [s.comp.live] s u ∧
      (∀ c, (c, 2) ∈ s.comp.targets → cellState u c = .active) ∧ (∀ c, (c, 0) ∈ s.comp.targets → cellState s c = .quiesced → cellState u c = .active) := by
  obtain ⟨h1, h2, h3, h4, h5, h6, hcells⟩ := release_releases (withMode s (v.getLsbD 8))
  exact ⟨_, judged_taken (exec_compRelease s a v) hparty (decide_eq_true he), h1, h2, h3, h4, h5, h6, fun c hc => hcells (c, 2) hc (.inl rfl),
    fun c hc hq => hcells (c, 0) hc (.inr ⟨rfl, hq⟩)⟩

theorem compDiscard_staged (hparty : isHyp a = true) (he : s.comp.engine = .staged) : exec (.compDiscard a v) s =
    .next { s with comp := { s.comp with modeBit := v.getLsbD 8, engine := .sealed, shadow := [], shadowProg := [], targets := [], stagedSeq := 0 } } := by
  rw [judged_taken (exec_compDiscard s a v) hparty (decide_eq_true (.inl he)), discard_staged (s := withMode s (v.getLsbD 8)) he]
  rfl

theorem compDiscard_quiesced (hparty : isHyp a = true) (he : s.comp.engine = .quiesced) :
    ∃ u, exec (.compDiscard a v) s = .next u ∧ u.comp.engine = .sealed ∧ u.comp.shadow = [] ∧ u.comp.targets = [] ∧ u.comp.live = s.comp.live ∧ u.mem = s.mem ∧
      ∀ c, c ∈ oldTargets s → cellState s c = .quiesced → cellState u c = .active := by
  have hexec := judged_taken (exec_compDiscard s a v) hparty (decide_eq_true (.inr he))
  rw [discard_quiesced (s := withMode s (v.getLsbD 8)) he] at hexec
  obtain ⟨⟨n, hcomp⟩, hmem, -⟩ := releaseUnchanged_apart (withMode s (v.getLsbD 8))
  refine ⟨_, hexec, rfl, rfl, rfl, (congrArg Comp.live hcomp :), hmem, fun c hc hq => ?_⟩
  exact cellState_releaseUnchanged (s := withMode s (v.getLsbD 8)) hc hq

end

/-- Settles O57: the commands of COMP_CTRL, then the ends of phases, by the lemma of each. -/
theorem compositionsLoadSealAndRecompose : Obligations.CompositionsLoadSealAndRecompose := by
  intro s
  refine ⟨fun a v => ⟨judged_refused (exec_compStart s a v), judged_refused (exec_compSeal s a v), judged_refused (exec_compQuiesce s a v),
      judged_refused (exec_compCommit s a v), judged_refused (exec_compRelease s a v), judged_refused (exec_compDiscard s a v), fun h => ⟨fun hp => ?_, fun hp => ?_⟩,
      compSeal_seals, fun hparty he => ⟨compQuiesce_refuses hparty he, compQuiesce_begins hparty he⟩, compCommit_commits, compRelease_releases,
      compDiscard_staged, compDiscard_quiesced⟩,
    fun i e hi => ?_, fun habort hp => ⟨compCheckDone_decides habort hp, compValidateDone_decides habort hp, compApplyDone_writes habort hp, compStageDone_decides habort hp⟩,
    ⟨compSourcePoison_ends, compSourcePoison_clean⟩, ⟨fun he => congrArg Host.Outcome.next (if_pos he), compQuiesceDone_goes, compQuiesceDone_abort⟩,
    compCommitDone_waits, compCommitDone_done⟩
  · rw [compStart_starts h, compStart_begun hp]
  · rw [compStart_starts h, compStart_refused hp]
  · obtain ⟨decided, hexec⟩ := exec_phaseDone s hi
    refine ⟨fun he => by rw [hexec, if_pos he], fun he habort => ⟨_, hexec, fun hwon => ?_⟩, fun he habort hp => ?_⟩
    · rw [if_neg (not_not.mpr he), phaseEnd_aborted habort hwon]
      exact abortEnd_ended (drawFree s).2 _
    · rw [if_neg (not_not.mpr he), phaseEnd_poisoned habort hp] at hexec
      exact poisonEnds_of_exec hexec

end Sys2Proof.Machine
end

section
/-! Settles O60 (the device right after reset: 03_composition_image.md R46, 05_sotaivo_isa_model.md R90,
14_time_and_deadlines.md R299, 19_boot_and_trust.md R402, R408). Reset lists nothing in any table, so every entry reads as
an unlisted one does; what an unlisted core, cell and byte of memory hold is the content of the lemmas below. -/
namespace Sys2Proof.Machine

/-! ### The tables and memory at reset -/

@[simp] theorem getCore_reset (c : Nat) : getCore State.reset c = {} := look_nil _ c

@[simp] theorem getCell_reset (c : Nat) : getCell State.reset c = {} := look_nil _ c

/-- No cell exists before a composition is sealed (R46). -/
theorem cellState_reset (c : Nat) : cellState State.reset c = .absent := congrArg Cell.state (getCell_reset c)

/-- No byte is listed, and an unlisted one reads 0 (assumption 2). -/
theorem rdByte_reset (p : Nat) : rdByte State.reset p = 0 :=
  show unlistedByte = 0 from rfl

theorem inv_reset : Inv State.reset := ⟨reset_mem_wf, List.forall_mem_nil _⟩

/-- The registers, predicates and operand ports of a core whose context is the initial one read 0 (R90). -/
theorem ctx_initial_reads_zero (n : Nat) :
    look 0 n ({} : Ctx).g = 0 ∧ look 0 n ({} : Ctx).v = 0 ∧ ({} : Ctx).p = 0 ∧ look 0 n ({} : Ctx).ports = 0 :=
  ⟨look_nil 0 n, look_nil 0 n, rfl, look_nil 0 n⟩

/-! ### The statement -/

/-- Settles O60: no table lists an entry at reset, so cores, cells and memory read as unlisted ones; the rest are the
initial values of the registers named. -/
theorem resetLeavesTheMachineEmpty : Obligations.ResetLeavesTheMachineEmpty := by
  refine ⟨inv_reset, rfl, rfl, rfl, rfl, cellState_reset, rfl, rfl, rfl, rdByte_reset, fun c n => ?_⟩
  obtain ⟨hg, hv, hp, hports⟩ := ctx_initial_reads_zero n
  rw [getCore_reset]
  exact ⟨hg, hv, hp, hports, rfl, rfl⟩

end Sys2Proof.Machine
end

section
/-! Settles O34 (link words, error injection, the composed structure, freed entries: 04_lankor_fabric.md R72, R73, R81,
15_faults_and_recovery.md R332). The layers: lanes and link directions as parts of the state; what a sender puts on a lane;
what a receiver makes of it; then the fields of FAB_ERR_INJECT, and the stream that a freed entry unblocks. -/
namespace Sys2Proof.Machine

/-! ### Lanes and link directions -/

@[simp] theorem getLane_updLane (s : State) (k : Nat) (f : Lane → Lane) : getLane (updLane s k f) k = f (getLane s k) := by
  simp [getLane, updLane]
theorem getLane_updLane_other (s : State) {k j : Nat} (h : j ≠ k) (f : Lane → Lane) : getLane (updLane s k f) j = getLane s j := by
  simp [getLane, updLane, look_put_other _ h.symm]
@[simp] theorem updLane_updLane (s : State) (k : Nat) (f g : Lane → Lane) :
    updLane (updLane s k f) k g = updLane s k (fun l => g (f l)) := by
  simp [updLane, updFab, getLane]
@[simp] theorem getLink_updLink (s : State) (sp port : Nat) (f : LinkDir → LinkDir) :
    getLink (updLink s sp port f) sp port = f (getLink s sp port) := by
  simp [getLink, updLink]
@[simp] theorem getLane_updLink (s : State) (sp port k : Nat) (f : LinkDir → LinkDir) : getLane (updLink s sp port f) k = getLane s k := rfl
@[simp] theorem getLink_updLane (s : State) (sp port k : Nat) (f : Lane → Lane) : getLink (updLane s k f) sp port = getLink s sp port := rfl

/-- A lane and its link direction are as given in `u`; every other lane, memory and the collector are as in `s`. -/
def LaneSet (s u : State) (sp port k : Nat) (l : Lane) (d : LinkDir) : Prop :=
  getLane u k = l ∧ getLink u sp port = d ∧ (∀ j, j ≠ k → getLane u j = getLane s j) ∧ u.mem = s.mem ∧ u.flt = s.flt

theorem updLane_laneSet (s : State) (sp port k : Nat) (f : Lane → Lane) :
    LaneSet s (updLane s k f) sp port k (f (getLane s k)) (getLink s sp port) :=
  ⟨getLane_updLane s k f, rfl, fun _ hj => getLane_updLane_other s hj f, rfl, rfl⟩

theorem updLink_laneSet {s u : State} {sp port k : Nat} {l : Lane} {d : LinkDir} (h : LaneSet s u sp port k l d) (f : LinkDir → LinkDir) :
    LaneSet s (updLink u sp port f) sp port k l (f d) := by
  obtain ⟨hl, hd, hother, hmem, hflt⟩ := h
  exact ⟨hl, by rw [getLink_updLink, hd], hother, hmem, hflt⟩

/-! ### What a sender puts on a lane (R72) -/

/-- The words of a replay buffer, that of an index now known. -/
def heldWord (idx : Nat) (w : Word) (b : List LaneWord) : List LaneWord := b.map (fun x => if x.idx = idx then { x with word := some w } else x)

/-- A lane that has sent one more word, of no packet. -/
def sentNext (idx : Nat) (l : Lane) : Lane := { l with sent := l.sent + 1, buf := keep16 l.buf { idx := idx, part := none } }

/-- A lane whose awaited word has been accepted. -/
def acceptWord (idx : Nat) (w : Word) (l : Lane) : Lane :=
  { l with buf := heldWord idx w l.buf, accepted := l.accepted + 1, last := w, fails := 0 }

section
variable {idx : Nat} {w : Word} {l : Lane}

theorem acceptWord_awaited (hidx : idx = l.accepted) (hfails : l.fails = 0) :
    acceptWord idx w l = { l with accepted := idx + 1, last := w, buf := heldWord idx w l.buf } := by
  rw [acceptWord, hidx, ← hfails]

theorem acceptWord_sentNext (hidx : idx = l.sent) (hacc : l.accepted = l.sent) (hfails : l.fails = 0) : acceptWord idx w (sentNext idx l) =
    { l with sent := idx + 1, accepted := idx + 1, last := w, buf := heldWord idx w (keep16 l.buf { idx := idx, part := none }) } := by
  rw [acceptWord_awaited (l := sentNext idx l) (hidx.trans hacc.symm) hfails, sentNext, ← hidx]

end

section
variable {s : State} {sp port lane idx : Nat}

/-- The next word of a lane of the packet plane that no packet uses is sent. -/
theorem sendWord_next (hidx : idx = (getLane s (laneKey sp port lane)).sent)
    (hacc : (getLane s (laneKey sp port lane)).accepted = (getLane s (laneKey sp port lane)).sent) (hlane : lane ∈ lanesFor s none sp port)
    (hfree : ∀ p ∈ s.fab.packets, p.link = linkKey sp port → lane ∉ p.lanes) :
    sendWord s sp port lane idx none = some (updLane s (laneKey sp port lane) (sentNext idx)) := by
  have hroom : ¬ ((getLane s (laneKey sp port lane)).sent < idx ∨
      (getLane s (laneKey sp port lane)).accepted + 16 ≤ (getLane s (laneKey sp port lane)).sent) := by omega
  have hplane : ((lanesFor s none sp port).contains lane &&
      !(s.fab.packets.any (fun p => p.link = linkKey sp port && !hopFull s p && p.lanes.contains lane))) = true := by
    simpa [hlane] using fun p hp hlink _ => hfree p hp hlink
  have hnotOld : ¬ idx < (getLane s (laneKey sp port lane)).sent := by omega
  simp only [sendWord, hnotOld, hroom, hplane, if_true, if_false]
  rfl

/-- A word of the replay buffer is sent again as it stands there. -/
theorem sendWord_again (hidx : idx < (getLane s (laneKey sp port lane)).sent)
    (hbuf : ∃ x ∈ (getLane s (laneKey sp port lane)).buf, x.idx = idx ∧ x.part = none) : sendWord s sp port lane idx none = some s := by
  have hany : ((getLane s (laneKey sp port lane)).buf.any (fun x => x.idx = idx && x.part == none)) = true := by
    obtain ⟨x, hx, hi, hp⟩ := hbuf
    exact List.any_eq_true.mpr ⟨x, hx, by simp [hi, hp]⟩
  simp only [sendWord, hidx, hany, if_true]

/-- The sender holds a word of that index under another value. -/
def heldOtherwise (s : State) (k idx : Nat) (w : Word) : Bool :=
  (getLane s k).buf.any (fun x => x.idx = idx && x.word.isSome && x.word != some w)

theorem heldOtherwise_next (w : Word) (k : Nat) (hnew : ∀ x ∈ (getLane s k).buf, x.idx ≠ idx) :
    heldOtherwise (updLane s k (sentNext idx)) k idx w = false := by
  unfold heldOtherwise
  rw [getLane_updLane, List.any_eq_false]
  intro x hx
  rcases List.mem_append.mp (List.mem_of_mem_drop hx) with hold | hlast
  · simp [hnew x hold]
  · simp [List.mem_singleton.mp hlast]

theorem heldOtherwise_again {w : Word} {k : Nat} (hsame : ∀ x ∈ (getLane s k).buf, x.idx = idx → x.word = none ∨ x.word = some w) :
    heldOtherwise s k idx w = false := by
  unfold heldOtherwise
  rw [List.any_eq_false]
  intro x hx
  by_cases hi : x.idx = idx
  · rcases hsame x hx hi with hw | hw <;> simp [hw]
  · simp [hi]

/-! ### What a receiver makes of a word (R72, R74) -/

/-- The awaited word passes at its first try: it is accepted. -/
theorem wordGood_awaited (w : Word) (hidx : idx = (getLane s (laneKey sp port lane)).accepted) (hfails : (getLane s (laneKey sp port lane)).fails = 0) :
    wordGood s sp port lane idx none w = updLane s (laneKey sp port lane) (acceptWord idx w) := by
  simp only [wordGood, ← hidx, hfails, gotPart, ne_eq, not_true_eq_false, if_false, true_or, if_true, updLane_updLane]
  rfl

/-- Any other copy of a word is discarded. -/
theorem wordGood_other (w : Word) (hidx : idx ≠ (getLane s (laneKey sp port lane)).accepted) :
    wordGood s sp port lane idx none w = updLane s (laneKey sp port lane) (fun l => { l with buf := heldWord idx w l.buf }) := if_pos hidx

/-- The awaited word fails its check while resends are left: a CRC error and a replay are counted. -/
theorem wordBad_awaited (hidx : idx = (getLane s (laneKey sp port lane)).accepted) (hlimit : (getLane s (laneKey sp port lane)).fails < replayLimit s) :
    wordBad s sp port lane idx = updLink (updLane (updLink s sp port (fun d => { d with crcErr := satAdd d.crcErr 1 })) (laneKey sp port lane)
      (fun l => { l with fails := l.fails + 1 })) sp port (fun d => { d with replays := satAdd d.replays 1 }) := by
  have hleft : ¬ replayLimit s < (getLane s (laneKey sp port lane)).fails + 1 := by omega
  simp only [wordBad, hidx, ne_eq, not_true_eq_false, if_false, getLane_updLane, getLane_updLink, hleft]

/-- The receiver of a wrong word at its limit not yet reached, as parts of the state. -/
theorem wordBad_laneSet (hidx : idx = (getLane s (laneKey sp port lane)).accepted) (hlimit : (getLane s (laneKey sp port lane)).fails < replayLimit s) :
    LaneSet s (wordBad s sp port lane idx) sp port (laneKey sp port lane)
      { getLane s (laneKey sp port lane) with fails := (getLane s (laneKey sp port lane)).fails + 1 }
      { getLink s sp port with crcErr := satAdd (getLink s sp port).crcErr 1, replays := satAdd (getLink s sp port).replays 1 } := by
  rw [wordBad_awaited hidx hlimit]
  have hlane := updLane_laneSet (updLink s sp port (fun d => { d with crcErr := satAdd d.crcErr 1 })) sp port (laneKey sp port lane)
    (fun l => { l with fails := l.fails + 1 })
  rw [getLink_updLink, getLane_updLink] at hlane
  exact updLink_laneSet hlane (fun d => { d with replays := satAdd d.replays 1 })

end

/-! ### LINK_WORD_RECEIVE -/

section
variable {s s1 : State} {sp : BitVec 6} {port : BitVec 4} {lane : BitVec 5} {idx : Nat} {w : LinkWord} {crc : Byte}

theorem linkWordReceive_down (h : linkState s sp.toNat port.toNat ≠ 0) : exec (.linkWordReceive sp port lane idx w crc) s = .next s :=
  congrArg Host.Outcome.next (if_pos h)

theorem linkWordReceive_unsent (h : sendWord s sp.toNat port.toNat lane.toNat idx w.part = none) :
    exec (.linkWordReceive sp port lane idx w crc) s = .next s := by
  show execLinkWordReceive sp port lane idx w crc s = _
  simp [execLinkWordReceive, h]

/-- A word that arrives on a direction that is UP and not chosen for corruption is judged by its CRC. -/
theorem linkWordReceive_judged (hup : linkState s sp.toNat port.toNat = 0) (harm : injectArmed s sp.toNat port.toNat lane.toNat = false)
    (hsend : sendWord s sp.toNat port.toNat lane.toNat idx w.part = some s1)
    (hheld : heldOtherwise s1 (laneKey sp.toNat port.toNat lane.toNat) idx w.bits = false) :
    exec (.linkWordReceive sp port lane idx w crc) s = .next (if crc8 (natLe 8 w.bits.toNat) = crc.toNat
      then wordGood s1 sp.toNat port.toNat lane.toNat idx w.part w.bits else wordBad s1 sp.toNat port.toNat lane.toNat idx) := by
  show execLinkWordReceive sp port lane idx w crc s = _
  unfold heldOtherwise at hheld
  simp only [execLinkWordReceive, hup, hsend, harm, hheld, ne_eq, not_true_eq_false, if_false, Bool.false_eq_true]
  by_cases hcrc : crc8 (natLe 8 w.bits.toNat) = crc.toNat <;> simp [hcrc]

variable (hup : linkState s sp.toNat port.toNat = 0) (harm : injectArmed s sp.toNat port.toNat lane.toNat = false) (hpart : w.part = none)
include hup harm hpart

/-- The next word of a lane of the packet plane, sound, is accepted and kept. -/
theorem linkWordReceive_next (hidx : idx = (getLane s (laneKey sp.toNat port.toNat lane.toNat)).sent)
    (hacc : (getLane s (laneKey sp.toNat port.toNat lane.toNat)).accepted = (getLane s (laneKey sp.toNat port.toNat lane.toNat)).sent)
    (hfails : (getLane s (laneKey sp.toNat port.toNat lane.toNat)).fails = 0)
    (hnew : ∀ x ∈ (getLane s (laneKey sp.toNat port.toNat lane.toNat)).buf, x.idx ≠ idx) (hlane : lane.toNat ∈ lanesFor s none sp.toNat port.toNat)
    (hfree : ∀ p ∈ s.fab.packets, p.link = linkKey sp.toNat port.toNat → lane.toNat ∉ p.lanes)
    (hsound : crc8 (natLe 8 w.bits.toNat) = crc.toNat) :
    exec (.linkWordReceive sp port lane idx w crc) s = .next (updLane s (laneKey sp.toNat port.toNat lane.toNat) (fun l =>
      acceptWord idx w.bits (sentNext idx l))) := by
  rw [linkWordReceive_judged hup harm (hpart ▸ sendWord_next hidx hacc hlane hfree) (heldOtherwise_next w.bits _ hnew), if_pos hsound, hpart,
    wordGood_awaited w.bits (by rw [getLane_updLane]; exact hidx.trans hacc.symm) (by rw [getLane_updLane]; exact hfails), updLane_updLane]

/-- A resent word is judged with the replay buffer as it stands. -/
theorem linkWordReceive_again (hidx : idx < (getLane s (laneKey sp.toNat port.toNat lane.toNat)).sent)
    (hbuf : ∃ x ∈ (getLane s (laneKey sp.toNat port.toNat lane.toNat)).buf, x.idx = idx ∧ x.part = none)
    (hsame : ∀ x ∈ (getLane s (laneKey sp.toNat port.toNat lane.toNat)).buf, x.idx = idx → x.word = none ∨ x.word = some w.bits) :
    exec (.linkWordReceive sp port lane idx w crc) s = .next (if crc8 (natLe 8 w.bits.toNat) = crc.toNat
      then wordGood s sp.toNat port.toNat lane.toNat idx none w.bits else wordBad s sp.toNat port.toNat lane.toNat idx) := by
  rw [linkWordReceive_judged hup harm (hpart ▸ sendWord_again hidx hbuf) (heldOtherwise_again hsame), hpart]

end

/-! ### FAB_ERR_INJECT (R7, R73) -/

/-- The whole register is written. -/
theorem whole_written {hi lo : Nat} (h : hi < 64) (hl : lo ≤ hi) (i : Nat) (hi' : i < hi - lo + 1) : (BitVec.allOnes 64).getLsbD (lo + i) = true := by
  rw [BitVec.getLsbD_allOnes, decide_eq_true_eq]; omega

theorem fld_whole {hi lo : Nat} (h : hi < 64) (hl : lo ≤ hi) : fld (BitVec.allOnes 64) hi lo ≠ 0 := by
  intro h0
  have hbit := testBit_fld (BitVec.allOnes 64) hi lo 0
  rw [h0, whole_written h hl 0 (by omega)] at hbit
  simp at hbit

/-- A field put in leaves a field that lies apart from it. -/
theorem fld_putFld_apart (w : Word) {hi lo hi' lo' : Nat} (x : Nat) (hl : lo' ≤ hi') (h64 : hi' < 64) (hle : lo ≤ hi) (hapart : hi < lo' ∨ hi' < lo) :
    fld (putFld w hi' lo' x) hi lo = fld w hi lo := by
  apply Nat.eq_of_testBit_eq
  intro i
  rw [testBit_fld, testBit_fld, getLsbD_putFld w x _ hl h64]
  by_cases hi1 : i < hi - lo + 1
  · have hout : ¬ (lo' ≤ lo + i ∧ lo + i ≤ hi') := by omega
    rw [if_neg hout]
  · simp [hi1]

/-- ARM written as 1 changes no field below it. -/
theorem fld_or_arm (v : Word) {hi lo : Nat} (h : hi < 14) (hle : lo ≤ hi) : fld (v ||| 0x4000) hi lo = fld v hi lo := by
  have harm : (0x4000 : Word) = BitVec.twoPow 64 14 := by decide
  apply Nat.eq_of_testBit_eq
  intro i
  rw [testBit_fld, testBit_fld]
  by_cases hi1 : i < hi - lo + 1
  · have hne : ¬ 14 = lo + i := by omega
    simp [harm, BitVec.getLsbD_twoPow, hne]
  · simp [hi1]

/-- A register with one field as written. -/
def takeFld (cur v : Word) (f : Fld) (w : Word) : Word :=
  if fld v f.hi f.lo = fld cur f.hi f.lo then w else putFld w f.hi f.lo (fld v f.hi f.lo)

theorem fld_takeFld {cur v w : Word} {f : Fld} (h64 : f.hi < 64) (hl : f.lo ≤ f.hi) (hw : fld w f.hi f.lo = fld cur f.hi f.lo) :
    fld (takeFld cur v f w) f.hi f.lo = fld v f.hi f.lo := by
  unfold takeFld
  split
  case isTrue hsame => rw [hw, hsame]
  case isFalse => exact fld_putFld w hl h64 (Nat.mod_lt _ (by positivity))

theorem fld_takeFld_apart {cur v w : Word} {f : Fld} {hi lo : Nat} (h64 : f.hi < 64) (hl : f.lo ≤ f.hi) (hle : lo ≤ hi) (hapart : hi < f.lo ∨ f.hi < lo) :
    fld (takeFld cur v f w) hi lo = fld w hi lo := by
  unfold takeFld
  split
  · rfl
  · exact fld_putFld_apart w _ hl h64 hle hapart

/-- The code that a change of an expert field leaves without expert control. -/
def deniedCode (cur v : Word) (f : Fld) : List Nat := if fld v f.hi f.lo = fld cur f.hi f.lo then [] else [2]

theorem mem_deniedCode {cur v : Word} {f : Fld} {c : Nat} (h : c ∈ deniedCode cur v f) : c = 2 := by
  unfold deniedCode at h
  split at h
  · cases h
  · exact List.mem_singleton.mp h

section
variable {lock : Bool} {cur v : Word} {j : Judged} {f : Fld} (h64 : f.hi < 64) (hl : f.lo ≤ f.hi) (hacc : f.acc = .rw)
include h64 hl hacc

/-- Under expert control an expert field without a list of values is taken. -/
theorem judgeFld_expert_on (hlegal : f.legal = []) :
    judgeFld .on lock cur v (BitVec.allOnes 64) j f = { j with word := takeFld cur v f j.word } := by
  simp only [judgeFld, fld_merge cur v _ (whole_written h64 hl), hacc, decide_eq_true (fld_whole h64 hl), legalVal, hlegal, takeFld]
  by_cases hsame : fld v f.hi f.lo = fld cur f.hi f.lo <;> simp [hsame]

/-- Without it a change of the field is refused. -/
theorem judgeFld_expert_off (hex : f.expert = true) :
    judgeFld .off lock cur v (BitVec.allOnes 64) j f = { j with codes := j.codes ++ deniedCode cur v f } := by
  simp only [judgeFld, fld_merge cur v _ (whole_written h64 hl), hacc, decide_eq_true (fld_whole h64 hl), hex, deniedCode]
  by_cases hsame : fld v f.hi f.lo = fld cur f.hi f.lo <;> simp [hsame]

end

/-- LANE, PORT and SWITCH of FAB_ERR_INJECT, and ARM. -/
def injectLane : Fld := ⟨13, 9, .rw, true, []⟩
def injectPort : Fld := ⟨8, 6, .rw, true, []⟩
def injectSwitch : Fld := ⟨5, 0, .rw, true, []⟩
def injectArm : Fld := ⟨14, 14, .w1s, true, []⟩

theorem regFlds_fabErrInject : regFlds .fabErrInject = [injectArm, injectLane, injectPort, injectSwitch] := rfl

theorem expertMode_fabErrInject (s : State) (a : Access) (v m : Word) :
    expertMode s a .fabErrInject (fabBase + 0x20) v m = if expertOn s (fabBase + 0x20) then .on else .off := by
  have hctrl : ¬ fabBase + 0x20 = ctrlOf (fabBase + 0x20) := by decide
  simp [expertMode, hctrl]

section
variable (s : State) (a : Access) (cur v : Word)

/-- ARM as the command writes it. -/
theorem fld_arm : fld ((v ||| 0x4000) &&& BitVec.allOnes 64) 14 14 = 1 := by
  rw [BitVec.and_allOnes, fld_bit]
  simp [b2n]

theorem judgeFld_arm_on : judgeFld .on false cur (v ||| 0x4000) (BitVec.allOnes 64) { word := cur } injectArm = { word := cur, cmd := putFld 0 14 14 1 } := by
  simp only [judgeFld, injectArm, fld_arm]
  rfl

theorem judgeFld_arm_off (hunarmed : cur.getLsbD 14 = false) :
    judgeFld .off false cur (v ||| 0x4000) (BitVec.allOnes 64) { word := cur } injectArm = { word := cur, codes := [2] } := by
  simp only [judgeFld, injectArm, fld_arm, fld_bit cur 14, hunarmed]
  rfl

/-- LANE, PORT and SWITCH as written. -/
def targetWord : Word := takeFld cur v injectSwitch (takeFld cur v injectPort (takeFld cur v injectLane cur))

theorem judgeReg_inject_on (hon : expertOn s (fabBase + 0x20) = true) :
    judgeReg s a .fabErrInject (fabBase + 0x20) false cur (v ||| 0x4000) (BitVec.allOnes 64) =
      { word := targetWord cur (v ||| 0x4000), cmd := putFld 0 14 14 1 } := by
  rw [judgeReg, expertMode_fabErrInject, if_pos hon, judge, regFlds_fabErrInject]
  simp only [List.foldl_cons, List.foldl_nil, judgeFld_arm_on]
  rw [judgeFld_expert_on (f := injectLane) (by decide) (by decide) rfl rfl, judgeFld_expert_on (f := injectPort) (by decide) (by decide) rfl rfl,
    judgeFld_expert_on (f := injectSwitch) (by decide) (by decide) rfl rfl]
  rfl

/-- A refused write changes no field. -/
theorem judgeReg_inject_off (hoff : expertOn s (fabBase + 0x20) = false) (hunarmed : cur.getLsbD 14 = false) :
    judgeReg s a .fabErrInject (fabBase + 0x20) false cur (v ||| 0x4000) (BitVec.allOnes 64) =
      { word := cur, codes := 2 :: (deniedCode cur (v ||| 0x4000) injectLane ++ deniedCode cur (v ||| 0x4000) injectPort ++
          deniedCode cur (v ||| 0x4000) injectSwitch) } := by
  rw [judgeReg, expertMode_fabErrInject, if_neg (by simp [hoff]), judge, regFlds_fabErrInject]
  simp only [List.foldl_cons, List.foldl_nil, judgeFld_arm_off cur v hunarmed]
  rw [judgeFld_expert_off (f := injectLane) (by decide) (by decide) rfl rfl, judgeFld_expert_off (f := injectPort) (by decide) (by decide) rfl rfl,
    judgeFld_expert_off (f := injectSwitch) (by decide) (by decide) rfl rfl]
  rfl

theorem fld_targetWord_lane : fld (targetWord cur v) 13 9 = fld v 13 9 := by
  rw [targetWord, fld_takeFld_apart (by decide) (by decide) (by decide) (by decide), fld_takeFld_apart (by decide) (by decide) (by decide) (by decide)]
  exact fld_takeFld (f := injectLane) (by decide) (by decide) rfl
theorem fld_targetWord_port : fld (targetWord cur v) 8 6 = fld v 8 6 := by
  rw [targetWord, fld_takeFld_apart (by decide) (by decide) (by decide) (by decide)]
  exact fld_takeFld (f := injectPort) (by decide) (by decide) (fld_takeFld_apart (by decide) (by decide) (by decide) (by decide))
theorem fld_targetWord_switch : fld (targetWord cur v) 5 0 = fld v 5 0 := by
  refine fld_takeFld (f := injectSwitch) (by decide) (by decide) ?_
  rw [fld_takeFld_apart (by decide) (by decide) (by decide) (by decide), fld_takeFld_apart (by decide) (by decide) (by decide) (by decide)]

end

/-- What is left of the target when ARM is set in it. -/
theorem fld_armed_target (cur v : Word) {hi lo : Nat} (hle : lo ≤ hi) (hhi : hi < 14)
    (h : fld (targetWord cur (v ||| 0x4000)) hi lo = fld (v ||| 0x4000) hi lo) :
    fld (putFld (targetWord cur (v ||| 0x4000)) 14 14 1) hi lo = fld v hi lo := by
  rw [fld_putFld_apart _ 1 le_rfl (by decide) hle (.inl hhi), h, fld_or_arm v hhi hle]

/-- Under expert control the corruption of the lane is armed (R73). -/
theorem fabErrInject_arms {s : State} (a : Access) (v : Word) (hon : expertOn s (fabBase + 0x20) = true) :
    ∃ w : Word, exec (.fabErrInject a v) s = .next (store s (fabBase + 0x20) w) ∧ w.getLsbD 14 = true ∧
      fld w 13 9 = fld v 13 9 ∧ fld w 8 6 = fld v 8 6 ∧ fld w 5 0 = fld v 5 0 := by
  have hj := judgeReg_inject_on s a (stored s .fabErrInject (fabBase + 0x20)) v hon
  have hbit : bit (putFld 0 14 14 1) 14 = true := by decide
  refine ⟨putFld (targetWord (stored s .fabErrInject (fabBase + 0x20)) (v ||| 0x4000)) 14 14 1, ?_, ?_,
    fld_armed_target _ v (by decide) (by decide) (fld_targetWord_lane _ _), fld_armed_target _ v (by decide) (by decide) (fld_targetWord_port _ _),
    fld_armed_target _ v (by decide) (by decide) (fld_targetWord_switch _ _)⟩
  · show Host.Outcome.next (writeInject s a (fabBase + 0x20) (v ||| 0x4000) (BitVec.allOnes 64)) = _
    simp only [writeInject, hj, hbit, if_true, recordCodes_nil]
  · rw [getLsbD_putFld _ 1 14 le_rfl (by decide)]
    rfl

/-- Codes of one kind are recorded once. -/
theorem dedup_const {x : Nat} {l : List Nat} (h : ∀ c ∈ l, c = x) : dedup (x :: l) = [x] := by
  have hsub : ∀ (l : List Nat) c, c ∈ dedup l → c ∈ l := by
    intro l
    induction l with
    | nil => simp [dedup]
    | cons y l ih =>
      intro c hc
      rcases List.mem_cons.mp hc with rfl | hc
      · exact List.mem_cons_self
      · exact List.mem_cons_of_mem _ (ih c (List.mem_of_mem_filter hc))
  have hnone : (dedup l).filter (fun y => y ≠ x) = [] := List.filter_eq_nil_iff.mpr fun c hc => by simp [h c (hsub l c hc)]
  rw [dedup, hnone]

theorem refuse_eq (s : State) (a : Access) (code : Nat) (source : BitVec 16) (pa : Nat) : ∃ f : FaultMsg, f.code = code ∧ f.init = some (a.init, 2) ∧
    refuse s a code source pa = { s with flt := { s.flt with raised := s.flt.raised ++ [f] } } := by
  refine ⟨_, ?_, ?_, rfl⟩ <;> rfl

/-- Without it the register stays, and EXPERT_DENIED is recorded once for the accessor (R7, R484). -/
theorem fabErrInject_denied {s : State} (a : Access) (v : Word) (hoff : expertOn s (fabBase + 0x20) = false)
    (hunarmed : (stored s .fabErrInject (fabBase + 0x20)).getLsbD 14 = false) :
    ∃ f : FaultMsg, f.code = 0x0002 ∧ f.init = some (a.init, 2) ∧ exec (.fabErrInject a v) s =
      .next { store s (fabBase + 0x20) (stored s .fabErrInject (fabBase + 0x20)) with flt := { s.flt with raised := s.flt.raised ++ [f] } } := by
  have hj := judgeReg_inject_off s a (stored s .fabErrInject (fabBase + 0x20)) v hoff hunarmed
  have hcodes : ∀ c ∈ deniedCode (stored s .fabErrInject (fabBase + 0x20)) (v ||| 0x4000) injectLane ++
      deniedCode (stored s .fabErrInject (fabBase + 0x20)) (v ||| 0x4000) injectPort ++
      deniedCode (stored s .fabErrInject (fabBase + 0x20)) (v ||| 0x4000) injectSwitch, c = 2 := by
    intro c hc
    rcases List.mem_append.mp hc with hc | hc
    · rcases List.mem_append.mp hc with hc | hc <;> exact mem_deniedCode hc
    · exact mem_deniedCode hc
  have hbit : bit (0 : Word) 14 = false := rfl
  obtain ⟨f, hcode, hinit, hrefuse⟩ := refuse_eq (store s (fabBase + 0x20) (stored s .fabErrInject (fabBase + 0x20))) a 2
    (regSource (fabBase + 0x20)) (fabBase + 0x20)
  refine ⟨f, hcode, hinit, ?_⟩
  show Host.Outcome.next (writeInject s a (fabBase + 0x20) (v ||| 0x4000) (BitVec.allOnes 64)) = _
  simp only [writeInject, hj, hbit, recordCodes, dedup_const hcodes]
  exact congrArg Host.Outcome.next hrefuse

/-! ### FABRIC_STRUCT_LIVE (R81) and BLOCK_ENTRY_FREED (R332) -/

theorem fabricStructLive_goesLive {s : State} (hch : s.fab.changing = true) (hdone : ∀ t ∈ s.fab.txns, t.late = true) :
    exec .fabricStructLive s = .next { s with fab := { s.fab with
      structLive := true, changing := false, swmap := switchMap s.comp.live, passes := passesOf s.comp.live, timeout := composedTimeout s.comp.live } } :=
  congrArg Host.Outcome.next (if_pos ⟨hch, List.all_eq_true.mpr hdone⟩)

theorem fabricStructLive_waits {s : State} (h : s.fab.changing = false ∨ ∃ t ∈ s.fab.txns, t.late = false) : exec .fabricStructLive s = .next s := by
  refine congrArg Host.Outcome.next (if_neg ?_)
  rintro ⟨hch, hdone⟩
  rcases h with hnot | ⟨t, ht, hlate⟩
  · exact Bool.false_ne_true (hnot.symm.trans hch)
  · exact Bool.false_ne_true (hlate.symm.trans (List.all_eq_true.mp hdone t ht))

theorem coreOfInit_coreInit (c : CoreId) : coreOfInit (coreInit c.val) = some c.val := by
  revert c; decide

/-- The end of a RELEASE of a core's stream. -/
theorem blockEntryFreed_release {s : State} {e : BitVec 9} {c : CoreId} (hvalid : (getBlock s e.toNat).valid = true)
    (hcmd : (getBlock s e.toNat).cmd = some true) (hinit : (getBlock s e.toNat).init = coreInit c.val) :
    exec (.blockEntryFreed e) s = .next (updCore (setBlock s e.toNat { getBlock s e.toNat with valid := false, cmd := none }) c.val (fun k =>
      { k with
        blocked := k.blocked.filter (fun x => !(x.stream = (getBlock s e.toNat).stream.toNat && x.cell == (getBlock s e.toNat).cell))
        sbuf := k.sbuf.map (fun x => if !x.sent && x.cell == (getBlock s e.toNat).cell && x.mt == (if (getBlock s e.toNat).stream = 2 then 0 else 1)
          then { x with released := true } else x) })) := by
  show execBlockEntryFreed e s = _
  simp only [execBlockEntryFreed, hvalid, hcmd, unblock, hinit, coreOfInit_coreInit, if_true]

/-! ### The statement -/

/-- Settles O34: the words of a lane by what its sender puts on it and by their CRC, then the three commands apart. -/
theorem linksStructureAndBlocks : Obligations.LinksStructureAndBlocks := by
  refine ⟨fun s sp port lane idx w crc => ⟨linkWordReceive_down, linkWordReceive_unsent, fun hup harm hpart => ⟨?_, ?_⟩⟩,
    fun s a v => ⟨fabErrInject_arms a v, fabErrInject_denied a v⟩, fun s => ⟨fabricStructLive_goesLive, fabricStructLive_waits⟩,
    fun s e c hvalid hcmd hinit => blockEntryFreed_release hvalid hcmd hinit⟩
  · intro hidx hacc hfails hnew hlane hfree hsound
    refine ⟨_, linkWordReceive_next hup harm hpart hidx hacc hfails hnew hlane hfree hsound, ?_⟩
    have hset := updLane_laneSet s sp.toNat port.toNat (laneKey sp.toNat port.toNat lane.toNat) (fun l => acceptWord idx w.bits (sentNext idx l))
    rw [acceptWord_sentNext hidx hacc hfails] at hset
    exact hset
  · intro hidx hbuf hsame
    have hexec := linkWordReceive_again (crc := crc) hup harm hpart hidx hbuf hsame
    refine ⟨fun hsound hawaited hfails => ?_, fun hsound hother => ?_, fun hwrong hawaited hlimit => ?_⟩
    · rw [if_pos hsound, wordGood_awaited w.bits hawaited hfails] at hexec
      have hset := updLane_laneSet s sp.toNat port.toNat (laneKey sp.toNat port.toNat lane.toNat) (acceptWord idx w.bits)
      rw [acceptWord_awaited hawaited hfails] at hset
      exact ⟨_, hexec, hset⟩
    · rw [if_pos hsound, wordGood_other w.bits hother] at hexec
      exact ⟨_, hexec, updLane_laneSet s _ _ _ _⟩
    · rw [if_neg hwrong] at hexec
      exact ⟨_, hexec, wordBad_laneSet hawaited hlimit⟩

end Sys2Proof.Machine
end

section
/-! Settles O33 (the life of a transaction: 04_lankor_fabric.md R62, R64, R75, R76, 23_address_map_and_register_index.md
R478). The layers: the source port; the transactions outstanding as a table by number; what an access at a slice keeps;
what it answers; then the answer's way back. -/
namespace Sys2Proof.Machine

/-! ### At the source port (R62, R66, R76, R478) -/

/-- A transaction leaves those that wait and joins those outstanding, `n` words counted on its Pass. -/
def joinTxns (s : State) (p : Option Nat) (n : Nat) (t : Txn) : State :=
  updFab (countWords (updFab s (fun f => { f with waiting := f.waiting.filter (fun q => q.id ≠ t.id) })) p n) (fun f => { f with txns := f.txns ++ [t] })

section
variable {s : State} {t0 : Txn} {d : Nat}

theorem issueTxn_decode (hno : endpointOf t0.addr = none) :
    issueTxn s t0 = joinTxns s none 0 { t0 with issued := s.now, limit := timeoutNow s, done := some (stDECODE, []), atPort := true } := by
  simp only [issueTxn, hno]
  rfl

variable (hd : endpointOf t0.addr = some d)
include hd

theorem issueTxn_fenced (hf : d ∈ s.fab.fences) :
    issueTxn s t0 = joinTxns s none 0 { t0 with issued := s.now, limit := timeoutNow s, dst := d, done := some (stFENCED, []), atPort := true } := by
  simp only [issueTxn, hd, List.contains_iff_mem.mpr hf, if_true]
  rfl

variable (hf : d ∉ s.fab.fences)
include hf

theorem issueTxn_noPath (hpass : passFor s t0.init t0.cell d = none) (hpath : pathBoth s (initEp t0.init) d = false) :
    issueTxn s t0 = joinTxns s none 0 { t0 with issued := s.now, limit := timeoutNow s, dst := d, done := some (stNOPATH, []), atPort := true } := by
  simp only [issueTxn, hd, List.contains_iff_mem, hf, if_false, hpass, hpath]
  rfl

/-- One with a Pass or a path leaves, on the route of its Pass or that of dimension order. -/
theorem issueTxn_leaves {e : Nat} {p : Option Pass} (he : initEp t0.init = e) (hp : passFor s t0.init t0.cell d = p)
    (hway : p.isSome = true ∨ pathBoth s e d = true) :
    issueTxn s t0 = joinTxns s (p.map (·.id)) (reqWords t0) { t0 with
      issued := s.now, limit := timeoutNow s, dst := d, pass := p.map (·.id), route := routeThere p e d, back := routeBack p e d } := by
  have hgoes : ¬ (p.isNone = true ∧ (!pathBoth s e d) = true) := by
    rcases hway with h | h
    · simp [Option.isNone_iff_eq_none, Option.isSome_iff_ne_none.mp h]
    · simp [h]
  simp only [issueTxn, hd, List.contains_iff_mem, hf, if_false, hp, he, hgoes]
  rfl

end

/-- The debug bus takes no Pass (R79). -/
theorem passFor_some_ne_dbg {s : State} {i : InitId} {cell : Option CellId} {d : Nat} {p : Pass} (h : passFor s i cell d = some p) : i ≠ dbgInit := by
  rintro rfl
  cases cell <;> simp [passFor] at h

/-- `u` is `s` with one more transaction outstanding, none waiting and the next number taken. -/
def Issued (s u : State) (t : Txn) : Prop :=
  u.fab.txns = s.fab.txns ++ [t] ∧ u.fab.waiting = [] ∧ u.fab.nextId = s.fab.nextId + 1 ∧ u.mem = s.mem ∧ u.cores = s.cores ∧ u.flt = s.flt

theorem issued_joinTxns {s : State} (hw : s.fab.waiting = []) (t0 t : Txn) (hid : t.id = s.fab.nextId) (p : Option Nat) (n : Nat) :
    Issued s (joinTxns (submit s t0) p n t) t := by
  have hleft : ((submit s t0).fab.waiting.filter (fun q => q.id ≠ t.id)) = [] := by simp [hw, hid]
  cases p <;> exact ⟨rfl, hleft, rfl, rfl, rfl, rfl⟩

/-- The transaction of a request that waits at its port. -/
def waitingTxn (s : State) (q : Req) : Txn := { txnOf q with id := s.fab.nextId, issued := s.now }

section
variable {s : State} {ep : BitVec 7} {q : Req} (hep : initEp q.init = ep.toNat) (hw : s.fab.waiting = []) (hch : s.fab.changing = false)
  (hk : q.kind = .read)
include hep hw hch hk

/-- A read alone at its port is issued at once. -/
theorem fabricTransactionIssue_alone :
    exec (.fabricTransactionIssue ep (some q)) s = .next (issueTxn (submit s (txnOf q)) (waitingTxn s q)) := by
  have hnext : nextIssue (submit s (txnOf q)) ep.toNat = some (waitingTxn s q) := by
    have hfree : heldTxn (submit s (txnOf q)) (waitingTxn s q) = false := by simp [heldTxn, waitingTxn, txnOf, kindOfReq, hk]
    have hmine : initEp (waitingTxn s q).init = ep.toNat := hep
    show List.find? _ (s.fab.waiting ++ [waitingTxn s q]) = _
    simp [hw, hfree, hmine]
  show execFabricTransactionIssue ep (some q) s = _
  simp only [execFabricTransactionIssue, hep, if_true, submit_fab, hch, hnext]
  rfl

theorem fabricTransactionIssue_joins {t : Txn} {p : Option Nat} {n : Nat} (hid : t.id = s.fab.nextId)
    (hjoins : issueTxn (submit s (txnOf q)) (waitingTxn s q) = joinTxns (submit s (txnOf q)) p n t) :
    ∃ u, exec (.fabricTransactionIssue ep (some q)) s = .next u ∧ Issued s u t :=
  ⟨_, (fabricTransactionIssue_alone hep hw hch hk).trans (congrArg Host.Outcome.next hjoins), issued_joinTxns hw _ t hid p n⟩

end

/-! ### Transactions by number -/

theorem findTxn_id {s : State} {id : Nat} {t : Txn} (h : findTxn s id = some t) : t.id = id := by
  simpa using List.find?_some h

/-- A transaction changed in place is found as changed. -/
theorem findTxn_changed {s u : State} {id : Nat} {t : Txn} (h : findTxn s id = some t) {g : Txn → Txn} (hg : ∀ q, (g q).id = q.id)
    (hu : u.fab.txns = s.fab.txns.map (fun q => if q.id = id then g q else q)) : findTxn u id = some (g t) := by
  have hsame : (fun q : Txn => decide (q.id = id)) ∘ (fun q => if q.id = id then g q else q) = fun q => decide (q.id = id) := by
    funext q
    by_cases hq : q.id = id <;> simp [hq, hg]
  unfold findTxn at h ⊢
  rw [hu, List.find?_map, hsame, h, Option.map_some, if_pos (findTxn_id h)]

/-! ### What an access at a slice keeps -/

@[simp] theorem compView_dirtySlc (s : State) (line : Nat) : compView (dirtySlc s line) = compView s := compView_writeDown s line

@[simp] theorem compView_evictSlc (s : State) (n line : Nat) : compView (evictSlc s n line) = compView s := by
  unfold evictSlc
  dsimp only
  split <;> simp

theorem checkTags_clean {s : State} (h : s.cache.badTags = []) (line : Nat) : checkTags s line = s := by
  simp [checkTags, h]

/-- A lookup with no tag error planted changes neither memory nor the fabric. -/
theorem compView_slcTouch {s : State} (h : s.cache.badTags = []) (line : Nat) (cls owner : Option Nat) :
    compView (slcTouch s line cls owner) = compView s := by
  unfold slcTouch
  rw [checkTags_clean h]
  dsimp only
  split
  · simp
  · split
    · rfl
    · split
      · rfl
      · split <;> (split <;> simp)

/-- The regions that lock pages, and the tag errors planted. -/
def lockView (s : State) : BootSt × List Nat := (s.boot, s.cache.badTags)

@[simp] theorem lockView_updCore (s : State) (c : Nat) (f : Core → Core) : lockView (updCore s c f) = lockView s := rfl
@[simp] theorem lockView_setL2 (s : State) (n : Nat) (l : List L2Line) : lockView (setL2 s n l) = lockView s := rfl
@[simp] theorem lockView_mapL2 (s : State) (n line : Nat) (f : L2Line → L2Line) : lockView (mapL2 s n line f) = lockView s := by
  unfold mapL2; split <;> rfl
@[simp] theorem lockView_mapSlc (s : State) (line : Nat) (f : SlcLine → SlcLine) : lockView (mapSlc s line f) = lockView s := by
  unfold mapSlc; split <;> rfl
@[simp] theorem lockView_applyInject (s : State) (pa : Nat) : lockView (applyInject s pa) = lockView s := by
  unfold applyInject
  dsimp only
  split
  · rfl
  · split <;> rfl
@[simp] theorem lockView_writeDown (s : State) (line : Nat) : lockView (writeDown s line) = lockView s := by
  have hdirty : lockView (dirtySlc s line) = lockView s := by
    unfold dirtySlc; split <;> simp
  exact hdirty
@[simp] theorem lockView_dropL1 (s : State) (c line : Nat) : lockView (dropL1 s c line) = lockView s := by
  unfold dropL1
  split
  · dsimp only; split <;> simp
  · rfl
@[simp] theorem lockView_dropL2 (s : State) (n line : Nat) : lockView (dropL2 s n line) = lockView s := by
  have hl1 := foldl_keeps (g := lockView) (fun s j => lockView_dropL1 s (8 * n + j) line) (List.range 8) s
  unfold dropL2
  dsimp only
  split
  · split <;> simp [hl1]
  · exact hl1
theorem lockView_dropOthers (s : State) (keep : Option Nat) (line : Nat) : lockView (dropOthers s keep line) = lockView s := by
  unfold dropOthers
  dsimp only
  refine (foldl_keeps (g := lockView) (fun s n => ?_) _ _).trans (foldl_keeps (g := lockView) (fun s c => ?_) _ _)
  · split <;> simp
  · split <;> simp

theorem pageLocked_congr {s u : State} (hview : compView u = compView s) (hlock : lockView u = lockView s) (pa n : Nat) :
    pageLocked u pa n = pageLocked s pa n := by
  obtain ⟨hboot, -⟩ := Prod.mk.inj hlock
  obtain ⟨-, hcomp, -, -⟩ := compView_eq_iff.mp hview
  simp only [pageLocked, hboot, hcomp]

/-- A write performed for an initiator changes what any write does but for the initiator's own marks. -/
theorem compView_performInit (s : State) (i : InitId) (pa : Nat) (bs : List Byte) : compView (performInit s i pa bs) = compView (performWrite s pa bs) := by
  unfold performInit
  split <;> rfl

theorem performWrite_fab_badTags (s : State) (pa : Nat) (bs : List Byte) :
    (performWrite s pa bs).fab = s.fab ∧ (performWrite s pa bs).cache.badTags = s.cache.badTags := by
  unfold performWrite putMem
  split
  · exact ⟨rfl, rfl⟩
  · exact ⟨rfl, rfl⟩

theorem performInit_badTags (s : State) (i : InitId) (pa : Nat) (bs : List Byte) : (performInit s i pa bs).cache.badTags = s.cache.badTags := by
  obtain ⟨-, htags⟩ := performWrite_fab_badTags s pa bs
  unfold performInit
  split <;> exact htags

/-! ### What an access at a slice answers (R75, R329) -/

/-- A read with no check error pending answers the bytes of memory. -/
theorem memAccess_read {s : State} {r : Req} (hk : r.kind = .read) (hbad : s.cache.bad = []) :
    memAccess s r = (s, (if poisonedAt s r.addr.toNat r.size then stPOISON else stOK, rdBytes s r.addr.toNat r.size)) := by
  simp [memAccess, hk, checkRange, hbad]

/-- In `u` the bytes `bs` stand from `pa` upward, and every other byte and the fabric are as in `s`. -/
def Written (s u : State) (pa : Nat) (bs : List Byte) : Prop :=
  u.fab = s.fab ∧ (Memory.wf s.mem = true → ∀ x, rdByte u x = if pa ≤ x ∧ x < pa + bs.length then bs.getD (x - pa) 0 else rdByte s x)

theorem rdByte_congr {s u : State} (h : u.mem = s.mem) (x : Nat) : rdByte u x = rdByte s x := congrArg (cellGet x) h

theorem Written.congr {s s' u u' : State} {pa : Nat} {bs : List Byte} (h : Written s u pa bs) (hs : compView s' = compView s)
    (hu : compView u' = compView u) : Written s' u' pa bs := by
  obtain ⟨hfab, hbytes⟩ := h
  obtain ⟨hsmem, -, -, hsfab⟩ := compView_eq_iff.mp hs
  obtain ⟨humem, -, -, hufab⟩ := compView_eq_iff.mp hu
  refine ⟨by rw [hufab, hfab, hsfab], fun hwf x => ?_⟩
  rw [rdByte_congr humem, rdByte_congr hsmem]
  exact hbytes (hsmem ▸ hwf) x

theorem performWrite_written {s : State} {pa : Nat} {bs : List Byte} (hlock : pageLocked s pa bs.length = false) :
    Written s (performWrite s pa bs) pa bs := by
  obtain ⟨hfab, -⟩ := performWrite_fab_badTags s pa bs
  exact ⟨hfab, fun hwf x => rdByte_performWrite pa x bs hwf hlock⟩

/-- A write to pages that are not locked is performed and answered OK. -/
theorem memAccess_write {s : State} {r : Req} (hk : r.kind = .write) (hlock : pageLocked s r.addr.toNat r.data.length = false) :
    ∃ u, memAccess s r = (u, (stOK, [])) ∧ Written s u r.addr.toNat r.data ∧ u.cache.badTags = s.cache.badTags := by
  have hwritten : Written s (performInit s r.init r.addr.toNat r.data) r.addr.toNat r.data :=
    (performWrite_written hlock).congr rfl (compView_performInit s r.init _ r.data)
  have htags := performInit_badTags s r.init r.addr.toNat r.data
  simp only [memAccess, hk, hlock, Bool.false_eq_true, if_false]
  refine ⟨_, rfl, ?_⟩
  split
  · obtain ⟨-, hinject⟩ := Prod.mk.inj (lockView_applyInject (performInit s r.init r.addr.toNat r.data) r.addr.toNat)
    exact ⟨hwritten.congr rfl (compView_applyInject _ _), hinject.trans htags⟩
  · exact ⟨hwritten, htags⟩

/-- What the other copies of a line leave before an access. -/
def recalled (s : State) (r : Req) : State := if reqWrites r.kind then dropOthers s none (r.addr.toNat / 64) else s

theorem recalled_eq (s : State) (r : Req) : (if reqWrites r.kind = true then dropOthers s none (r.addr.toNat / 64) else s) = recalled s r := rfl

/-- At its home slice an access answers what memory does, once the other copies of its line are recalled. -/
theorem slcPerform_answers {s : State} {r : Req} {mt : Nat} (htags : s.cache.badTags = []) (hlive : deadLine s (r.addr.toNat / 64) = false)
    (hafter : (memAccess (recalled s r) r).1.cache.badTags = []) :
    ∃ u, slcPerform s r mt = (u, (memAccess (recalled s r) r).2) ∧ compView u = compView (memAccess (recalled s r) r).1 := by
  simp only [slcPerform, checkTags_clean htags, hlive, Bool.false_eq_true, if_false, recalled_eq]
  refine ⟨_, rfl, ?_⟩
  have htouch := compView_slcTouch hafter (r.addr.toNat / 64)
  split
  · rw [compView_dirtySlc]
    split
    · rfl
    · exact htouch _ _
  · split
    · rfl
    · exact htouch _ _

/-! ### A transaction at memory (R478) -/

theorem addr_lt_of_memory {a : Nat} (h : regionOf a = .hbm ∨ ∃ n, regionOf a = .scratch n) : a < 2 ^ 44 := by
  by_contra hge
  have hnone : regionOf a = .none := by
    have hblock : blockEp a = none := if_pos (.inr (by omega))
    unfold regionOf
    rw [if_neg (by unfold hbmLimit; omega), if_neg (by omega), if_neg (by unfold scratchLimit; omega), if_neg (by omega), if_neg (by omega),
      if_neg (by omega), hblock]
  rw [hnone] at h
  rcases h with h | ⟨n, h⟩ <;> cases h

section
variable {s : State} {t : Txn} (hregion : regionOf t.addr = .hbm ∨ ∃ n, regionOf t.addr = .scratch n)
include hregion

theorem reqOf_addr : (reqOf t).addr.toNat = t.addr := Nat.mod_eq_of_lt (addr_lt_of_memory hregion)

variable (htags : s.cache.badTags = []) (hlive : deadLine s (t.addr / 64) = false)
include htags hlive

/-- A read at memory answers the bytes there, and changes neither memory nor the fabric. -/
theorem performTxn_read (hk : t.kind = .read) (hbad : s.cache.bad = []) :
    ∃ u, performTxn s t = (u, (if poisonedAt s t.addr t.size then stPOISON else stOK, rdBytes s t.addr t.size)) ∧ compView u = compView s := by
  have hkind : (reqOf t).kind = .read := by simp [reqOf, kindOfTxn, hk]
  have hmem := memAccess_read hkind hbad
  rw [reqOf_addr hregion] at hmem
  rcases hregion with hr | ⟨n, hr⟩
  · have hrecalled : recalled s (reqOf t) = s := by simp [recalled, hkind, reqWrites]
    obtain ⟨u, hu, hview⟩ := slcPerform_answers (r := reqOf t) (mt := mtOfTxn t) htags (by rwa [reqOf_addr (.inl hr)]) (by rw [hrecalled, hmem]; exact htags)
    rw [hrecalled, hmem] at hu hview
    exact ⟨u, by simp only [performTxn, hr]; exact hu, hview⟩
  · exact ⟨s, by simp only [performTxn, hr]; exact hmem, rfl⟩

/-- A write at memory to pages that are not locked is answered OK and performed. -/
theorem performTxn_write (hk : t.kind = .write) (hlock : pageLocked s t.addr t.data.length = false) :
    ∃ u, performTxn s t = (u, (stOK, [])) ∧ Written s u t.addr t.data := by
  have hkind : (reqOf t).kind = .write := by simp [reqOf, kindOfTxn, hk]
  have haddr := reqOf_addr hregion
  rcases hregion with hr | ⟨n, hr⟩
  · have hrecalled : recalled s (reqOf t) = dropOthers s none (t.addr / 64) := by simp [recalled, hkind, reqWrites, haddr]
    have hview := compView_dropOthers s none (t.addr / 64)
    have hkeeps := lockView_dropOthers s none (t.addr / 64)
    obtain ⟨u, hu, hwritten, hutags⟩ := memAccess_write (s := dropOthers s none (t.addr / 64)) hkind
      (by rw [haddr]; exact (pageLocked_congr hview hkeeps _ _).trans hlock)
    obtain ⟨-, hstags⟩ := Prod.mk.inj hkeeps
    obtain ⟨v, hv, hvview⟩ := slcPerform_answers (r := reqOf t) (mt := mtOfTxn t) htags (by rwa [haddr])
      (by rw [hrecalled, hu]; exact hutags.trans (hstags.trans htags))
    rw [hrecalled, hu] at hv hvview
    rw [haddr] at hwritten
    exact ⟨v, by simp only [performTxn, hr]; exact hv, hwritten.congr hview.symm hvview⟩
  · obtain ⟨u, hu, hwritten, -⟩ := memAccess_write (s := s) hkind (by rw [haddr]; exact hlock)
    rw [haddr] at hwritten
    exact ⟨u, by simp only [performTxn, hr]; exact hu, hwritten⟩

end

section
variable {s : State} {id : Nat} {t : Txn} (hfind : findTxn s id = some t) (hdone : t.done = none) (hearlier : ∀ q ∈ earlier s t, q.done ≠ none)
  (hcut : cutThere s t = false) (hwhole : packetThere s t false = true) (hpass : waitsForPass s t = false)
include hfind hdone hearlier hcut hwhole hpass

/-- A transaction whose turn it is, whole and by a whole way, is performed, and its answer is kept with it. -/
theorem fabricTransactionArrival_performs {r : State} {ans : BitVec 3 × List Byte} (hr : performTxn s t = (r, ans)) (hfab : r.fab = s.fab) :
    ∃ u, exec (.fabricTransactionArrival id) s = .next u ∧ u.mem = r.mem ∧ findTxn u id = some { t with done := some ans } := by
  have hturn : ¬ (t.done.isSome = true ∨ (earlier s t).any (fun q => q.done.isNone) = true ∨ cutThere s t = true ∨
      (!packetThere s t false) = true ∨ waitsForPass s t = true) := by
    have hall : ¬ (earlier s t).any (fun q => q.done.isNone) = true := by simpa [Option.isNone_iff_eq_none] using hearlier
    simp [hdone, hall, hcut, hwhole, hpass]
  have hexec : exec (.fabricTransactionArrival id) s =
      .next (updFab r (fun f => { f with txns := f.txns.map (fun q => if q.id = id then { q with done := some ans } else q) })) := by
    show execFabricTransactionArrival id s = _
    simp only [execFabricTransactionArrival, hfind, hturn, if_false, hr]
  exact ⟨_, hexec, rfl, findTxn_changed hfind (g := fun q => { q with done := some ans }) (fun _ => rfl) (by rw [updFab_fab, hfab])⟩

end

/-! ### The way back (R75, R77, R78) -/

/-- The state without a transaction and its packets. -/
def forgetTxn (s : State) (id : Nat) : State :=
  updFab s (fun f => { f with txns := f.txns.filter (fun q => q.id ≠ id), packets := f.packets.filter (fun p => p.txn ≠ id) })

/-- An answer on no Pass whose turn it is reaches its port: delivered, or counted and recorded where it comes late. -/
theorem fabricResponse_arrives {s : State} {id : Nat} {t : Txn} {st : BitVec 3} {d : List Byte} (hfind : findTxn s id = some t) (hpass : t.pass = none)
    (hearlier : earlier s t = []) (hcut : cutBack s t = false) (hwhole : packetThere s t true = true) (hdone : t.done = some (st, d)) :
    exec (.fabricResponse id) s = .next (if t.late then raise (updFab (forgetTxn s id) (fun f => { f with late := satAdd f.late 1 }))
        { code := 0x0205, cls := 0, source := BitVec.ofNat 16 t.init.toNat, cell := t.cell, addr := some (BitVec.ofNat 64 t.addr, false),
          init := some (t.init, t.stream) }
      else deliverAns (forgetTxn s id) t st d) := by
  have hturn : ¬ ((!t.atPort) = true ∧ (earlier s t ≠ [] ∨ cutBack s t = true ∨ (!packetThere s t true) = true)) := by simp [hearlier, hcut, hwhole]
  show execFabricResponse id s = _
  simp only [execFabricResponse, hfind, hdone, hturn, if_false, hpass, countWords, ite_self]
  rfl

theorem loadAnswer_awaited {s : State} {c : Nat} {t q : Txn} (hrd : (getCore s c).rdTxn = some q) (hid : q.id = t.id) (st : BitVec 3) (d : List Byte) :
    loadAnswer s c t st d = setCore s c { getCore s c with rdAns := some (st, d) } := by
  simp [loadAnswer, updCore, hrd, hid]

theorem deliverAns_load_ok {t : Txn} {c : Nat} (hp : t.purpose = .load c) (s : State) (d : List Byte) : deliverAns s t stOK d = loadAnswer s c t stOK d := by
  simp [deliverAns, ansData, hp]

/-- The state with free values drawn. -/
def drawnTo (s : State) (k : Nat) : State := { s with free := k }

/-- Open bytes draw free values and change nothing else. -/
theorem freeBytes_eq (n : Nat) (s : State) : ∃ k, (freeBytes n s).1 = drawnTo s k := by
  induction n generalizing s with
  | zero => exact ⟨s.free, rfl⟩
  | succ n ih => exact ih (drawFree s).2

/-- A load answered TIMEOUT: recorded, its data of open value (R75). -/
theorem deliverAns_load_timeout {t : Txn} {c : Nat} (hp : t.purpose = .load c) (hk : t.kind = .read) (s : State) : ∃ n d',
    deliverAns s t stTIMEOUT [] = loadAnswer (readFailed (drawnTo s n) t.init t.cell t.stream stTIMEOUT t.addr) c t stTIMEOUT d' := by
  obtain ⟨n, hfree⟩ := freeBytes_eq ((t.size + 7) / 8) s
  refine ⟨n, (freeBytes ((t.size + 7) / 8) s).2.take t.size, ?_⟩
  have hbad : stTIMEOUT ≠ stOK ∧ stTIMEOUT ≠ stPOISON := by decide
  simp [deliverAns, ansData, hp, hk, hbad, hfree]

/-- The state with a transaction marked late: its port has answered TIMEOUT. -/
def markLate (s : State) (id : Nat) : State := updFab s (fun f => { f with txns := f.txns.map (fun q => if q.id = id then { q with late := true } else q) })

section
variable {s : State} {id : Nat} {t : Txn} (hfind : findTxn s id = some t)
include hfind

theorem fabricTimeout_early (hnow : s.now.toNat < t.issued.toNat + t.limit * 500) : exec (.fabricTimeout id) s = .next s := by
  show execFabricTimeout id s = _
  simp [execFabricTimeout, hfind, hnow]

/-- At its limit the source port answers the core's read, and marks the transaction late. -/
theorem fabricTimeout_answers {c : Nat} {q : Txn} (hport : t.atPort = false) (hlate : t.late = false)
    (hnow : t.issued.toNat + t.limit * 500 ≤ s.now.toNat) (hp : t.purpose = .load c) (hk : t.kind = .read)
    (hrd : (getCore s c).rdTxn = some q) (hid : q.id = id) :
    ∃ u d' f, exec (.fabricTimeout id) s = .next u ∧ (getCore u c).rdAns = some (stTIMEOUT, d') ∧ u.flt.raised = s.flt.raised ++ [f] ∧
      f.code = 0x0202 ∧ findTxn u id = some { t with late := true } ∧ u.mem = s.mem := by
  have hdue : ¬ (t.late = true ∨ t.atPort = true ∨ s.now.toNat < t.issued.toNat + t.limit * 500) := by
    simp [hlate, hport, hnow]
  obtain ⟨n, d', hdeliver⟩ := deliverAns_load_timeout hp hk (markLate s id)
  have hexec : exec (.fabricTimeout id) s = .next (deliverAns (markLate s id) t stTIMEOUT []) := by
    show execFabricTimeout id s = _
    simp only [execFabricTimeout, hfind, hdue, if_false]
    rfl
  have hawaited := loadAnswer_awaited (s := readFailed (drawnTo (markLate s id) n) t.init t.cell t.stream stTIMEOUT t.addr) (t := t) hrd
    (hid.trans (findTxn_id hfind).symm) stTIMEOUT d'
  refine ⟨_, d', _, hexec.trans (congrArg Host.Outcome.next (hdeliver.trans hawaited)), by rw [getCore_setCore], rfl, rfl, ?_, rfl⟩
  exact findTxn_changed hfind (g := fun q => { q with late := true }) (fun _ => rfl) rfl

end

/-! ### The statement -/

/-- Settles O33: the source port decides by the address, the fence and the way; an arrival at memory by the lemmas of the
slice; an answer by whether it comes in time. -/
theorem transactionsAreIssuedPerformedAndAnswered : Obligations.TransactionsAreIssuedPerformedAndAnswered := by
  refine ⟨fun s ep q hep hw hch hk => ?_, fun s id t hfind hdone hearlier hcut hwhole hpass hlive htags hregion => ⟨fun hk hbad => ?_, fun hk hlock => ?_⟩,
    fun s id t c q d hfind hpass hearlier hcut hwhole => ⟨fun hdone hlate hp hrd hid => ?_, fun hdone hlate => ?_, fabricTimeout_early hfind,
      fun _ => fabricTimeout_answers hfind⟩⟩
  · refine ⟨fun hno => fabricTransactionIssue_joins hep hw hch hk rfl (issueTxn_decode hno),
      fun d hd => ⟨fun hf => fabricTransactionIssue_joins hep hw hch hk rfl (issueTxn_fenced hd hf), fun hf hp => ⟨fun hpath => ?_, fun hpath => ?_⟩,
        fun p hf hp => ⟨?_, passFor_some_ne_dbg hp⟩⟩⟩
    · exact fabricTransactionIssue_joins hep hw hch hk rfl (issueTxn_noPath hd hf hp (hep ▸ hpath))
    · exact fabricTransactionIssue_joins hep hw hch hk rfl
        (issueTxn_leaves (s := submit s (txnOf q)) (t0 := waitingTxn s q) hd hf hep hp (.inr hpath))
    · exact fabricTransactionIssue_joins hep hw hch hk rfl
        (issueTxn_leaves (s := submit s (txnOf q)) (t0 := waitingTxn s q) hd hf hep hp (.inl rfl))
  · obtain ⟨r, hr, hview⟩ := performTxn_read hregion htags hlive hk hbad
    obtain ⟨hmem, -, -, hfab⟩ := compView_eq_iff.mp hview
    obtain ⟨u, hexec, humem, hfound⟩ := fabricTransactionArrival_performs hfind hdone hearlier hcut hwhole hpass hr hfab
    exact ⟨u, hexec, humem.trans hmem, hfound⟩
  · obtain ⟨r, hr, hfab, hbytes⟩ := performTxn_write hregion htags hlive hk hlock
    obtain ⟨u, hexec, humem, hfound⟩ := fabricTransactionArrival_performs hfind hdone hearlier hcut hwhole hpass hr hfab
    exact ⟨u, hexec, hfound, fun hwf x => (rdByte_congr humem x).trans (hbytes hwf x)⟩
  · rw [fabricResponse_arrives hfind hpass hearlier hcut hwhole hdone, if_neg (by simp [hlate]), deliverAns_load_ok hp]
    exact congrArg Host.Outcome.next (loadAnswer_awaited (s := forgetTxn s id) hrd (hid.trans (findTxn_id hfind).symm) _ _)
  · rw [fabricResponse_arrives hfind hpass hearlier hcut hwhole hdone, if_pos hlate]
    exact ⟨_, rfl, rfl, rfl, rfl⟩

end Sys2Proof.Machine
end

section
/-! Settles O8, O9, O11 and O12 (the slots of a word: 05_sotaivo_isa_model.md R83, R89, R93, R98, R99, R102, R105,
06_function_units.md R110, R113, R119, R124, R131). Every command that performs a slot transports it with what its row makes
of it; what the transport does is Laws/Slot's. -/
namespace Sys2Proof.Machine

/-! ### Commands that perform a slot -/

/-- A trigger of an ALU transports its slot to the port of that ALU. -/
theorem aluStep_slotStep (s : State) (c : CoreId) (u : AluId) (off : Nat) (m : Slot) (cmp : Bool) (op : Word → Word → Word) :
    ∃ act, (.next (aluStep s c u off m cmp op) : Host.Outcome State Fault Refusal) = .next (slotStep s c.val m (112 + off + 32 * u.val) act) :=
  ⟨_, by rw [Nat.add_right_comm]; rfl⟩

/-- Every command that performs a slot transports it, whatever it then does with it. -/
theorem exec_slotRow {i : Instr} {c : CoreId} {m : Slot} {d : Nat} (hrow : slotRow i = some (c, m, d)) (s : State) :
    ∃ act, exec i s = .next (slotStep s c.val m d act) := by
  cases i
  case move | sysTimeRead =>
    simp only [slotRow, Option.ite_none_left_eq_some, Bool.not_eq_true] at hrow
    obtain ⟨hplain, hrow⟩ := hrow
    cases hrow
    exact ⟨_, congrArg Host.Outcome.next (if_neg (by simp [hplain]))⟩
  case tAdd | tSub | tAnd | tOr | tXor | tAndn | tShl | tShr | tSar | tRor | tMin | tMax | tMinu | tMaxu | tCmpeq | tCmpne | tCmplt | tCmpge |
      tCmpltu | tCmpgeu | tTst =>
    cases hrow
    exact aluStep_slotStep ..
  all_goals cases hrow <;> exact ⟨_, rfl⟩

/-! ### Slots whose guard does not hold (R99) -/

/-- The guard by its number (R99). -/
theorem guardTrue_eq (x : Ctx) (g : BitVec 4) : guardTrue x g =
    if g.toNat = 0 then true else if g.toNat < 8 then x.p.getLsbD g.toNat
    else if g.toNat = 8 then false else !x.p.getLsbD (g.toNat - 8) := by
  have h0 : g = 0 ↔ g.toNat = 0 := BitVec.toNat_eq
  have h8 : g = 8 ↔ g.toNat = 8 := BitVec.toNat_eq
  simp only [guardTrue, h0, h8]
  by_cases hg : g.toNat = 8
  · simp [hg]
  · simp only [hg, if_false]

/-- Settles O8: the command transports its slot, and the transport of a slot whose guard does not hold changes nothing. -/
theorem falseGuardsHaveNoEffect : Obligations.FalseGuardsHaveNoEffect := by
  refine ⟨guardTrue_eq, fun i c m d s hrow hstraight hsafe hlegal hguard => ?_⟩
  obtain ⟨act, hexec⟩ := exec_slotRow hrow s
  rw [hexec, slotStep_off s c m d act hstraight hsafe hlegal hguard]

/-! ### Illegal and privileged slots (R93, R98, R104, R113) -/

/-- The core whose word under way is given up for the exception `e`. -/
def wordRaised (k : Core) (e : Exc) : Core :=
  { dropFailed k with ctx := opened k.ctx, rdAns := none, rdInv := false, rdParts := [], walk := none, exc := some e }

/-- A word that begins is given up whatever its slots have left in its registers. -/
theorem raiseWord_open {s : State} {c : Nat} {e : Exc} {x : Ctx} (hs : Straight (getCore s c)) (hrd : (getCore s c).rdTxn = none)
    (hcls : e.cls ≠ 0x16) :
    raiseWord (setCore s c { openCore (getCore s c) with ctx := x }) c e = setCore s c (wordRaised (getCore s c) e) := by
  have htrap : ∀ k, trapOfExc k e = none := fun k => if_neg hcls
  have hpre : (getCore s c).pre = none := hs.between
  have hrun : (getCore s c).mode = .run := hs.runs
  simp only [raiseWord, htrap, abandonWord, updCore_setCore, wordRaised, openCore, holdOf, hrd, hrun, dropFailed, Option.getD_some]
  rw [hpre]

/-- A word with one fault and nothing left to be done raises that fault. -/
theorem endWord_fault {s : State} {c : Nat} {e : Exc} {x : Ctx} (hs : Straight (getCore s c)) (hrd : (getCore s c).rdTxn = none)
    (hcls : e.cls ≠ 0x16) (hafter : x.after = []) (hfaults : x.faults = [e]) :
    endWord (setCore s c { openCore (getCore s c) with ctx := x }) c = setCore s c (wordRaised (getCore s c) e) := by
  have hlsu : lsuOf { openCore (getCore s c) with ctx := x } = none := by simp [lsuOf, hafter]
  unfold endWord
  simp only [getCore_setCore, hlsu, hafter, hfaults, List.filterMap_nil, List.append_nil, firstExc]
  exact raiseWord_open hs hrd hcls

/-- A last slot whose encoding decides an exception ends its word with that exception. -/
theorem slotStep_illegal {s : State} {c : CoreId} {m : Slot} {d : Nat} {e : Exc} (act : Core → VWord → Ctx → Ctx) (hs : Straight (getCore s c.val))
    (hlast : m.pos ≠ .first) (hrd : (getCore s c.val).rdTxn = none) (hcls : e.cls ≠ 0x16)
    (hexc : slotExc c.val (openCore (getCore s c.val)) m d = some e) :
    slotStep s c.val m d act = setCore s c.val (wordRaised (getCore s c.val) e) := by
  simp only [slotStep, takesWords_straight hs, slotAct_illegal s c m d act e hs hexc, Bool.not_true, Bool.false_eq_true, if_false, if_neg hlast]
  exact endWord_fault hs hrd hcls rfl rfl

/-- Settles O9: the encoding decides the exception, and the end of the word raises it. -/
theorem illegalAndPrivilegedSlotsRaise : Obligations.IllegalAndPrivilegedSlotsRaise := by
  intro i c m d s hrow hs hlast hrd
  obtain ⟨act, hexec⟩ := exec_slotRow hrow s
  have hraises : ∀ e : Exc, e.cls ≠ 0x16 → slotExc c.val (openCore (getCore s c.val)) m d = some e →
      exec i s = .next (setCore s c.val (wordRaised (getCore s c.val) e)) :=
    fun e hcls hexc => by rw [hexec, slotStep_illegal act hs hlast hrd hcls hexc]
  refine ⟨fun r hr => hraises _ (show 1 ≠ 0x16 by decide) ?_, fun r hr hpriv => hraises _ (show 4 ≠ 0x16 by decide) ?_⟩
  · unfold slotExc
    cases hm : m.src <;> simp only [hm] at hr <;> simp only [hr] <;> rfl
  · unfold slotExc
    cases hm : m.src <;> simp only [hm] at hr hpriv <;> simp only [hr] <;> exact congrArg (Option.map _) hpriv

/-! ### Plain moves (R83, R89, R131, R188) -/

theorem setDirty_eq (x : Ctx) (g : Nat) : setDirty x g = { x with dirty := x.dirty ||| BitVec.ofNat 6 (2 ^ g) } := by
  rw [setDirty, Nat.one_shiftLeft]

/-- A write of LSU.P sets the DIRTY bit of VA for a change above bit 63 alone (R188). -/
theorem writeAddr_lsuP (x : Ctx) (v : VWord) (hgroups : x.pendGroups = 0) :
    writeAddr x 225 v = { x with ports := put 225 v x.ports, dirty := x.dirty ||| (if look 0 225 x.ports >>> 64 = v >>> 64 then 0 else 16) } := by
  have hlazy : x.pendGroups.getLsbD 4 = false := by rw [hgroups]; rfl
  have hwrite : writeAddr x 225 v = if look 0 225 x.ports >>> 64 ≠ v >>> 64 then setDirty (setPort x 225 v) 4 else setPort x 225 v :=
    if_neg (c := x.pendGroups.getLsbD 4 = true) (by rw [hlazy]; exact Bool.false_ne_true)
  rw [hwrite, setDirty_eq]
  by_cases hsame : look 0 225 x.ports >>> 64 = v >>> 64
  · rw [if_neg (not_not.mpr hsame), if_pos hsame, show (0 : BitVec 6) = 0#6 from rfl, BitVec.or_zero]
    rfl
  · rw [if_pos hsame, if_neg hsame]
    rfl

/-- Outside FPU.CSR and the ports of CHK, and with no group pending, a plain write leaves what the rules say. -/
theorem writeAddr_written (x : Ctx) {d : Nat} (v : VWord) (hgroups : x.pendGroups = 0) (hcsr : d ≠ 275) (hsel : d ≠ 352) : writeAddr x d v = written x d v := by
  by_cases hp : d = 225
  · subst hp
    exact writeAddr_lsuP x v hgroups
  simp only [writeAddr, written, setDirty_eq, setPred, Nat.one_shiftLeft, hp, hcsr, hsel, if_false]
  split
  · rfl
  split
  · split <;> rfl
  split
  · rfl
  split
  · exact if_neg (by omega)
  · by_cases hrc : d = 336
    · subst hrc
      rfl
    · simp only [hrc, if_false]
      rfl

theorem moveAct_plain (m : Slot) {d : Nat} (v : VWord) (x : Ctx) (hd : d ∉ [275, 352, 353, 354]) : moveAct m d v x = writeAddr x d v := by
  simp only [List.mem_cons, List.not_mem_nil, or_false, not_or] at hd
  obtain ⟨hcsr, -, hval, hexp⟩ := hd
  simp only [moveAct, hcsr, hval, hexp, false_and, if_false]

/-- A plain write changes nothing that the end of its word looks at. -/
theorem written_frame (x : Ctx) (d : Nat) (v : VWord) :
    (written x d v).after = x.after ∧ (written x d v).faults = x.faults ∧ (written x d v).flights = x.flights ∧ (written x d v).rep = x.rep := by
  unfold written
  (repeat' split) <;> exact ⟨rfl, rfl, rfl, rfl⟩

/-- A slot of a ready core that makes a plain write. -/
theorem slotStep_writes {s : State} {c : CoreId} {m : Slot} {d : Nat} {act : Core → VWord → Ctx → Ctx} (hready : Ready s c m d)
    (hd : d ∉ [275, 352, 353, 354]) (hact : act (openCore (getCore s c.val)) (moved s c m) (regsOf s c) = writeAddr (regsOf s c) d (moved s c m)) :
    slotStep s c.val m d act = slotDone s c m (written (regsOf s c) d (moved s c m)) := by
  obtain ⟨hafter, hfaults, hflights, hrep⟩ := written_frame (regsOf s c) d (moved s c m)
  have hstraight := hready.1
  simp only [List.mem_cons, List.not_mem_nil, or_false, not_or] at hd
  obtain ⟨hcsr, hsel, hval, hexp⟩ := hd
  have hnone : (regsOf s c).flights = [] := hstraight.noFlights
  exact slotStep_done s c m d act _ hready (by omega) (hact.trans (writeAddr_written _ _ hstraight.noGroups hcsr hsel)) hafter hfaults
    (by simp [hflights, hnone]) (hrep.trans hstraight.noRepeat)

/-- Settles O11: what a plain move writes is what the rules say, and the end of its word has nothing left to do. -/
theorem movesWriteTheirDestination : Obligations.MovesWriteTheirDestination := by
  refine ⟨fun c m d s hplain hd hready => ?_, fun c m s hready => ?_⟩
  · have hexec : exec (.move c m d) s = .next (slotStep s c.val m d.toNat (fun _ v x => moveAct m d.toNat v x)) :=
      congrArg Host.Outcome.next (if_neg (by simp [hplain]))
    rw [hexec, slotStep_writes hready hd (moveAct_plain m _ _ hd)]
  · exact congrArg Host.Outcome.next (slotStep_writes hready (by decide) rfl)

/-! ### Effects left for the end of the word (R102, R105) -/

/-- A trigger in the first slot of a word leaves its effect, as the registers before the word give it. -/
theorem latches_of {mk : CoreId → Slot → Instr} {port : Nat} {f : State → CoreId → Slot → After} (g : Slot → Core → Ctx → VWord → After)
    (hport : ¬ (352 ≤ port ∧ port ≤ 354)) (hexec : ∀ c m s, exec (mk c m) s = .next (slotStep s c.val m port (trigAfter m (g m))))
    (hleft : ∀ c m s, g m (openCore (getCore s c.val)) (regsOf s c) (moved s c m) = f s c m) : latches mk port f := by
  intro c m s hready hfirst
  rw [hexec, slotStep_leaves s c m port _ hready hport hfirst, hleft]

theorem indirect_eq_fromPort (m : Slot) : indirect m = fromPort m := by
  cases hm : m.src <;> simp only [indirect, fromPort, hm]

/-- Settles O12: each trigger of the list leaves its effect for the end of the word. -/
theorem firstSlotsLatchTheirOperation : Obligations.FirstSlotsLatchTheirOperation := by
  unfold Obligations.FirstSlotsLatchTheirOperation latchesLsu
  simp only [← indirect_eq_fromPort]
  and_intros
  all_goals intros
  all_goals exact latches_of _ (by omega) (fun _ _ _ => rfl) (fun _ _ _ => rfl)

end Sys2Proof.Machine
end

section
/-! Settles O26 (results of the units: 05_sotaivo_isa_model.md R85, 06_function_units.md R111, R117, R118, R126, R127). The
layers: what a delivered result leaves; UNIT_RESULT between words; the end of a word that has waited. -/
namespace Sys2Proof.Machine

/-! ### Results in flight (R85, R117, R118, R126, R127) -/

/-- The oldest result of a unit is the one that is delivered. -/
theorem settleN_one {u : Nat} {fs : List Flight} {f : Flight} (hfind : fs.find? (fun g => g.unit = u) = some f) (x : Ctx) :
    settleN u 1 fs x = deliver { x with flights := x.flights.erase f } f := by
  induction fs with
  | nil => cases hfind
  | cons g fs ih =>
    simp only [settleN]
    by_cases hg : g.unit = u
    · have hhead : g = f := by simpa [hg] using hfind
      rw [if_pos hg, hhead]
      cases fs <;> rfl
    · rw [if_neg hg]
      exact ih (by simpa [hg] using hfind)

theorem inFlight_eq_zero_iff {x : Ctx} {u : Nat} : inFlight x u = 0 ↔ ∀ f ∈ x.flights, f.unit ≠ u := by
  simp [inFlight]

theorem drop'_eq_filter {α : Type} (a : Nat) (t : Tbl α) : drop' a t = t.filter (fun e => e.1 ≠ a) := by
  induction t with
  | nil => rfl
  | cons e t ih =>
    by_cases he : e.1 = a <;> simp [drop', he, ih]

/-- UNIT_RESULT of a unit but CHK between words. -/
theorem unitResult_between {c : CoreId} {s : State} {u : BitVec 9} (hu : u ≠ 352) (hrun : (getCore s c.val).mode = .run) :
    exec (.unitResult c u) s = .next (setCore s c.val (deliverUnit (getCore s c.val) u.toNat)) := by
  have hchk : u.toNat ≠ 352 := fun h => hu (BitVec.eq_of_toNat_eq h)
  have hwaits : waitsUnit (getCore s c.val) u.toNat = false := by simp [waitsUnit, hrun]
  show execUnitResult c u s = _
  simp only [execUnitResult, hchk, hwaits, if_false, Bool.false_eq_true]

/-- What a result of any unit but the LSU leaves (R85, R117, R118, R126, R127). -/
def delivered (x : Ctx) (f : Flight) : Ctx :=
  let q := put (f.unit + 2) f.q x.ports
  let trapped := f.flags &&& f.trap
  { x with
    ports := if f.unit = 192 ∨ f.unit = 208 then put (f.unit + 3) (f.qh.setWidth 256) q else q
    p := if f.pred = 0 then x.p else (x.p &&& ~~~(BitVec.ofNat 8 (2 ^ f.pred))) ||| (if f.q.getLsbD 0 then BitVec.ofNat 8 (2 ^ f.pred) else 0)
    csr := x.csr ||| (f.flags.setWidth 64 <<< 8)
    traps := if trapped = 0 then drop' (f.unit + 2) (if f.pred = 0 then x.traps else drop' (96 + f.pred) x.traps)
      else put (f.unit + 2) trapped (if f.pred = 0 then x.traps else put (96 + f.pred) trapped x.traps)
    poison := drop' (f.unit + 2) x.poison
    dirty := if f.unit = 304 then x.dirty ||| 16 else x.dirty }

theorem setPred_eq (x : Ctx) {n : Nat} (hn : n < 8) (b : Bool) :
    (if n = 0 then x else setPred x n b) =
      { x with p := if n = 0 then x.p else (x.p &&& ~~~(BitVec.ofNat 8 (2 ^ n))) ||| (if b then BitVec.ofNat 8 (2 ^ n) else 0) } := by
  by_cases h0 : n = 0
  · simp only [h0, if_true]
  · have hle : ¬ 7 < n := by omega
    simp only [h0, setPred, hle, or_self, if_false, Nat.one_shiftLeft]

theorem deliver_eq_delivered (x : Ctx) {f : Flight} (hlsu : f.unit ≠ 224) (hpoison : f.poison = none) (hpred : f.pred < 8) : deliver x f = delivered x f := by
  have hports : (if f.unit = 192 ∨ f.unit = 208 then setPort (setPort x (f.unit + 2) f.q) (f.unit + 3) (wide f.qh) else setPort x (f.unit + 2) f.q) =
      { x with ports := (delivered x f).ports } := by
    unfold delivered
    dsimp only
    split <;> rfl
  have hdirty : ∀ y : Ctx, (if f.unit = 304 then setDirty y 4 else y) = { y with dirty := if f.unit = 304 then y.dirty ||| 16 else y.dirty } :=
    fun y => by split <;> rfl
  simp only [deliver, hlsu, hpoison, false_and, if_false, or_false, hports, setPred_eq _ hpred, hdirty]
  rfl

/-- UNIT_RESULT of a unit but CHK and LSU between words delivers the oldest result of the unit. -/
theorem unitResult_delivers {c : CoreId} {s : State} {u : BitVec 9} {f : Flight} (hchk : u ≠ 352) (hlsu : u ≠ 224) (hrun : (getCore s c.val).mode = .run)
    (hbetween : (getCore s c.val).pre = none) (hpoison : f.poison = none) (hpred : f.pred < 8)
    (hfind : (getCore s c.val).ctx.flights.find? (fun g => g.unit = u.toNat) = some f) :
    exec (.unitResult c u) s = .next (setCore s c.val { getCore s c.val with
      ctx := delivered { (getCore s c.val).ctx with flights := (getCore s c.val).ctx.flights.erase f } f }) := by
  have hunit : f.unit = u.toNat := by simpa using List.find?_some hfind
  have hsome : inFlight (getCore s c.val).ctx u.toNat ≠ 0 := fun h => inFlight_eq_zero_iff.mp h f (List.mem_of_find?_eq_some hfind) hunit
  have hlsu' : f.unit ≠ 224 := fun h => hlsu (BitVec.eq_of_toNat_eq (hunit.symm.trans h))
  rw [unitResult_between hchk hrun]
  simp only [deliverUnit, hbetween, hsome, if_false, settleN_one hfind, deliver_eq_delivered _ hlsu' hpoison hpred]

theorem unitResult_nothing {c : CoreId} {s : State} {u : BitVec 9} (hchk : u ≠ 352) (hrun : (getCore s c.val).mode = .run)
    (hbetween : (getCore s c.val).pre = none) (hnone : ∀ f ∈ (getCore s c.val).ctx.flights, f.unit ≠ u.toNat) :
    exec (.unitResult c u) s = .next (setCore s c.val (getCore s c.val)) := by
  rw [unitResult_between hchk hrun]
  simp only [deliverUnit, hbetween, inFlight_eq_zero_iff.mpr hnone, if_true]

/-! ### A word that waits for a long operation (R111) -/

/-- The end of a word depends on what its registers hold but for its own marks. -/
theorem wordOver_congr {x y : Ctx} (h : opened x = opened y) (k : Core) : wordOver k x = wordOver k y := by
  unfold wordOver wordTo
  rw [h]

/-- A core whose word has ended with nothing left to be done, on its way to the next word. -/
def wordLeft (c : Nat) (k : Core) : Core :=
  wordClosed (advance c { k with ctx := { opened k.ctx with mprog := none } } false (k.pc + 8, none, false))

theorem commit_bare (s : State) (c : Nat) (k : Core) (hafter : k.ctx.after = []) (hrep : k.ctx.rep = false) (hspec : k.spec = []) :
    commit (setCore s c k) c = afterWord (setCore s c (wordLeft c k)) c [] k.pc := by
  have hfetched : installFetched (setCore s c k) c = setCore s c k := by simp [installFetched, hspec]
  have hctx : wordCtx { k with ctx := { k.ctx with after := [] } } = ({ opened k.ctx with mprog := none }, false) := by simp [wordCtx, hrep, opened]
  unfold commit
  simp only [getCore_setCore, hafter, List.foldl_nil, hfetched, setCore_setCore]
  rw [hctx]
  rfl

/-- The end of a word that leaves no effect, no fault and no result in flight, on a core without early fills. -/
theorem endWord_bare (s : State) (c : Nat) (k : Core) (hafter : k.ctx.after = []) (hfaults : k.ctx.faults = []) (hflights : k.ctx.flights = [])
    (hrep : k.ctx.rep = false) (hspec : k.spec = []) : endWord (setCore s c k) c = afterWord (setCore s c (wordLeft c k)) c [] k.pc := by
  have hlsu : lsuOf k = none := by simp [lsuOf, hafter]
  have hlong : longLeft k.ctx = false := by simp [longLeft, hafter, hflights]
  unfold endWord
  simp only [getCore_setCore, hlsu, hafter, hfaults, hlong, List.filterMap_nil, List.append_nil, firstExc, List.find?_nil, List.findSome?_nil,
    List.any_nil, Bool.false_eq_true, false_and, if_false]
  unfold endWord.commitLsu
  simp only [getCore_setCore, hlsu]
  exact commit_bare s c k hafter hrep hspec

/-- A core that no step and no safe state stops goes on after its word. -/
theorem afterWord_goesOn {s : State} {c : Nat} {k : Core} (hstep : k.stepOne = false) (hsafe : s.flt.safe = false) (pc : Word) :
    afterWord (setCore s c k) c [] pc = setCore s c k := by
  simp [afterWord, hstep, hsafe]

/-- A core whose word waits in some mode with the registers `x`. -/
def wordWaiting (k : Core) (mode : CoreMode) (x : Ctx) : Core := { openCore k with ctx := x, mode := mode }

/-- A word predicted right, or with no word decoded after it, is left for the next one in whatever mode its core waited. -/
theorem wordLeft_waiting {k : Core} (hs : Straight k) (c : Nat) (mode : CoreMode) (x : Ctx) : wordLeft c (wordWaiting k mode x) = wordOver k x := by
  unfold wordLeft wordOver wordTo advance trimQueue
  rcases hs.queue with hq | ⟨d, t, hq, haddr, -, hpred, htaken⟩
  · simp only [wordWaiting, openCore, hq, Bool.false_eq_true, false_and, if_false, if_true]
    cases hf : k.fq with
    | nil => rfl
    | cons f fs =>
      simp only [nextDecode, List.getLast?_nil]
      by_cases hpath : some (k.pc + 8) = some f.addr
      · simp only [hpath, if_true]; rfl
      · simp only [hpath, if_false]; rfl
  · simp [wordWaiting, openCore, hq, haddr, hpred, htaken, wordClosed, dropFailed]

/-- The end of a word with nothing left to be done leaves the core running, whatever it waited for. -/
theorem endWord_waited {s : State} {c : Nat} {x : Ctx} (mode : CoreMode) (hs : Straight (getCore s c)) (hsafe : s.flt.safe = false)
    (hafter : x.after = []) (hfaults : x.faults = []) (hflights : x.flights = []) (hrep : x.rep = false) :
    endWord (setCore s c (wordWaiting (getCore s c) mode x)) c = setCore s c (wordOver (getCore s c) x) := by
  rw [endWord_bare s c (wordWaiting (getCore s c) mode x) hafter hfaults hflights hrep hs.noSpec, wordLeft_waiting hs]
  exact afterWord_goesOn ((wordOver_stepOne _ _).trans hs.noStep) hsafe _

theorem slotLong_last (s : State) (c : CoreId) {m : Slot} (x : Ctx) (hlast : m.pos ≠ .first) :
    slotLong s c m x = setCore s c.val (wordWaiting (getCore s c.val) .waitLong x) := by
  simp only [slotLong, if_neg hlast]
  rfl

/-- UNIT_RESULT of the unit whose long operation a word waits for, for a unit without operations of its own at the word's end. -/
theorem unitResult_long {c : CoreId} {s : State} {u : BitVec 9} (hchk : u.toNat ≠ 352) (hctx : u.toNat ≠ 336) (hwaits : waitsUnit (getCore s c.val) u.toNat = true) :
    exec (.unitResult c u) s = .next (endWord (setCore s c.val (unitDone (getCore s c.val) u.toNat)) c.val) := by
  show execUnitResult c u s = _
  simp only [execUnitResult, hchk, if_false, hwaits, if_true, longResult, hctx]
  rfl

theorem settle_single {x : Ctx} {f : Flight} (hflights : x.flights = [f]) : settle x f.unit = deliver { x with flights := [] } f := by
  have hone : inFlight x f.unit = 1 := by simp [inFlight, hflights]
  have hfind : x.flights.find? (fun g => g.unit = f.unit) = some f := by simp [hflights]
  rw [settle, hone, settleN_one hfind]
  simp [hflights]

/-- A quotient or a root without flags, on registers without trapped or poisoned results, reaches its ports alone. -/
theorem delivered_quiet {x : Ctx} {f : Flight} (hunit : f.unit = 208 ∨ f.unit = 272) (hpred : f.pred = 0) (hflags : f.flags = 0)
    (htraps : x.traps = []) (hpoison : x.poison = []) :
    delivered x f = { x with ports := if f.unit = 208 then put 211 (f.qh.setWidth 256) (put 210 f.q x.ports) else put 274 f.q x.ports } := by
  have hcsr : x.csr ||| ((0 : BitVec 5).setWidth 64 <<< 8) = x.csr := BitVec.or_zero
  have hnoTrap : (0 : BitVec 5) &&& f.trap = 0 := BitVec.zero_and
  have hnoTraps : ([] : Tbl (BitVec 5)) = x.traps := htraps.symm
  have hnoPoison : ([] : Tbl Word) = x.poison := hpoison.symm
  unfold delivered
  rcases hunit with hu | hu
  all_goals
    simp only [hu, hpred, hflags, hcsr, hnoTrap, htraps, hpoison, drop', if_true]
    simp only [hnoTraps, hnoPoison]
    rfl

/-- The registers of a word that has waited for the result `f` alone. -/
def waitedFor (x : Ctx) (f : Flight) : Ctx := { delivered { x with flights := [] } f with doneUnits := [f.unit] }

/-- A division or a square root that a word waits for ends the word. -/
theorem unitResult_completes {c : CoreId} {s : State} {m : Slot} {f : Flight} (hs : Straight (getCore s c.val)) (hsafe : s.flt.safe = false)
    (hlast : m.pos ≠ .first) (hunit : f.unit = 208 ∨ f.unit = 272) (hlong : f.long = true) (hpred : f.pred = 0) (hflags : f.flags = 0) (hpoison : f.poison = none) :
    exec (.unitResult c (BitVec.ofNat 9 f.unit)) (slotLong s c m { regsOf s c with flights := [f] }) =
      .next (setCore s c.val (wordOver (getCore s c.val) { regsOf s c with
        ports := if f.unit = 208 then put 211 (f.qh.setWidth 256) (put 210 f.q (regsOf s c).ports) else put 274 f.q (regsOf s c).ports })) := by
  have hnum : (BitVec.ofNat 9 f.unit).toNat = f.unit := by rcases hunit with h | h <;> rw [h] <;> rfl
  have hwaits : waitsUnit (wordWaiting (getCore s c.val) .waitLong { regsOf s c with flights := [f] }) f.unit = true := by
    simp [waitsUnit, wordWaiting, hlong, regsOf, opened]
  have hdone : unitDone (wordWaiting (getCore s c.val) .waitLong { regsOf s c with flights := [f] }) f.unit =
      wordWaiting (getCore s c.val) .waitLong (waitedFor (regsOf s c) f) := by
    have hsettled : settle { regsOf s c with flights := [f] } f.unit = delivered { regsOf s c with flights := [] } f :=
      (settle_single rfl).trans (deliver_eq_delivered _ (by omega) hpoison (by omega))
    show wordWaiting (getCore s c.val) .waitLong { settle { regsOf s c with flights := [f] } f.unit with doneUnits := [f.unit] } = _
    rw [hsettled]
    rfl
  have hregs : opened (waitedFor (regsOf s c) f) = opened { regsOf s c with
      ports := if f.unit = 208 then put 211 (f.qh.setWidth 256) (put 210 f.q (regsOf s c).ports) else put 274 f.q (regsOf s c).ports } := by
    have hnone : (regsOf s c).flights = [] := hs.noFlights
    unfold waitedFor
    rw [delivered_quiet (x := { regsOf s c with flights := [] }) hunit hpred hflags hs.noTraps hs.noPoison]
    simp only [opened, hnone]
  rw [slotLong_last s c _ hlast, unitResult_long (by rw [hnum]; omega) (by rw [hnum]; omega) (by rw [getCore_setCore, hnum]; exact hwaits), getCore_setCore,
    setCore_setCore, hnum, hdone, endWord_waited (x := waitedFor (regsOf s c) f) .waitLong hs hsafe rfl rfl rfl hs.noRepeat, wordOver_congr hregs]

/-- Settles O26: a result between words by what its delivery leaves, nothing in flight, and a word that waits for its result. -/
theorem unitResultsReachTheirPorts : Obligations.UnitResultsReachTheirPorts := by
  refine ⟨fun c s u f => ?_, fun c s u hchk hrun hbetween hnone => unitResult_nothing hchk hrun hbetween hnone,
    fun c m s f hs hsafe hlast hunit hlong hpred hflags hpoison => unitResult_completes hs hsafe hlast hunit hlong hpred hflags hpoison⟩
  intro k qa tr hchk hlsu hrun hbetween hunit hpoison hpred _ hfind p1 drop
  have hmul : (u = 192 ∨ u = 208) ↔ (f.unit = 192 ∨ f.unit = 208) := by rw [hunit, BitVec.toNat_eq, BitVec.toNat_eq]; rfl
  have hvec : u = 304 ↔ f.unit = 304 := by rw [hunit, BitVec.toNat_eq]; rfl
  refine ⟨_, unitResult_delivers hchk hlsu hrun hbetween hpoison hpred hfind, rfl, rfl, rfl, rfl, rfl, ?_, rfl, rfl, ?_, ?_⟩
  · simp only [hmul, p1, qa, ← hunit]
    rfl
  · simp only [hvec]
    rfl
  · simp only [drop, qa, ← drop'_eq_filter, ← hunit]
    rfl

end Sys2Proof.Machine
end

section
/-! Settles O58 (a step of the block: 05_sotaivo_isa_model.md R102, 14_time_and_deadlines.md R299, 20_debug_and_trace.md R437).
The trace path may write a line of its buffer into memory; the layers, from the caches to the trace path, say that this changes
neither the queue nor the timebase nor the registers of a core. -/
namespace Sys2Proof.Machine

/-! ### What the commands that wait, the timebase and the registers of the cores show -/

/-- The queue, the timebase, and the registers of every core. -/
def runView (s : State) : List Instr × Word × (Nat → Ctx) := (s.pending, s.now, fun c => (getCore s c).ctx)

theorem runView_eq_iff {s u : State} : runView u = runView s ↔ u.pending = s.pending ∧ u.now = s.now ∧ ∀ c, (getCore u c).ctx = (getCore s c).ctx := by
  simp [runView, funext_iff]

theorem runView_updCore (s : State) (c : Nat) {f : Core → Core} (h : ∀ k, (f k).ctx = k.ctx) : runView (updCore s c f) = runView s := by
  refine runView_eq_iff.mpr ⟨rfl, rfl, fun d => ?_⟩
  by_cases hd : c = d
  · rw [← hd, getCore_updCore, h]
  · rw [getCore_updCore_other s hd]

@[simp] theorem runView_updDbg (s : State) (f : DbgSt → DbgSt) : runView (updDbg s f) = runView s := rfl
@[simp] theorem runView_updFab (s : State) (f : Fab → Fab) : runView (updFab s f) = runView s := rfl
@[simp] theorem runView_updSite (s : State) (n : Nat) (f : Site → Site) : runView (updSite s n f) = runView s := rfl
@[simp] theorem runView_setL2 (s : State) (n : Nat) (l : List L2Line) : runView (setL2 s n l) = runView s := rfl
@[simp] theorem runView_cacheFault (s : State) (code cls : Nat) (source : BitVec 16) (cell : Option CellId) (init : Option (InitId × BitVec 4)) (pa : Nat) :
    runView (cacheFault s code cls source cell init pa) = runView s := rfl

/-! ### Lines that leave the caches -/

@[simp] theorem runView_mapL2 (s : State) (n line : Nat) (f : L2Line → L2Line) : runView (mapL2 s n line f) = runView s := by
  unfold mapL2; split <;> rfl
@[simp] theorem runView_mapSlc (s : State) (line : Nat) (f : SlcLine → SlcLine) : runView (mapSlc s line f) = runView s := by
  unfold mapSlc; split <;> rfl
@[simp] theorem runView_applyInject (s : State) (pa : Nat) : runView (applyInject s pa) = runView s := by
  unfold applyInject
  dsimp only
  split
  · rfl
  · split <;> rfl
@[simp] theorem runView_dirtySlc (s : State) (line : Nat) : runView (dirtySlc s line) = runView s := by
  unfold dirtySlc; split <;> simp
@[simp] theorem runView_writeDown (s : State) (line : Nat) : runView (writeDown s line) = runView s := runView_dirtySlc s line

@[simp] theorem runView_dropL1 (s : State) (c line : Nat) : runView (dropL1 s c line) = runView s := by
  unfold dropL1
  split
  · dsimp only
    split <;> simp [runView_updCore]
  · rfl

@[simp] theorem runView_dropL2 (s : State) (n line : Nat) : runView (dropL2 s n line) = runView s := by
  have hl1 := foldl_keeps (g := runView) (fun s j => runView_dropL1 s (8 * n + j) line) (List.range 8) s
  unfold dropL2
  dsimp only
  split
  · split <;> simp [hl1]
  · exact hl1

@[simp] theorem runView_dropOthers (s : State) (keep : Option Nat) (line : Nat) : runView (dropOthers s keep line) = runView s := by
  unfold dropOthers
  dsimp only
  refine (foldl_keeps (g := runView) (fun s n => ?_) _ _).trans (foldl_keeps (g := runView) (fun s c => ?_) _ _)
  · split <;> simp
  · split <;> simp

@[simp] theorem runView_writeBack (s : State) (n line : Nat) (fails : Bool) : runView (writeBack s n line fails).1 = runView s := by
  unfold writeBack
  dsimp only
  split
  · split
    · refine (runView_cacheFault _ _ _ _ _ _ _).trans (foldl_keeps (g := runView) (fun s u => ?_) _ _)
      rfl
    · refine (runView_mapSlc _ _ _).trans (foldl_keeps (g := runView) (fun s u => ?_) _ _)
      rfl
  · rfl

@[simp] theorem runView_evictSlc (s : State) (n line : Nat) : runView (evictSlc s n line) = runView s := by
  have hback : runView (writeBack (dropOthers s none line) n line false).1 = runView s := by simp
  unfold evictSlc
  dsimp only
  split <;> exact hback

/-! ### A lookup in a slice -/

theorem runView_loseLines (s : State) (n : Nat) (ls : List Nat) : runView (loseLines s n ls) = runView s := by
  refine foldl_keeps (g := runView) (fun s l => ?_) ls s
  simp only [runView_updSite, runView_dropOthers, runView_mapSlc]
  split
  · refine foldl_keeps (g := runView) (fun s i => ?_) _ _
    rfl
  · rfl

@[simp] theorem runView_checkTags (s : State) (line : Nat) : runView (checkTags s line) = runView s := by
  unfold checkTags
  dsimp only
  split
  · exact (runView_cacheFault _ _ _ _ _ _ _).trans (runView_loseLines _ _ _)
  · rfl

@[simp] theorem runView_slcTouch (s : State) (line : Nat) (cls owner : Option Nat) : runView (slcTouch s line cls owner) = runView s := by
  unfold slcTouch
  dsimp only
  split
  · simp
  split
  · simp
  split
  · simp
  · split <;> (split <;> simp)

/-! ### A write performed at memory -/

/-- What a change of every entry keeps of each of them, it keeps of what the table reads. -/
theorem look_map_keeps {α β : Type} (d : α) (k : Nat) {g : Nat × α → Nat × α} {p : α → β} (hkey : ∀ e, (g e).1 = e.1) (hkeeps : ∀ e, p (g e).2 = p e.2) (t : Tbl α) :
    p (look d k (t.map g)) = p (look d k t) := by
  induction t with
  | nil => rfl
  | cons e t ih =>
    have hhead : look d k (g e :: t.map g) = if (g e).1 = k then (g e).2 else look d k (t.map g) := rfl
    rw [List.map_cons, hhead, hkey, look]
    split
    · exact hkeeps e
    · exact ih

@[simp] theorem runView_clearResv (s : State) (pa n : Nat) : runView (clearResv s pa n) = runView s := by
  refine runView_eq_iff.mpr ⟨rfl, rfl, fun c => look_map_keeps (p := Core.ctx) _ c ?_ (fun e => ?_) s.cores⟩
  · exact fun _ => rfl
  · dsimp only
    split
    · split <;> rfl
    · rfl

@[simp] theorem runView_performWrite (s : State) (pa : Nat) (bs : List Byte) : runView (performWrite s pa bs) = runView s := by
  have hput : runView (putMem s pa bs) = runView s := by
    unfold putMem
    split
    · rfl
    · exact runView_clearResv _ _ _
  unfold performWrite
  split
  · rfl
  · exact hput

@[simp] theorem runView_performInit (s : State) (i : InitId) (pa : Nat) (bs : List Byte) : runView (performInit s i pa bs) = runView s := by
  unfold performInit
  split
  · simp
  · next c _ => exact (runView_updCore (performWrite s pa bs) c (f := fun k => { k with resv := (getCore s c).resv }) (fun _ => rfl)).trans (runView_performWrite s pa bs)

theorem runView_memAccess_write (s : State) {r : Req} (hk : r.kind = .write) : runView (memAccess s r).1 = runView s := by
  simp only [memAccess, hk]
  split
  · rfl
  · dsimp only
    split <;> simp

theorem runView_memPerform_write (s : State) {r : Req} (hk : r.kind = .write) (mt : Nat) : runView (memPerform s r mt).1 = runView s := by
  have hslice : runView (slcPerform s r mt).1 = runView s := by
    have hw : isWrite r = true := by simp [isWrite, hk]
    unfold slcPerform
    simp only [hw, hk, reqWrites, if_true]
    split
    · exact runView_checkTags s _
    · have haccess := runView_memAccess_write (dropOthers (checkTags s (r.addr.toNat / 64)) none (r.addr.toNat / 64)) hk
      rw [runView_dropOthers, runView_checkTags] at haccess
      split <;> simp [haccess]
  unfold memPerform
  split
  · exact hslice
  · exact runView_memAccess_write s hk

/-! ### Writes of a device (R64, R75, R330) -/

@[simp] theorem runView_carry (s : State) (i : InitId) (st : BitVec 4) (cell : Option CellId) (d req ans : Nat) : runView (carry s i st cell d req ans).1 = runView s := by
  have hcount : ∀ p n, runView (countWords s p n) = runView s := fun p n => by cases p <;> rfl
  unfold carry
  dsimp only
  split
  · rfl
  split
  · rfl
  split
  · rfl
  split
  · split
    · rfl
    · split <;> rfl
  · exact hcount _ _

@[simp] theorem runView_carryWritePa (s : State) (i : InitId) (st : BitVec 4) (cell : Option CellId) (pa n : Nat) : runView (carryWritePa s i st cell pa n).1 = runView s := by
  unfold carryWritePa
  split
  · rfl
  · exact runView_carry _ _ _ _ _ _ _

@[simp] theorem runView_raiseEvent (s : State) (e : Nat) : runView (raiseEvent s e) = runView s := by
  unfold raiseEvent raiseEventAt raiseEventBy
  dsimp only
  (repeat' split) <;> rfl

@[simp] theorem runView_failWrite (s : State) (i : InitId) (st : BitVec 4) (c : Option CellId) (status : BitVec 3) (pa va code : Nat) (source : BitVec 16) :
    runView (failWrite s i st c status pa va code source).1 = runView s := by
  unfold failWrite
  dsimp only
  split
  · rfl
  · split
    · exact runView_raiseEvent _ _
    · rfl

theorem runView_ioWrite (i : InitId) (st : BitVec 4) (cell : Option CellId) (ws : List (Nat × List Byte)) (s : State) : runView (ioWrite i st cell ws s).1 = runView s := by
  induction ws generalizing s with
  | nil => rfl
  | cons w rest ih =>
    obtain ⟨pa, bs⟩ := w
    have hmem := runView_memPerform_write (carryWritePa s i st cell pa bs.length).1 (r := devReq i st cell .write pa bs.length bs) rfl 3
    rw [runView_carryWritePa] at hmem
    simp only [ioWrite]
    split
    · simp
    split
    · simp
    split
    · simp [hmem]
    · rw [ih, hmem]

/-! ### The trace path (R437 to R439) -/

theorem runView_traceLine (s : State) (bs : List Byte) : runView (traceLine s bs).1 = runView s := by
  unfold traceLine
  extract_lets wrap moved t
  have hwrap : ∀ u, runView (wrap u) = runView u := fun u => by
    show runView (if _ then _ else _) = _
    split <;> rfl
  have hmoved : ∀ u, runView (moved u) = runView u := fun u => hwrap _
  have hwrite := runView_ioWrite dbgInit 0 (tbCell t) [(tbBase t + t.dbg.tbPtr, bs)] t
  split
  · exact hwrap s
  split
  · exact hwrap s
  split
  · next heq => rw [heq] at hwrite; exact hwrite.trans (hwrap s)
  · next heq => rw [heq] at hwrite; exact (hmoved _).trans (hwrite.trans (hwrap s))
  · next heq => rw [heq] at hwrite; exact (hmoved _).trans (hwrite.trans (hwrap s))

theorem runView_traceFlush (n : Nat) (s : State) : runView (traceFlush n s) = runView s := by
  induction n generalizing s with
  | zero => rfl
  | succ n ih =>
    have hline := runView_traceLine s (nibBytes (s.dbg.stream.take 128))
    unfold traceFlush
    split
    · split
      · rfl
      · split
        · next heq => rw [ih]; rw [heq] at hline; exact hline
        · next heq => rw [heq] at hline; exact hline
    · split
      · rfl
      · rw [ih]; rfl

/-- The trace path takes its value from a core's queue and its line into memory: no register of a core changes. -/
theorem runView_traceStep (s : State) : runView (traceStep s) = runView s := by
  unfold traceStep
  split
  · rfl
  split
  · exact runView_traceFlush _ _
  split
  · rfl
  · next c port v t _ =>
    exact (runView_traceFlush _ _).trans (runView_updCore s c (f := fun k => { k with stim := k.stim.drop 1 }) fun _ => rfl)

theorem traceStep_off {s : State} (h : bit (trcCtrl s) 0 = false) : traceStep s = s := by
  simp [traceStep, h]

theorem step_front (s : State) (c : Instr) (rest : List Instr) : step { s with pending := c :: rest } = exec c { s with pending := rest } := rfl

theorem step_idle {s : State} (h : s.pending = []) : step s = .next (traceStep { s with now := s.now + 1 }) := by
  simp only [step, h, idle]

/-- Settles O58: the front command by the definition of a step; what an idle step keeps by what the trace path keeps. -/
theorem stepRunsTheFrontCommand : Obligations.StepRunsTheFrontCommand := by
  refine ⟨step_front, fun s h => step_idle h, fun s h => ⟨_, step_idle h, ?_⟩⟩
  obtain ⟨hpending, hnow, hctx⟩ := runView_eq_iff.mp (runView_traceStep { s with now := s.now + 1 })
  refine ⟨hnow, hpending.trans h, fun hoff => ?_, hctx⟩
  rw [traceStep_off (s := { s with now := s.now + 1 }) hoff]
  exact ⟨rfl, rfl⟩

end Sys2Proof.Machine
end

section
/-! Settles O27 (fetch and decode: 05_sotaivo_isa_model.md R98, R104, 07_pipeline_and_branches.md R144, R145, R162).
Four layers: the checks of decode and the lines that arrive; decode, which takes the oldest fetched word; fetch, which reads
the group; and both in one step. -/
namespace Sys2Proof.Machine

/-! ### The checks of decode (R98) -/

/-- A short word with bit 0 set is illegal before anything else is. -/
theorem decodeExc_shortBit (small : Bool) (lvl : Nat) (rep : Bool) {w : Word} (pc : Word) (hshort : w.getLsbD 63 = true) (hbit : w.getLsbD 0 = true) :
    decodeExc small lvl rep w pc = some { cls := 1, base := 1, fields := 1, addr := pc, pc := pc } := by
  simp only [decodeExc, bit, hshort, hbit, Bool.not_true]
  rfl

/-! ### Lines arrive (R145, R162) -/

theorem rdBytes_setCore (s : State) (c : Nat) (k : Core) (a n : Nat) : rdBytes (setCore s c k) a n = rdBytes s a n := by
  induction n generalizing a with
  | zero => rfl
  | succ n ih => rw [rdBytes, rdBytes, ih]; rfl

theorem l1iInstall_empty {s : State} {c : Nat} (line : Nat) (hempty : (getCore s c).l1i = []) :
    l1iInstall s c line = setCore s c { getCore s c with l1i := [(line, rdBytes s (64 * line) 64)] } := by
  simp [l1iInstall, updCore, hempty]

theorem fillInstr_S {c : Nat} (s : State) (cell : Option CellId) (line : Nat) (hS : isS c = true) : fillInstr s c cell line = l1iInstall s c line :=
  if_pos hS

/-- The line that an S-core's one fill brings is installed. -/
theorem icacheFillArrival_installs {c : CoreId} {s : State} {line : Nat} {x : Option CellId} (hS : isS c.val = true)
    (hfills : (getCore s c.val).fills = [{ line := line, fetch := true, cell := x }]) (hempty : (getCore s c.val).l1i = []) :
    exec (.icacheFillArrival c) s = .next (setCore s c.val { getCore s c.val with fills := [], l1i := [(line, rdBytes s (64 * line) 64)] }) := by
  have hcome : (getCore s c.val).fills.find? (fun f => f.fetch && fillReady f) = some { line := line, fetch := true, cell := x } := by simp [hfills, fillReady]
  have hinstall : fillInstr (setCore s c.val { getCore s c.val with fills := [] }) c.val x line =
      setCore s c.val { getCore s c.val with fills := [], l1i := [(line, rdBytes s (64 * line) 64)] } := by
    rw [fillInstr_S _ _ _ hS, l1iInstall_empty _ (by rw [getCore_setCore]; exact hempty), getCore_setCore, setCore_setCore, rdBytes_setCore]
  have herased : (getCore s c.val).fills.erase { line := line, fetch := true, cell := x } = [] := by simp [hfills]
  show execIcacheFillArrival c s = _
  simp only [execIcacheFillArrival, hcome, updCore, herased, hinstall, Bool.false_eq_true, if_false]
  rw [if_pos (by simp)]

/-- Data on its way reach every entry of their line that awaits no answer. -/
theorem specFillArrival_arrives {c : CoreId} {s : State} (line : BitVec 38) (hkeep : ∀ l ∈ (getCore s c.val).spec, l.keep = false) :
    exec (.specFillArrival c line) s = .next (setCore s c.val { getCore s c.val with
      spec := (getCore s c.val).spec.map (fun l => if l.line = line.toNat ∧ l.txn = none then { l with arrived := true } else l) }) := by
  have hnone : ((getCore s c.val).spec.map (fun l => if l.line = line.toNat ∧ l.txn = none then { l with arrived := true } else l)).any
      (fun l => (decide (l.line = line.toNat) && l.txn.isNone) && l.keep && !l.fetch) = false := by
    rw [List.any_map, List.any_eq_false]
    intro l hl
    have hkept : (if l.line = line.toNat ∧ l.txn = none then { l with arrived := true } else l).keep = false := by
      split <;> exact hkeep l hl
    simp [hkept]
  show execSpecFillArrival c line s = _
  simp only [execSpecFillArrival, updCore, Bool.and_eq_true, decide_eq_true_eq, Option.isNone_iff_eq_none, getCore_setCore]
  rw [hnone]
  rfl

/-! ### Decode takes the oldest word (R98, R104, R144) -/

/-- A core that runs with nothing fetched, nothing decoded, no word begun and no exception to enter. -/
structure AtFetch (k : Core) : Prop where
  runs : k.mode = .run
  noExc : k.exc = none
  noDecoded : k.dq = []
  noFetched : k.fq = []
  between : k.pre = none

/-- Decode takes the oldest word of the prefetch queue. -/
def decodeOldest (s : State) (c : Nat) : State :=
  match (getCore s c).fq with
  | [] => s
  | f :: _ => if 2 ≤ (getCore s c).dq.length then s else decodeWord s c f

theorem decodeOldest_none {s : State} {c : Nat} (h : (getCore s c).fq = []) : decodeOldest s c = s := by
  simp only [decodeOldest, h]

/-- A core with the one decoded word `d`, and `rest` still fetched. -/
def queued (k : Core) (d : DecWord) (rest : List FetchWord) : Core :=
  { k with dq := [d], fq := rest, fetchPc := d.pred.getD d.addr, decRep := false }

theorem queued_last {k : Core} {d : DecWord} (hfq : k.fq = []) :
    queued k d [] = { k with dq := [d], fetchPc := d.pred.getD d.addr, decRep := false } :=
  congrArg (queued k d) hfq.symm

theorem pushWord_first {k : Core} {d : DecWord} (hdq : k.dq = []) (htaken : d.taken = false) (rest : List FetchWord) :
    pushWord { k with fq := rest } d k.retStack false = queued k d rest := by
  simp [pushWord, queued, hdq, htaken]

section
variable (s : State) (c : Nat) {k : Core} {f : FetchWord} {rest : List FetchWord} (hfq : k.fq = f :: rest) (hdq : k.dq = [])
include hfq hdq

theorem decodeOldest_fetched : decodeOldest (setCore s c k) c = decodeWord (setCore s c k) c f := by
  simp [decodeOldest, hfq, hdq]

theorem decodeWord_failed {e : Exc} (hexc : f.exc = some e) :
    decodeWord (setCore s c k) c f = setCore s c (queued k { addr := e.pc, word := 0, exc := some e } rest) := by
  simp only [decodeWord, hexc, getCore_setCore, setCore_setCore, pushExc, hfq, List.drop_succ_cons, List.drop_zero]
  exact congrArg (setCore s c) (pushWord_first hdq rfl rest)

theorem decodeWord_refused {e : Exc} (hsound : f.exc = none)
    (hchecked : decodeExc (isS c) k.level.toNat (k.decRep || k.ctx.rep) f.word f.addr = some e) :
    decodeWord (setCore s c k) c f = setCore s c (queued k { addr := f.addr, word := f.word, exc := some e } rest) := by
  have hempty : k.dq.isEmpty = true := by rw [hdq]; rfl
  simp only [decodeWord, hsound, getCore_setCore, setCore_setCore, hfq, hempty, if_true, hchecked, List.drop_succ_cons, List.drop_zero]
  exact congrArg (setCore s c) (pushWord_first hdq rfl rest)

end

/-- A word without a branch, a loop, a repeat or an immediate-offset load: it goes on straight, and looks nothing up early. -/
def PlainWord (w : Word) : Prop := ∀ x ∈ slotsOf w, branchTrig x.dst = false ∧ x.dst ≠ 341 ∧ x.dst ≠ 340 ∧ x.dst ≠ 232

section
variable {w : Word} (hplain : PlainWord w)
include hplain

theorem branchSlot_plain : branchSlot w = none := by
  refine List.find?_eq_none.mpr fun x hx => ?_
  obtain ⟨hbranch, hloop, -, -⟩ := hplain x hx
  simp [hbranch, hloop]

theorem earlyLookup_plain (s : State) (c : Nat) (pc : Word) : earlyLookup s c w pc = s := by
  have hnone : (slotsOf w).find? (fun sl => sl.dst = 232 && sl.imm && sl.guard ≠ 8) = none := by
    refine List.find?_eq_none.mpr fun x hx => ?_
    obtain ⟨-, -, -, hload⟩ := hplain x hx
    simp [hload]
  unfold earlyLookup
  dsimp only
  rw [hnone]

theorem noRepeat_plain : (slotsOf w).any (fun sl => sl.dst = 340) = false := by
  refine List.any_eq_false.mpr fun x hx => ?_
  obtain ⟨-, -, hrep, -⟩ := hplain x hx
  simp [hrep]

theorem predict_plain (c : Nat) (k : Core) (pc : Word) : predict c k w pc = { next := some (pc + 8), rs := k.retStack } := by
  simp only [predict, branchSlot_plain hplain]

theorem loopReady_plain (k : Core) : loopReady k w = true := by
  simp only [loopReady, branchSlot_plain hplain]

end

theorem decodeWord_plain (s : State) (c : Nat) {k : Core} {f : FetchWord} {rest : List FetchWord} (hfq : k.fq = f :: rest) (hdq : k.dq = [])
    (hsound : f.exc = none) (hchecked : decodeExc (isS c) k.level.toNat (k.decRep || k.ctx.rep) f.word f.addr = none) (hplain : PlainWord f.word) :
    decodeWord (setCore s c k) c f = setCore s c (queued k { addr := f.addr, word := f.word, pred := some (f.addr + 8) } rest) := by
  have hempty : k.dq.isEmpty = true := by rw [hdq]; rfl
  simp only [decodeWord, hsound, getCore_setCore, setCore_setCore, hfq, hempty, if_true, hchecked, List.drop_succ_cons, List.drop_zero,
    loopReady_plain hplain, Bool.not_true, Bool.false_eq_true, if_false, earlyLookup_plain hplain, predict_plain hplain, noRepeat_plain hplain]
  exact congrArg (setCore s c) (pushWord_first hdq rfl rest)

/-! ### Fetch takes its step (R144, R145) -/

theorem wordDecode_eq {c : CoreId} {s : State} (hk : AtFetch (getCore s c.val)) :
    exec (.wordDecode c) s = .next (decodeOldest (fetchGroup (setCore s c.val (getCore s c.val)) c.val) c.val) := by
  have hfetches : fetches (getCore s c.val) = true := by simp [fetches, hk.runs, hk.noExc]
  have htrim : trimQueue (getCore s c.val) = getCore s c.val := by simp only [trimQueue, hk.noFetched]
  show execWordDecode c s = _
  simp only [execWordDecode, hfetches, Bool.not_true, Bool.false_eq_true, if_false, updCore, htrim]
  rfl

/-- A lookup reads nothing of the cores but its own. -/
theorem lookup_setCore (s : State) (c lvl va : Nat) (kd : AKind) (dirty : Bool) : lookup (setCore s c (getCore s c)) c lvl va kd dirty = lookup s c lvl va kd dirty := by
  unfold lookup
  rw [getCore_setCore]
  rfl

theorem nextFetch_atFetch {k : Core} (hk : AtFetch k) : nextFetch k = some k.pc := by
  simp [nextFetch, nextDecode, hk.noFetched, hk.noDecoded]

/-! ### What fetch reads lies outside the core's own entry -/

theorem busBytes_setCore (s : State) (c : Nat) (k : Core) (a n : Nat) : busBytes (setCore s c k) a n = busBytes s a n := by
  induction n generalizing a with
  | zero => rfl
  | succ n ih => rw [busBytes, busBytes, ih]; rfl

theorem length_busBytes (s : State) (a n : Nat) : (busBytes s a n).length = n := by
  induction n generalizing a with
  | zero => rfl
  | succ n ih => rw [busBytes, List.length_cons, ih]

theorem answers_setCore_own {s : State} {c pa : Nat} {k : Core} (hown : regionOf pa = .rom ∨ ∃ n, regionOf pa = .sram n) (hans : answers s c pa = true) :
    answers (setCore s c k) c pa = true := by
  obtain hrom | ⟨n, hsram⟩ := hown
  · rw [answers, hrom] at hans ⊢; exact hans
  · rw [answers, hsram] at hans ⊢; exact hans

theorem askFill_setCore_near {s : State} {c : Nat} {k : Core} {f : Fill} (hnew : ∀ x ∈ k.fills, x.line ≠ f.line)
    (hnear : isS c = true ∨ (f.excl = false ∧ f.na = false ∧ hasL2 s (cluOf c) f.line = true)) :
    askFill (setCore s c k) c f = setCore s c { k with fills := k.fills ++ [f] } := by
  have hnone : k.fills.any (fun x => x.line = f.line && x.fetch = f.fetch) = false :=
    List.any_eq_false.mpr fun x hx => by simp [hnew x hx]
  have hhas : hasL2 (setCore s c k) (cluOf c) f.line = hasL2 s (cluOf c) f.line := rfl
  simp only [askFill, getCore_setCore, hnone, hhas, Bool.false_eq_true, if_false, updCore, setCore_setCore]
  exact if_pos (by simpa using hnear)

/-- The read of a line that an A-core's fill asks the fabric for. -/
def fillTxn (s : State) (c : Nat) (k : Core) (f : Fill) : Txn :=
  { init := coreInit c, level := k.level, cell := f.cell, stream := 0, kind := if f.fetch then .fetch else .read, addr := 64 * f.line, size := 64
    purpose := .fill c f.fetch false, id := s.fab.nextId, issued := s.now }

theorem askFill_setCore_far {s : State} {c : Nat} {k : Core} {f : Fill} (hnew : ∀ x ∈ k.fills, x.line ≠ f.line)
    (hA : isS c = false) (hfar : f.excl = true ∨ f.na = true ∨ hasL2 s (cluOf c) f.line = false) :
    askFill (setCore s c k) c f =
      setCore { s with fab := { s.fab with waiting := s.fab.waiting ++ [fillTxn s c k f], nextId := s.fab.nextId + 1 } } c
        { k with fills := k.fills ++ [{ f with txn := some s.fab.nextId }] } := by
  have hnone : k.fills.any (fun x => x.line = f.line && x.fetch = f.fetch) = false :=
    List.any_eq_false.mpr fun x hx => by simp [hnew x hx]
  have hhas : hasL2 (setCore s c k) (cluOf c) f.line = hasL2 s (cluOf c) f.line := rfl
  have hcond : ¬(isS c = true ∨ (!f.excl) = true ∧ (!f.na) = true ∧ hasL2 s (cluOf c) f.line = true) := by
    rw [hA]
    obtain h | h | h := hfar <;> simp [h]
  have hcore (t : Txn) : getCore (submit (setCore s c k) t) c = k := getCore_setCore s c k
  have hset (t : Txn) (k' : Core) : setCore (submit (setCore s c k) t) c k' = setCore (submit s t) c k' :=
    setCore_setCore (submit s t) c k k'
  simp only [askFill, getCore_setCore, hnone, hhas, Bool.false_eq_true, if_false, updCore, hcore, hset]
  exact if_neg hcond

theorem groupWords_head {s : State} {pa : Nat} {pc : Word} {bs : List Byte} (hlen : 8 ≤ bs.length) (hsound : poisonedAt s pa 8 = false) :
    groupWords s pa pc bs = { addr := pc, word := BitVec.ofNat 64 (leNat (bs.take 8)) } :: (groupWords s pa pc bs).drop 1 := by
  obtain ⟨n, hn⟩ : ∃ n, bs.length / 8 = n + 1 := ⟨bs.length / 8 - 1, by omega⟩
  simp [groupWords, hn, List.range_succ_eq_map, hsound]

/-- A line that L1 holds becomes the most recently used. -/
theorem readGroup_held {s : State} {c pa mt : Nat} (n : Nat) {e : Nat × List Byte} (hcached : 2 ≤ effType c pa mt)
    (hheld : (getCore s c).l1i.find? (fun x => x.1 = pa / 64) = some e) :
    readGroup (setCore s c (getCore s c)) c pa mt n =
      .words (setCore s c { getCore s c with l1i := e :: (getCore s c).l1i.filter (fun x => x.1 ≠ pa / 64) }) ((e.2.drop (pa % 64)).take n) := by
  simp only [readGroup, getCore_setCore, setCore_setCore, Nat.not_le.mpr hcached, if_false, hheld]

/-- The boot ROM and the pair's own SRAM are read as they are. -/
theorem readGroup_own {s : State} {c pa mt : Nat} (n : Nat) (huncached : effType c pa mt < 2) (hown : regionOf pa = .rom ∨ ∃ n, regionOf pa = .sram n)
    (hans : answers s c pa = true) :
    readGroup (setCore s c (getCore s c)) c pa mt n = .words (setCore s c (getCore s c)) (busBytes s pa n) := by
  have hans' := answers_setCore_own (k := getCore s c) hown hans
  have hle : effType c pa mt ≤ 1 := by omega
  obtain hrom | ⟨n, hsram⟩ := hown
  · simp only [readGroup, hle, if_true, hrom, hans', busBytes_setCore]
  · simp only [readGroup, hle, if_true, hsram, hans', busBytes_setCore]

/-- Words fetched join an empty queue. -/
theorem queueWords_atFetch {k : Core} (hk : AtFetch k) (ws : List FetchWord) : (queueWords k ws).fq = ws :=
  congrArg (· ++ ws) hk.noFetched

section
variable {c : CoreId} {s : State} (hk : AtFetch (getCore s c.val))
include hk

/-! ### Fetch and decode in one step -/

/-- A refused translation is queued as the exception of the word that lies there. -/
theorem wordDecode_fault {f : XFault} (hfault : lookup s c.val (getCore s c.val).level.toNat (getCore s c.val).pc.toNat .fetch false = .fault f) :
    exec (.wordDecode c) s = .next (setCore s c.val (queued (getCore s c.val)
      { addr := (getCore s c.val).pc, word := 0, exc := some (xExc f .fetch false false false (getCore s c.val).pc (getCore s c.val).pc) } [])) := by
  have hfetch : fetchGroup (setCore s c.val (getCore s c.val)) c.val = setCore s c.val (queueWords (getCore s c.val)
      [{ addr := (getCore s c.val).pc, exc := some (xExc f .fetch false false false (getCore s c.val).pc (getCore s c.val).pc) }]) := by
    simp only [fetchGroup, getCore_setCore, hk.noFetched, nextFetch_atFetch hk, lookup_setCore, hfault, setCore_setCore]
    rfl
  have hqueue := queueWords_atFetch hk [{ addr := (getCore s c.val).pc, exc := some (xExc f .fetch false false false (getCore s c.val).pc (getCore s c.val).pc) }]
  rw [wordDecode_eq hk, hfetch, decodeOldest_fetched (k := queueWords _ _) s c.val hqueue hk.noDecoded,
    decodeWord_failed (k := queueWords _ _) s c.val hqueue hk.noDecoded rfl]
  rfl

/-- What fetch makes of a group that is not refused. -/
theorem fetchGroup_ok {pa mt : Nat} (hok : lookup s c.val (getCore s c.val).level.toNat (getCore s c.val).pc.toNat .fetch false = .ok pa mt) :
    fetchGroup (setCore s c.val (getCore s c.val)) c.val =
      match readGroup (setCore s c.val (getCore s c.val)) c.val pa mt (16 - pa % 16) with
      | .words s1 bs => updCore s1 c.val (fun k => queueWords k (groupWords s1 pa (getCore s c.val).pc bs))
      | .bad s1 => updCore s1 c.val (fun k => queueWords k [{ addr := (getCore s c.val).pc, exc := some (decExc 0x0A 0 false false (getCore s c.val).pc) }])
      | .wait s1 => s1 := by
  simp only [fetchGroup, getCore_setCore, hk.noFetched, nextFetch_atFetch hk, lookup_setCore, hok]
  rfl

/-- A line that L1 lacks, that did not come early, and that nobody asked for yet: a fill is asked for. -/
theorem readGroup_missing {pa mt : Nat} (n : Nat) (hcached : 2 ≤ effType c.val pa mt) (hlacks : ∀ e ∈ (getCore s c.val).l1i, e.1 ≠ pa / 64)
    (hspec : (getCore s c.val).spec = []) (hgroup : (getCore s c.val).group = none) (hnew : ∀ f ∈ (getCore s c.val).fills, f.line ≠ pa / 64) :
    readGroup (setCore s c.val (getCore s c.val)) c.val pa mt n = .wait (askFill (setCore s c.val (getCore s c.val)) c.val
      { line := pa / 64, fetch := true, cell := coreCell (getCore s c.val), na := !(allocL1 s c.val (coreCell (getCore s c.val)) pa mt false) }) := by
  have hnoline : (getCore s c.val).l1i.find? (fun e => e.1 = pa / 64) = none := List.find?_eq_none.mpr fun e he => by simp [hlacks e he]
  have hnofill : (getCore s c.val).fills.any (fun f => f.line = pa / 64 && f.fetch && f.failed.isSome) = false :=
    List.any_eq_false.mpr fun f hf => by simp [hnew f hf]
  have hpath : onPath (getCore s c.val) = true := by simp [onPath, hk.noDecoded, hk.noFetched]
  simp only [readGroup, getCore_setCore, Nat.not_le.mpr hcached, if_false, hnoline, hspec, List.any_nil, Bool.false_eq_true, hgroup,
    Option.bind_none, hpath, Bool.not_true, hnofill]
  rfl

/-- With its fill asked for, the core has nothing to decode. -/
theorem wordDecode_missing {pa mt : Nat} (hok : lookup s c.val (getCore s c.val).level.toNat (getCore s c.val).pc.toNat .fetch false = .ok pa mt)
    {s1 : State} {k1 : Core} (hread : readGroup (setCore s c.val (getCore s c.val)) c.val pa mt (16 - pa % 16) = .wait (setCore s1 c.val k1))
    (hempty : k1.fq = []) : exec (.wordDecode c) s = .next (setCore s1 c.val k1) := by
  rw [wordDecode_eq hk, fetchGroup_ok hk hok, hread]
  exact congrArg Host.Outcome.next (decodeOldest_none (by rw [getCore_setCore]; exact hempty))

/-- The first word of a group read in the state `s1` is checked and queued, the other stays fetched. -/
theorem decodesFrom_of_readGroup {pa mt : Nat} {s1 : State} {bs : List Byte}
    (hok : lookup s c.val (getCore s c.val).level.toNat (getCore s c.val).pc.toNat .fetch false = .ok pa mt)
    (hread : readGroup (setCore s c.val (getCore s c.val)) c.val pa mt (16 - pa % 16) = .words (setCore s1 c.val (getCore s1 c.val)) bs)
    (hk1 : AtFetch (getCore s1 c.val)) (hpc : (getCore s1 c.val).pc = (getCore s c.val).pc)
    (hlen : 8 ≤ bs.length) (hsound : poisonedAt s1 pa 8 = false) : decodesFrom s s1 c pa bs := by
  have hfetch : fetchGroup (setCore s c.val (getCore s c.val)) c.val =
      setCore s1 c.val (queueWords (getCore s1 c.val) (groupWords s1 pa (getCore s1 c.val).pc bs)) := by
    rw [fetchGroup_ok hk hok, hread, ← hpc]
    simp only [updCore, getCore_setCore, setCore_setCore]
    rfl
  have hqueue := (queueWords_atFetch hk1 (groupWords s1 pa (getCore s1 c.val).pc bs)).trans (groupWords_head hlen hsound)
  have hdecode : exec (.wordDecode c) s = .next (decodeWord (setCore s1 c.val (queueWords (getCore s1 c.val) (groupWords s1 pa (getCore s1 c.val).pc bs))) c.val
      { addr := (getCore s1 c.val).pc, word := BitVec.ofNat 64 (leNat (bs.take 8)) }) := by
    rw [wordDecode_eq hk, hfetch, decodeOldest_fetched (k := queueWords _ _) s1 c.val hqueue hk1.noDecoded]
  refine ⟨fun hchecked hplain => ?_, fun e hchecked => ?_⟩
  · rw [hdecode, decodeWord_plain (k := queueWords _ _) s1 c.val hqueue hk1.noDecoded rfl hchecked hplain]
    rfl
  · rw [hdecode, decodeWord_refused (k := queueWords _ _) s1 c.val hqueue hk1.noDecoded rfl hchecked]
    rfl

end

section
variable {c : CoreId} {s : State} {pa mt : Nat} (hk : AtFetch (getCore s c.val))
  (hok : lookup s c.val (getCore s c.val).level.toNat (getCore s c.val).pc.toNat .fetch false = .ok pa mt)
include hk hok

/-- A group of a line in L1 is decoded from there. -/
theorem decodesFrom_held {e : Nat × List Byte} (hslot : pa % 16 ≤ 8) (hcached : 2 ≤ effType c.val pa mt)
    (hheld : (getCore s c.val).l1i.find? (fun x => x.1 = pa / 64) = some e) (hline : e.2.length = 64) (hsound : poisonedAt s pa 8 = false) :
    decodesFrom s (setCore s c.val { getCore s c.val with l1i := e :: (getCore s c.val).l1i.filter (fun x => x.1 ≠ pa / 64) }) c pa
      ((e.2.drop (pa % 64)).take (16 - pa % 16)) := by
  refine decodesFrom_of_readGroup hk hok ?_ ?_ ?_ ?_ hsound
  · rw [readGroup_held _ hcached hheld, getCore_setCore, setCore_setCore]
  · rw [getCore_setCore]
    exact { runs := hk.runs, noExc := hk.noExc, noDecoded := hk.noDecoded, noFetched := hk.noFetched, between := hk.between }
  · rw [getCore_setCore]
  · rw [List.length_take, List.length_drop, hline]
    omega

/-- A group of the boot ROM or of the pair's own SRAM is decoded as it lies there. -/
theorem decodesFrom_own (hslot : pa % 16 ≤ 8) (huncached : effType c.val pa mt < 2) (hown : regionOf pa = .rom ∨ ∃ n, regionOf pa = .sram n)
    (hans : answers s c.val pa = true) (hsound : poisonedAt s pa 8 = false) : decodesFrom s s c pa (busBytes s pa (16 - pa % 16)) :=
  decodesFrom_of_readGroup hk hok (readGroup_own _ huncached hown hans) hk rfl (by rw [length_busBytes]; omega) hsound

section
variable (hcached : 2 ≤ effType c.val pa mt) (hlacks : ∀ e ∈ (getCore s c.val).l1i, e.1 ≠ pa / 64) (hspec : (getCore s c.val).spec = [])
  (hgroup : (getCore s c.val).group = none) (hnew : ∀ f ∈ (getCore s c.val).fills, f.line ≠ pa / 64) {f : Fill}
  (hf : f = { line := pa / 64, fetch := true, cell := coreCell (getCore s c.val), na := !(allocL1 s c.val (coreCell (getCore s c.val)) pa mt false) })
include hcached hlacks hspec hgroup hnew hf

/-- A line that comes from the pair's SRAM or the cluster's L2 is only marked as on its way. -/
theorem wordDecode_fillNear (hnear : isS c.val = true ∨ (f.na = false ∧ hasL2 s (cluOf c.val) (pa / 64) = true)) :
    exec (.wordDecode c) s = .next (setCore s c.val { getCore s c.val with fills := (getCore s c.val).fills ++ [f] }) := by
  subst hf
  refine wordDecode_missing hk hok ?_ hk.noFetched
  rw [readGroup_missing hk _ hcached hlacks hspec hgroup hnew]
  exact congrArg GroupRes.wait (askFill_setCore_near hnew (hnear.imp_right fun h => ⟨rfl, h⟩))

/-- Any other line is read on stream 0. -/
theorem wordDecode_fillFar (hA : isS c.val = false) (hfar : f.na = true ∨ hasL2 s (cluOf c.val) (pa / 64) = false) :
    exec (.wordDecode c) s = .next (setCore { s with fab := { s.fab with waiting := s.fab.waiting ++ [fillTxn s c.val (getCore s c.val) f], nextId := s.fab.nextId + 1 } }
      c.val { getCore s c.val with fills := (getCore s c.val).fills ++ [{ f with txn := some s.fab.nextId }] }) := by
  subst hf
  refine wordDecode_missing hk hok ?_ hk.noFetched
  rw [readGroup_missing hk _ hcached hlacks hspec hgroup hnew]
  exact congrArg GroupRes.wait (askFill_setCore_far hnew hA (Or.inr hfar))

end

end

/-- Settles O27: the words of a group whose read is known are decoded from it, whatever memory it came from; a group that
cannot be read yet asks for its line, and one whose translation is refused is an exception in the queue. -/
theorem wordsAreFetchedAndChecked : Obligations.WordsAreFetchedAndChecked := by
  unfold Obligations.WordsAreFetchedAndChecked
  refine ⟨?_, fun small lvl rep w pc => decodeExc_shortBit small lvl rep pc, fun c s line x => icacheFillArrival_installs,
    fun c line s => specFillArrival_arrives line⟩
  intro c s pa mt k hruns hexc hdq hfq hpre
  have hk : AtFetch (getCore s c.val) := ⟨hruns, hexc, hdq, hfq, hpre⟩
  refine ⟨fun f hfault => ?_, fun hok hslot => ⟨fun hcached hlacks hspec hgroup hnew => ⟨?_, fun hA hfar => ?_⟩, ?_, ?_⟩⟩
  · refine ⟨xExc f .fetch false false false k.pc k.pc, rfl, rfl, rfl, (wordDecode_fault hk hfault).trans ?_⟩
    exact congrArg (fun k' => Host.Outcome.next (setCore s c.val k')) (queued_last hfq)
  · exact wordDecode_fillNear hk hok hcached hlacks hspec hgroup hnew rfl
  · exact ⟨_, rfl, rfl, rfl, rfl, rfl, rfl, wordDecode_fillFar hk hok hcached hlacks hspec hgroup hnew rfl hA hfar⟩
  · exact fun e hcached hheld hline hsound => decodesFrom_held hk hok hslot hcached hheld hline hsound
  · exact decodesFrom_own hk hok hslot

end Sys2Proof.Machine
end

section
/-! Settles O10 (cores that take no words: 05_sotaivo_isa_model.md R104, 06_function_units.md R109, 07_pipeline_and_branches.md
R152, 08_privilege_and_exceptions.md R174). -/
namespace Sys2Proof.Machine

/-- A core in another mode than running, or with an exception to be entered, takes no word. -/
theorem takesWords_stopped {k : Core} (h : k.mode ≠ .run ∨ k.exc ≠ none) : takesWords k = false := by
  rcases h with hmode | hexc
  · simp [takesWords, hmode]
  · simp [takesWords, hexc]

/-- Settles O10: the command transports its slot, and a core that takes no word ignores it. -/
theorem stoppedCoresIgnoreSlots : Obligations.StoppedCoresIgnoreSlots := by
  intro i c m d s hrow hstopped
  obtain ⟨act, hexec⟩ := exec_slotRow hrow s
  rw [hexec, slotStep_ignored s c.val m d act (takesWords_stopped hstopped)]

end Sys2Proof.Machine
end

section
/-! Settles O30 (what comes to a core that waits: 07_pipeline_and_branches.md R152, R158, 10_cells_and_translation.md R225, R232,
R234, 11_memory_ordering.md R247, R250). The end of a word that has waited is said once, for an effect that is over by then; each
arrival then says only what it takes off the core before the word ends. -/
namespace Sys2Proof.Machine

/-! ### Every core of the device -/

/-- A key that a table does not list reads as the default. -/
theorem look_unlisted {α : Type} (d : α) {k : Nat} {t : Tbl α} (h : k ∉ t.map (·.1)) : look d k t = d := by
  induction t with
  | nil => rfl
  | cons e t ih =>
    simp only [List.map_cons, List.mem_cons, not_or] at h
    rw [look, if_neg (Ne.symm h.1), ih h.2]

/-- What a core as at reset has, every core has where the listed ones do. -/
theorem forall_core_of_listed {s : State} {p : Core → Prop} (hreset : p {}) (h : ∀ j ∈ listedCores s, p (getCore s j)) (j : Nat) : p (getCore s j) := by
  by_cases hj : j ∈ listedCores s
  · exact h j hj
  · have hunlisted : getCore s j = {} := look_unlisted _ hj
    rw [hunlisted]
    exact hreset

/-- What every core has, it has after one of them changes to a core that has it. -/
theorem forall_core_setCore {s : State} {p : Core → Prop} (h : ∀ j, p (getCore s j)) {k : Core} (c : Nat) (hk : p k) (j : Nat) :
    p (getCore (setCore s c k) j) := by
  by_cases hj : c = j
  · rw [← hj, getCore_setCore]
    exact hk
  · rw [getCore_setCore_other s hj]
    exact h j

/-- Has a core no access left that an invalidation found granted before it (R234)? -/
def oldGone (k : Core) : Bool := !(k.sbuf.any (fun e => e.inv)) && !(k.rdInv && k.rdTxn.isSome)

theorem oldDone_iff {s : State} : oldDone s = true ↔ ∀ j, oldGone (getCore s j) = true :=
  ⟨fun h => forall_core_of_listed (p := fun k => oldGone k = true) rfl (List.all_eq_true.mp h), fun h => List.all_eq_true.mpr fun j _ => h j⟩

theorem allWalksOver_iff {s : State} : (listedCores s).all (fun j => (getCore s j).walk.isNone) = true ↔ ∀ j, (getCore s j).walk.isNone = true :=
  ⟨fun h => forall_core_of_listed (p := fun k => k.walk.isNone = true) rfl (List.all_eq_true.mp h), fun h => List.all_eq_true.mpr fun j _ => h j⟩

/-! ### The end of a word that has waited (R104, R152, R250) -/

/-- Effects that are over when the word ends: an access that the LSU has accepted, and a barrier that orders nothing later. -/
def pastAtEnd : After → Bool
  | .lsu .. => true
  | .fence fen => fen != .s
  | _ => false

theorem applyAfter_past (s : State) (c : Nat) (b l : Bool) {a : After} (hpast : pastAtEnd a = true) : applyAfter s c (b, l, a) = s := by
  cases a with
  | lsu => rfl
  | fence fen => cases fen with
    | s => cases hpast
    | _ => rfl
  | _ => cases hpast

theorem wordCtx_past {k : Core} {b l : Bool} {a : After} (hafter : k.ctx.after = [(b, l, a)]) (hpast : pastAtEnd a = true) (hrep : k.ctx.rep = false) :
    wordCtx k = ({ opened k.ctx with mprog := none }, false) := by
  cases a with
  | lsu | fence => simp [wordCtx, hafter, hrep, opened]
  | _ => cases hpast

theorem flowOf_past {k : Core} {b l : Bool} {a : After} (hafter : k.ctx.after = [(b, l, a)]) (hpast : pastAtEnd a = true) :
    flowOf k = (k.pc + 8, none, false) := by
  cases a with
  | lsu | fence =>
    rw [flowOf, hafter]
    rfl
  | _ => cases hpast

theorem branches_past {k : Core} {b l : Bool} {a : After} (hafter : k.ctx.after = [(b, l, a)]) (hpast : pastAtEnd a = true) : branches k = false := by
  cases a with
  | lsu | fence => simp [branches, hafter]
  | _ => cases hpast

theorem afterWord_past (s : State) (c : Nat) (b l : Bool) {a : After} (hpast : pastAtEnd a = true) (pc : Word) :
    afterWord s c [(b, l, a)] pc = afterWord s c [] pc := by
  cases a with
  | lsu | fence => rfl
  | _ => cases hpast

theorem afterExc_past (s : State) (c : Nat) (b l : Bool) {a : After} (hpast : pastAtEnd a = true) : afterExc s c (b, l, a) = none := by
  cases a with
  | lsu | fence => rfl
  | _ => cases hpast

/-- A word whose one effect is over is closed as one that leaves none. -/
theorem commit_past {s : State} {c : Nat} {k : Core} {b l : Bool} {a : After} (hafter : k.ctx.after = [(b, l, a)]) (hpast : pastAtEnd a = true)
    (hrep : k.ctx.rep = false) (hspec : k.spec = []) : commit (setCore s c k) c = afterWord (setCore s c (wordLeft c k)) c [] k.pc := by
  have hfetched : installFetched (setCore s c k) c = setCore s c k := by simp [installFetched, hspec]
  have hsame : ({ k with ctx := { k.ctx with after := [(b, l, a)] } } : Core) = k := by rw [← hafter]
  unfold commit
  simp only [getCore_setCore, hafter, List.foldl_cons, List.foldl_nil, applyAfter_past _ _ _ _ hpast, hfetched, hsame, setCore_setCore,
    wordCtx_past hafter hpast hrep, flowOf_past hafter hpast, branches_past hafter hpast, afterWord_past _ _ _ _ hpast, Bool.false_eq_true, if_false]
  rfl

/-- A word that waited, of a core between words, ends with its one effect over: the core goes on, whatever it waited for. -/
theorem commit_waited {s : State} {c : Nat} {k : Core} {x : Ctx} {b l : Bool} {a : After} (mode : CoreMode) (hs : Straight k) (hsafe : s.flt.safe = false)
    (hafter : x.after = [(b, l, a)]) (hpast : pastAtEnd a = true) (hrep : x.rep = false) :
    commit (setCore s c (wordWaiting k mode x)) c = setCore s c (wordOver k x) := by
  rw [commit_past (k := wordWaiting k mode x) hafter hpast hrep hs.noSpec, wordLeft_waiting hs]
  exact afterWord_goesOn ((wordOver_stepOne _ _).trans hs.noStep) hsafe _

/-- The registers of a word that has left one effect for its end. -/
def regsLeaving (s : State) (c : CoreId) (m : Slot) (a : After) : Ctx := { regsOf s c with after := [(m.slotB, m.long, a)] }

theorem waitingIn_eq (s : State) (c : CoreId) (m : Slot) (a : After) (w : CoreMode) (f : Core → Core) :
    waitingIn s c m a w f = setCore s c.val (f (wordWaiting (getCore s c.val) w (regsLeaving s c m a))) := rfl

/-! ### BARRIER_WAIT_END (R250) -/

/-- A full barrier on an empty store buffer, with no stream blocked, holds its word back no more. -/
theorem endWord_fence {s : State} {c : Nat} {k : Core} {b l : Bool} (hafter : k.ctx.after = [(b, l, .fence .f)]) (hfaults : k.ctx.faults = [])
    (hflights : k.ctx.flights = []) (hempty : k.sbuf = []) (hopen : k.blocked = []) : endWord (setCore s c k) c = commit (setCore s c k) c := by
  have hlsu : lsuOf k = none := by simp [lsuOf, hafter]
  have hlong : longLeft k.ctx = false := by simp [longLeft, longUnit, hafter, hflights]
  have hdone : fenceDone (setCore s c k) c .f = true := by simp [fenceDone, hempty]
  have hfree : blockedExc k none b l = none := by simp [blockedExc, hopen]
  have hexc : afterExc (setCore s c k) c (b, l, .fence .f) = none := afterExc_past _ _ _ _ rfl
  unfold endWord
  simp only [getCore_setCore, hlsu, hafter, hfaults, hlong, hdone, hfree, List.nil_append, List.filterMap_cons, List.filterMap_nil, hexc,
    firstExc, List.any_cons, List.any_nil, List.find?_cons, List.find?_nil, isTlbInv, List.findSome?_cons, Bool.or_self, Bool.not_true,
    Bool.false_eq_true, false_and, if_false]
  simp only [endWord.commitLsu, getCore_setCore, hlsu]

/-- BARRIER_WAIT_END ends a full barrier that nothing is left for. -/
theorem barrierWaitEnd_completes {c : CoreId} {s : State} (m : Slot) (hs : Straight (getCore s c.val)) (hsafe : s.flt.safe = false)
    (hempty : (getCore s c.val).sbuf = []) (hopen : (getCore s c.val).blocked = []) :
    exec (.barrierWaitEnd c) (waitingIn s c m (.fence .f) .waitFence id) = .next (setCore s c.val (wordOver (getCore s c.val) (regsOf s c))) := by
  have htried : exec (.barrierWaitEnd c) (waitingIn s c m (.fence .f) .waitFence id) = .next (endWord (waitingIn s c m (.fence .f) .waitFence id) c.val) :=
    congrArg Host.Outcome.next (if_pos (by rw [waitingIn_eq, getCore_setCore]; rfl))
  rw [htried, waitingIn_eq, id, endWord_fence (k := wordWaiting (getCore s c.val) .waitFence (regsLeaving s c m (.fence .f))) rfl rfl hs.noFlights hempty hopen,
    commit_waited (x := regsLeaving s c m (.fence .f)) .waitFence hs hsafe rfl rfl hs.noRepeat,
    wordOver_congr (x := regsLeaving s c m (.fence .f)) (y := regsOf s c) rfl]

/-! ### TLB_INV_DONE (R232, R234) -/

theorem dropAfter_only {k : Core} {b l : Bool} {a : After} {p : After → Bool} (hafter : k.ctx.after = [(b, l, a)]) (hp : p a = true) :
    dropAfter k p = { k with ctx := { k.ctx with after := [] } } := by
  simp [dropAfter, hafter, hp]

/-- The core whose word waits for the invalidation that its effect `a` began. -/
def invWaiting (s : State) (c : CoreId) (m : Slot) (a : After) : Core :=
  { wordWaiting (getCore s c.val) .waitLong (regsLeaving s c m a) with invWait := true }

/-- TLB_INV_DONE with no walk under way and no access left that an invalidation found goes on with the word that waits. -/
theorem tlbInvDone_goesOn {c : CoreId} {s : State} {k : Core} (hmode : k.mode = .waitLong) (hinv : k.invWait = true)
    (hwalks : ∀ j, (getCore s j).walk.isNone = true) (hwalk : k.walk.isNone = true) (hold : oldDone s = true) (hgone : oldGone k = true) :
    exec (.tlbInvDone c) (setCore s c.val k) = .next (endWord (setCore s c.val { dropAfter k isTlbInv with invWait := false }) c.val) := by
  have hwalks' := allWalksOver_iff.mpr (forall_core_setCore (p := fun k => k.walk.isNone = true) hwalks c.val hwalk)
  have hold' := oldDone_iff.mpr (forall_core_setCore (p := fun k => oldGone k = true) (oldDone_iff.mp hold) c.val hgone)
  show execTlbInvDone c (setCore s c.val k) = _
  simp only [execTlbInvDone, getCore_setCore, hmode, hinv, hwalks', hold', ne_eq, not_true_eq_false, if_false, if_true, and_self, updCore_setCore]

/-- TLB_INV_DONE ends the TLB_INV word whose invalidation nothing is left of. -/
theorem tlbInvDone_completes {c : CoreId} {s : State} {a : After} (m : Slot) (hs : Straight (getCore s c.val)) (hsafe : s.flt.safe = false)
    (hwalks : ∀ j, (getCore s j).walk.isNone = true) (hold : oldDone s = true) (hidle : (getCore s c.val).invWait = false) (hop : isTlbInv a = true) :
    exec (.tlbInvDone c) (setCore s c.val (invWaiting s c m a)) = .next (setCore s c.val (wordOver (getCore s c.val) (regsOf s c))) := by
  have hsame : ({ getCore s c.val with invWait := false } : Core) = getCore s c.val := by rw [← hidle]
  have hleft : ({ dropAfter (invWaiting s c m a) isTlbInv with invWait := false } : Core) = wordWaiting (getCore s c.val) .waitLong (regsOf s c) := by
    rw [dropAfter_only (k := invWaiting s c m a) rfl hop]
    exact congrArg (fun k => wordWaiting k .waitLong (regsOf s c)) hsame
  rw [tlbInvDone_goesOn (k := invWaiting s c m a) rfl rfl hwalks (hwalks c.val) hold (oldDone_iff.mp hold c.val), hleft,
    endWord_waited (x := regsOf s c) .waitLong hs hsafe rfl rfl hs.noFlights hs.noRepeat]

/-! ### WALK_COMPLETE of a fetch (R225) -/

theorem trimQueue_unfetched {k : Core} (h : k.fq = []) : trimQueue k = k := by
  unfold trimQueue
  rw [h]

/-- The walk of a fetch that is certain to be on the path installs its entry. -/
theorem walkComplete_fetch {c : CoreId} {s : State} {w : Walk} {t : TlbEntry} {q : Wk} (hwalk : (getCore s c.val).walk = some w) (hfetch : w.fetch = true)
    (hdq : (getCore s c.val).dq = []) (hfq : (getCore s c.val).fq = [])
    (hfor : walkFor s c.val (getCore s c.val).level.toNat w.va.toNat .fetch false false = (q, .ok t)) :
    exec (.walkComplete c) s = .next (updCore q.s c.val (fun k => { k with walk := none, tlb := installTlb { t with spec := false } q.tlb })) := by
  have hpath : onPath (getCore s c.val) = true := by simp [onPath, hdq, hfq]
  show execWalkComplete c s = _
  simp only [execWalkComplete, hwalk, hfetch, if_true, fetchWalk, trimQueue_unfetched hfq, hpath, Bool.not_true, hfor]

/-! ### STORE_BUFFER_DRAIN (R240, R247) -/

/-- The transaction that carries a device or NORMAL_NC store from the store buffer of core `c`. -/
def drainTxn (s : State) (c : CoreId) (e : SbEntry) : Txn :=
  { init := coreInit c.val, level := e.level, cell := e.cell, stream := if e.mt = 0 then 2 else 1, kind := .write, addr := e.pa, size := e.data.length
    data := e.data, purpose := .store c.val, va := e.va, id := s.fab.nextId, issued := s.now }

section
variable {c : CoreId} {s : State} {e : SbEntry} (honly : (getCore s c.val).sbuf = [e]) (hdrains : mayDrain s c.val 0 = true)
include honly hdrains

/-- The only entry of the buffer drains by itself, whatever it is linked with. -/
theorem storeBufferDrain_only : exec (.storeBufferDrain c 0) s =
    .next (if e.mt ≤ 1 then sendEntries s c.val 0 1 e e.data else drainCached s c.val 0 1 e e.data) := by
  show execStoreBufferDrain c 0 s = _
  simp only [execStoreBufferDrain, drainEntry, hdrains, honly, List.drop_zero, Bool.not_true, Bool.false_eq_true, if_false]
  cases e.linked <;> rfl

theorem storeBufferDrain_sends (hmt : e.mt ≤ 1) : exec (.storeBufferDrain c 0) s =
    .next (setCore { s with fab := { s.fab with waiting := s.fab.waiting ++ [drainTxn s c e], nextId := s.fab.nextId + 1 } } c.val
      { getCore s c.val with sbuf := [{ e with sent := true }] }) := by
  have hmark : markSent (getCore s c.val) 0 1 = { getCore s c.val with sbuf := [{ e with sent := true }] } := by
    unfold markSent
    rw [honly]
    rfl
  have hstream : (if e.mt = 0 then 2 else if e.mt = 1 then 1 else 0 : BitVec 4) = if e.mt = 0 then 2 else 1 := by
    split
    · rfl
    · exact if_pos (by omega)
  rw [storeBufferDrain_only honly hdrains, if_pos hmt, ← hmark]
  simp only [sendEntries, hstream]
  rfl

/-- An entry of a line held writable, on pages that no lock turns away, is written and leaves the buffer. -/
theorem storeBufferDrain_writes (hmt : 2 ≤ e.mt) (hopen : pageLocked s e.pa e.data.length = false) (hexcl : hasExcl (getCore s c.val) (e.pa / 64) = true) :
    exec (.storeBufferDrain c 0) s =
      .next (updCore (writeL1 (l1Install s c.val (e.pa / 64) true) c.val e.pa e.data) c.val (fun k => removeEntries k 0 1)) := by
  rw [storeBufferDrain_only honly hdrains, if_neg (by omega)]
  simp only [drainCached, hopen, hexcl, Bool.false_eq_true, if_false, if_true]

end

theorem unlocked_of_refusedAt {s : State} {pa n : Nat} (h : refusedAt s pa n = none) : pageLocked s pa n = false := by
  unfold refusedAt at h
  split at h
  · cases h
  · split at h
    · cases h
    · next hopen => exact Bool.eq_false_iff.mpr hopen

theorem hasLine_of_hasExcl {k : Core} {line : Nat} (h : hasExcl k line = true) : hasLine k line = true := by
  obtain ⟨l, hl, hline⟩ := List.any_eq_true.mp h
  exact List.any_eq_true.mpr ⟨l, hl, (Bool.and_eq_true_iff.mp hline).1⟩

/-- A line that L1 holds takes no other line's place. -/
theorem l1Install_held {s : State} {c line : Nat} (hheld : hasLine (getCore s c) line = true) (excl : Bool) :
    ∃ ls, l1Install s c line excl = setCore s c { getCore s c with l1d := ls } := by
  unfold hasLine at hheld
  simp only [l1Install, hheld, true_or, if_true]
  exact ⟨_, rfl⟩

theorem sbuf_putMem (s : State) (pa : Nat) (bs : List Byte) (c : Nat) : (getCore (putMem s pa bs) c).sbuf = (getCore s c).sbuf := by
  unfold putMem
  split
  · rfl
  · refine look_map_keeps (p := Core.sbuf) _ c ?_ (fun e => ?_) s.cores
    · exact fun _ => rfl
    · dsimp only
      split
      · split <;> rfl
      · rfl

theorem sbuf_writeL1 (s : State) (c pa : Nat) (bs : List Byte) : (getCore (writeL1 s c pa bs) c).sbuf = (getCore s c).sbuf := by
  simp only [writeL1, performBy, getCore_updCore]
  exact sbuf_putMem s pa bs c

/-- The only entry of the buffer, written to a line held writable, leaves it empty; its bytes, and no other, change. -/
theorem storeBufferDrain_performs {c : CoreId} {s : State} {e : SbEntry} (honly : (getCore s c.val).sbuf = [e]) (hdrains : mayDrain s c.val 0 = true)
    (hmt : 2 ≤ e.mt) (hopen : pageLocked s e.pa e.data.length = false) (hexcl : hasExcl (getCore s c.val) (e.pa / 64) = true) :
    ∃ u, exec (.storeBufferDrain c 0) s = .next u ∧ (getCore u c.val).sbuf = [] ∧
      (Memory.wf s.mem = true → ∀ x, rdByte u x = if e.pa ≤ x ∧ x < e.pa + e.data.length then e.data.getD (x - e.pa) 0 else rdByte s x) := by
  refine ⟨_, storeBufferDrain_writes honly hdrains hmt hopen hexcl, ?_, fun hwf x => ?_⟩
  all_goals obtain ⟨ls, hinstall⟩ := l1Install_held (hasLine_of_hasExcl hexcl) true
  · rw [getCore_updCore, removeEntries, sbuf_writeL1, hinstall, getCore_setCore, honly]
    rfl
  · rw [hinstall]
    exact rdByte_putMem (s := setCore s c.val { getCore s c.val with l1d := ls }) e.pa x e.data hwf hopen

/-! ### DCACHE_FILL_ARRIVAL (R152, R259) -/

theorem fillLine_S {c : Nat} (s : State) (cell : Option CellId) (line : Nat) (excl : Bool) (hS : isS c = true) :
    fillLine s c cell line excl = l1Install s c line true :=
  if_pos hS

theorem l1Install_empty {s : State} {c : Nat} (line : Nat) (excl : Bool) (hempty : (getCore s c).l1d = []) :
    l1Install s c line excl = setCore s c { getCore s c with l1d := [{ line := line, excl := excl }] } := by
  simp [l1Install, updCore, hempty]

/-- A line that comes to an S-core with an empty L1 is held writable there. -/
theorem installFill_S {s : State} {c : Nat} {f : Fill} (hS : isS c = true) (hempty : (getCore s c).l1d = []) :
    installFill s c f = setCore s c { getCore s c with fills := (getCore s c).fills.erase f, l1d := [{ line := f.line, excl := true }] } := by
  have hheld : hasLine { getCore s c with l1d := [{ line := f.line, excl := true }] } f.line = true := by simp [hasLine]
  simp only [installFill, fillLine_S _ _ _ _ hS, l1Install_empty _ _ hempty, getCore_setCore, hheld, if_true, updCore_setCore]

/-- The line that an S-core's one fill brings is installed, and a core that waits for no memory does nothing more. -/
theorem dcacheFillArrival_installs {c : CoreId} {s : State} {line : Nat} (hS : isS c.val = true) (hrun : (getCore s c.val).mode = .run)
    (hfills : (getCore s c.val).fills = [{ line := line }]) (hempty : (getCore s c.val).l1d = []) :
    exec (.dcacheFillArrival c) s = .next (setCore s c.val { getCore s c.val with fills := [], l1d := [{ line := line, excl := true }] }) := by
  have hdata : (getCore s c.val).fills.all (fun f => f.fetch) = false := by simp [hfills]
  have hcome : (getCore s c.val).fills.find? (fun f => !f.fetch && fillReady f) = some { line := line } := by simp [hfills, fillReady]
  have hgone : (getCore s c.val).fills.erase { line := line } = [] := by simp [hfills]
  have hmode : (getCore s c.val).mode ≠ .waitLsu := by simp [hrun]
  show execDcacheFillArrival c s = _
  simp only [execDcacheFillArrival, hdata, hcome, hmode, Bool.false_eq_true, if_false, installFill_S hS hempty, hgone]

/-! ### DEVICE_LOAD_ANSWER (R119, R152, R158) -/

theorem leNat_lt (d : List Byte) : leNat d < 2 ^ (8 * d.length) := by
  induction d with
  | nil => exact Nat.one_pos
  | cons b d ih =>
    have hb : b.toNat < 256 := b.isLt
    rw [leNat, List.length_cons, Nat.mul_succ, Nat.pow_add]
    omega

/-- The effect that an access leaves for the end of its word. -/
def Lsu.left (a : Lsu) : After := .lsu a.op a.o a.v a.p a.ext

theorem gathers_ld {a : Lsu} (hop : a.op = .ld) : a.gathers = false := by simp [Lsu.gathers, hop]

theorem laneCount_ld {a : Lsu} (hop : a.op = .ld) : a.laneCount = 1 := by simp [Lsu.laneCount, gathers_ld hop]

theorem size_ld {a : Lsu} (hop : a.op = .ld) : a.size = if a.ext.toNat / 8 = 1 then 32 else 2 ^ (a.ext.toNat % 4) := by
  have hvariant : fld (a.ext.setWidth 64) 4 3 = a.ext.toNat / 8 := by
    have hext : a.ext.toNat < 32 := a.ext.isLt
    simp only [fld, BitVec.toNat_setWidth, Nat.shiftRight_eq_div_pow]
    omega
  simp only [Lsu.size, gathers_ld hop, hvariant, Bool.false_eq_true, if_false]

/-- The bytes of a scalar with its top bit set, sign-extended to 64 bits (R119). -/
theorem signExtended_eq {w x : Nat} (hw : 0 < w) (hw64 : w < 64) (hx : x < 2 ^ w) (htop : 2 ^ (w - 1) ≤ x) :
    (BitVec.ofInt 64 (BitVec.ofNat w x).toInt).setWidth 256 = BitVec.ofNat 256 (x + 2 ^ 64 - 2 ^ w) := by
  have hhalf : 2 ^ w = 2 * 2 ^ (w - 1) := by rw [← Nat.pow_succ', Nat.succ_eq_add_one, Nat.sub_add_cancel hw]
  have hle : 2 ^ w < 2 ^ 64 := Nat.pow_lt_pow_right (by decide) hw64
  have htoNat : (BitVec.ofNat w x).toNat = x := by rw [BitVec.toNat_ofNat, Nat.mod_eq_of_lt hx]
  have htoInt : (BitVec.ofNat w x).toInt = (x : Int) - (2 ^ w : Nat) := by
    rw [BitVec.toInt_eq_toNat_cond, htoNat, if_neg (by omega)]
  refine BitVec.eq_of_toNat_eq ?_
  rw [htoInt, BitVec.toNat_setWidth, BitVec.toNat_ofInt, BitVec.toNat_ofNat]
  generalize 2 ^ w = p at *
  omega

/-- The value that a load brings to Q from as many bytes as it asked for. -/
theorem loadVal_eq_extended {a : Lsu} {d : List Byte} {n : Nat} (hop : a.op = .ld) (hsize : a.size = n) (hlen : d.length = n) :
    loadVal a d = extended n (a.ext.getLsbD 2) d := by
  have hlt : leNat d < 2 ^ (8 * n) := hlen ▸ leNat_lt d
  have hpos : 0 < n := by
    rw [← hsize, size_ld hop]
    split
    · decide
    · exact Nat.two_pow_pos _
  have hhalf : 2 ^ (8 * n) = 2 * 2 ^ (8 * n - 1) := by rw [← Nat.pow_succ', Nat.succ_eq_add_one, Nat.sub_add_cancel (by omega)]
  have htop : leNat d / 2 ^ (8 * n - 1) % 2 = 1 ↔ 2 ^ (8 * n - 1) ≤ leNat d := by
    have hquot : leNat d / 2 ^ (8 * n - 1) < 2 := Nat.div_lt_of_lt_mul (by omega)
    rw [Nat.mod_eq_of_lt hquot, ← Nat.one_le_div_iff (Nat.two_pow_pos _)]
    omega
  have hmsb : (BitVec.ofNat (8 * n) (leNat d)).msb = decide (2 ^ (8 * n - 1) ≤ leNat d) := by
    rw [BitVec.msb_eq_decide, BitVec.toNat_ofNat, Nat.mod_eq_of_lt hlt]
  simp only [loadVal, extended, hsize, htop, hmsb, gathers_ld hop, Bool.and_eq_true, decide_eq_true_eq, Bool.not_false, true_and, and_assoc]
  split
  · next h => exact (signExtended_eq (by omega) (by omega) hlt h.2.2).symm
  · rfl

/-- A core whose answer has been taken for its word. -/
def answerTaken (k : Core) : Core := { k with rdTxn := none, rdAns := none, rdInv := false, rdParts := [] }

/-- The one device access of a load takes the answer that has come, and the load is done. -/
theorem doLoad_answered {s : State} {c : Nat} {k : Core} {a : Lsu} {txn : Txn} {st : BitVec 3} {d : List Byte} {va : Word} {n pa mt : Nat}
    (hop : a.op = .ld) (hacc : checkAcc (setCore s c k) c a false 0 = .ok [(va, n, pa, mt)]) (hdev : effType c pa mt = 0)
    (htxn : k.rdTxn = some txn) (hans : k.rdAns = some (st, d)) (hparts : k.rdParts = []) :
    doLoad (setCore s c k) c a = .done (setCore s c (answerTaken k)) (some (loadVal a d, if st = 0 then none else some (a.addr 0))) := by
  have htake : takeAns (setCore s c k) c = some (setCore s c { k with rdTxn := none, rdAns := none, rdInv := false }, (st, d)) := by
    simp only [takeAns, getCore_setCore, htxn, hans, updCore_setCore]
  have hpiece : readPiece (setCore s c k) c a va n pa mt = .done (setCore s c { k with rdTxn := none, rdAns := none, rdInv := false }) (st, d) := by
    simp only [readPiece, hdev, if_true, htake]
  have hread : readPieces (setCore s c k) c a [(va, n, pa, mt)] =
      .done (setCore s c { k with rdTxn := none, rdAns := none, rdInv := false, rdParts := [(st, d)] }) (stOK, []) := by
    simp only [readPieces, hpiece, updCore_setCore, hparts, List.nil_append]
  have hbad : (if partsPoison [(st, d)] = true then some (a.addr 0) else none) = if st = 0 then none else some (a.addr 0) := by
    by_cases hst : st = 0#3 <;> simp [partsPoison, stOK, hst]
  have hlr : a.op ≠ .lr := by simp [hop]
  simp only [doLoad, laneCount_ld hop, loadLanes, gathers_ld hop, Bool.false_eq_true, if_false, hacc, getCore_setCore, hparts, List.length_nil,
    Nat.sub_self, List.drop_zero, hread, List.flatMap_cons, List.flatMap_nil, List.append_nil, hbad, hlr, updCore_setCore]
  rfl

/-- A load whose access passes its checks is made at the end of its word. -/
theorem endWord_load {s u : State} {c : Nat} {k : Core} {a : Lsu} {ps : List (Word × Nat × Nat × Nat)} {q : VWord × Option Word}
    (hafter : k.ctx.after = [(a.slotB, a.long, a.left)]) (hfaults : k.ctx.faults = []) (hflights : k.ctx.flights = [])
    (hop : a.op = .ld) (hacc : checkAcc (setCore s c k) c a false 0 = .ok ps) (hload : doLoad (setCore s c k) c a = .done u (some q)) :
    endWord (setCore s c k) c = commit (updCore u c (fun k => afterLsu k a (some q))) c := by
  rw [Lsu.left] at hafter
  have hlsu : lsuOf k = some a := by simp [lsuOf, hafter]
  have hlong : longLeft k.ctx = false := by simp [longLeft, longUnit, hafter, hflights]
  have hexc : afterExc (setCore s c k) c (a.slotB, a.long, .lsu a.op a.o a.v a.p a.ext) = none := afterExc_past _ _ _ _ rfl
  have hlanes : checkLanes (setCore s c k) c a a.laneCount 0 = .ok [] := by
    simp [laneCount_ld hop, gathers_ld hop, checkLanes, hacc]
  have hrun : runLsu (setCore s c k) c a = .done u (some q) := by simpa only [runLsu, hop] using hload
  unfold endWord
  simp only [getCore_setCore, hlsu, hafter, hfaults, hlong, hexc, hlanes, List.nil_append, List.filterMap_cons, List.filterMap_nil, List.all_nil, firstExc,
    List.any_cons, List.any_nil, List.find?_cons, List.find?_nil, isTlbInv, List.findSome?_cons, List.findSome?_nil, Bool.or_self,
    Bool.false_eq_true, false_and, if_true, if_false]
  simp only [endWord.commitLsu, getCore_setCore, hlsu, hrun]

theorem trimQueue_answerTaken (k : Core) : trimQueue (answerTaken k) = answerTaken (trimQueue k) := by
  have hnext : nextDecode (answerTaken k) = nextDecode k := rfl
  cases hfq : k.fq with
  | nil => rw [trimQueue_unfetched hfq, trimQueue_unfetched (k := answerTaken k) hfq]
  | cons w ws =>
    have hfq' : (answerTaken k).fq = w :: ws := hfq
    simp only [trimQueue, hfq, hfq', hnext]
    split <;> rfl

/-- The end of a word does not look at an answer that has been taken. -/
theorem wordOver_answerTaken (k : Core) (x : Ctx) : wordOver (answerTaken k) x = answerTaken (wordOver k x) := by
  have hdq : (answerTaken k).dq = k.dq := rfl
  unfold wordOver
  rw [hdq]
  split
  · exact congrArg wordClosed (trimQueue_answerTaken { k with ctx := { opened x with mprog := none }, pc := k.pc + 8, fetchPc := k.pc + 8, decRep := false })
  · rfl

theorem answerTaken_wordOver (k : Core) (x : Ctx) : answerTaken (wordOver k x) = { wordOver k x with rdTxn := none, rdAns := none, rdInv := false } := by
  unfold wordOver
  split <;> rfl

theorem straight_answerTaken {k : Core} (hs : Straight k) : Straight (answerTaken k) :=
  { runs := hs.runs, noExc := hs.noExc, between := hs.between, noFlights := hs.noFlights, noTraps := hs.noTraps, noPoison := hs.noPoison
    noGroups := hs.noGroups, noRepeat := hs.noRepeat, noSpec := hs.noSpec, noStep := hs.noStep, queue := hs.queue }

/-- The core whose load waits with its answer at hand. -/
def loadWaiting (s : State) (c : CoreId) (m : Slot) (op : LsuOp) (txn : Txn) (st : BitVec 3) (d : List Byte) : Core :=
  { wordWaiting (getCore s c.val) .waitLsu (regsLeaving s c m (lsuAt s c m op).left) with rdTxn := some txn, rdAns := some (st, d) }

/-- What a load of `n` bytes that the answer brought sets in flight to Q: marked as poison unless the status is OK. -/
def loadFlight (a : Lsu) (n : Nat) (st : BitVec 3) (d : List Byte) : Flight :=
  { unit := 224, q := extended n (a.ext.getLsbD 2) d, poison := if st = 0 then none else some (a.addr 0) }

theorem afterLsu_ld {k : Core} {a : Lsu} (q : VWord × Option Word) (hop : a.op = .ld) (hflights : k.ctx.flights = []) :
    afterLsu k a (some q) = { k with ctx := { k.ctx with flights := [{ unit := 224, q := q.1, poison := q.2 }] } } := by
  simp [afterLsu, hop, gathers_ld hop, hflights]

/-- The registers at the end of a load's word, its effect still listed. -/
def regsLoaded (s : State) (c : CoreId) (m : Slot) (n : Nat) (st : BitVec 3) (d : List Byte) : Ctx :=
  { regsLeaving s c m (lsuAt s c m .ld).left with flights := [loadFlight (lsuAt s c m .ld) n st d] }

/-- DEVICE_LOAD_ANSWER with the answer of a word's one device access ends the word with the value in flight. -/
theorem deviceLoadAnswer_completes {c : CoreId} {m : Slot} {s : State} {txn : Txn} {st : BitVec 3} {d : List Byte} {va : Word} {n pa mt : Nat}
    (hs : Straight (getCore s c.val)) (hsafe : s.flt.safe = false) (hparts : (getCore s c.val).rdParts = []) (hsize : (lsuAt s c m .ld).size = n)
    (hacc : checkAcc (setCore s c.val (loadWaiting s c m .ld txn st d)) c.val (lsuAt s c m .ld) false 0 = .ok [(va, n, pa, mt)])
    (hdev : effType c.val pa mt = 0) (hlen : d.length = n) :
    exec (.deviceLoadAnswer c) (setCore s c.val (loadWaiting s c m .ld txn st d)) =
      .next (setCore s c.val (answerTaken (wordOver (getCore s c.val) { regsOf s c with flights := [loadFlight (lsuAt s c m .ld) n st d] }))) := by
  have htried : exec (.deviceLoadAnswer c) (setCore s c.val (loadWaiting s c m .ld txn st d)) =
      .next (endWord (setCore s c.val (loadWaiting s c m .ld txn st d)) c.val) :=
    congrArg Host.Outcome.next (if_pos (by rw [getCore_setCore]; rfl))
  have hload := doLoad_answered (k := loadWaiting s c m .ld txn st d) rfl hacc hdev rfl rfl hparts
  rw [loadVal_eq_extended rfl hsize hlen] at hload
  have hleft : afterLsu (answerTaken (loadWaiting s c m .ld txn st d)) (lsuAt s c m .ld)
      (some (extended n (m.ext.getLsbD 2) d, if st = 0 then none else some ((lsuAt s c m .ld).addr 0))) =
        wordWaiting (answerTaken (getCore s c.val)) .waitLsu (regsLoaded s c m n st d) := by
    rw [afterLsu_ld (k := answerTaken (loadWaiting s c m .ld txn st d)) _ rfl (show (getCore s c.val).ctx.flights = [] from hs.noFlights)]
    rfl
  rw [htried, endWord_load (k := loadWaiting s c m .ld txn st d) rfl rfl hs.noFlights rfl hacc hload, updCore_setCore]
  refine congrArg Host.Outcome.next ((congrArg (fun k => commit (setCore s c.val k) c.val) hleft).trans ?_)
  rw [commit_waited (x := regsLoaded s c m n st d) .waitLsu (straight_answerTaken hs) hsafe rfl rfl hs.noRepeat, wordOver_answerTaken,
    wordOver_congr (x := regsLoaded s c m n st d) (y := { regsOf s c with flights := [loadFlight (lsuAt s c m .ld) n st d] }) rfl]

/-- Settles O30: each arrival by what it finds done, and the word that waits for it by its end. -/
theorem arrivalsCompleteWaitingWords : Obligations.ArrivalsCompleteWaitingWords := by
  unfold Obligations.ArrivalsCompleteWaitingWords
  refine ⟨?_, fun c m s hs hsafe _ hempty hopen => barrierWaitEnd_completes m hs hsafe hempty hopen, ?_,
    fun c s w t q hwalk hfetch hdq hfq hfor => ?_, fun c s e honly hdrains => ⟨fun hmt => ?_, fun hmt hopen hexcl => ?_⟩,
    fun c s line => dcacheFillArrival_installs⟩
  · intro c m s op txn st d va n pa mt hs hsafe _ hop hparts k a w hn hacc hdev hlen
    subst hop
    refine (deviceLoadAnswer_completes hs hsafe hparts ((size_ld rfl).trans hn.symm) hacc hdev hlen).trans ?_
    rw [answerTaken_wordOver]
    simp only [getCore_setCore, setCore_setCore]
    rfl
  · intro c m s v hs hsafe _ hwalks hwalk hidle hold hlow hhigh _
    refine tlbInvDone_completes m hs hsafe (forall_core_of_listed (p := fun k => k.walk.isNone = true) rfl fun j hj => ?_) hold hidle ?_
    · rw [hwalks j hj]
      rfl
    · simp [isTlbInv, hlow, hhigh]
  · refine ⟨_, walkComplete_fetch hwalk hfetch hdq hfq hfor, rfl, ?_⟩
    simp only [getCore_updCore, true_and]
  · exact ⟨drainTxn s c e, rfl, rfl, rfl, rfl, rfl, rfl, rfl, storeBufferDrain_sends honly hdrains hmt⟩
  · exact storeBufferDrain_performs honly hdrains hmt (unlocked_of_refusedAt hopen) hexcl

end Sys2Proof.Machine
end

section
/-! Settles O28 (delivery and entry: 08_privilege_and_exceptions.md R174 to R179, R186). The layers: the levels that delivery
looks through; the save set that entry fills, field by field; entry of a core with nothing to wait for, said once for exceptions
and interrupts; then what each command finds to enter. -/
namespace Sys2Proof.Machine

/-! ### Levels and their descriptors (R174, R175, R177) -/

theorem mem_levelsFrom {t l : Nat} : l ∈ levelsFrom t ↔ (1 ≤ l ∧ l ≤ 3) ∧ t ≤ l := by
  simp only [levelsFrom, List.mem_filter, List.mem_cons, List.not_mem_nil, or_false, decide_eq_true_eq]
  omega

theorem levelsFrom_cons {t : Nat} (hlow : 1 ≤ t) (hhigh : t ≤ 3) : levelsFrom t = t :: levelsFrom (t + 1) := by
  obtain rfl | rfl | rfl : t = 1 ∨ t = 2 ∨ t = 3 := by omega
  all_goals rfl

section
variable {s : State} {c cls : Nat} {d : Desc} {l esc : Nat} {ls : List Nat} {passed : Bool}

/-- A level with a valid descriptor and a free save set takes the exception. -/
theorem deliverSync_here (hdesc : descOf s c l cls = some d) (hfree : (saveSet (getCore s c) l).valid = false) :
    deliverSync s c cls none (l :: ls) passed esc = some { level := l, desc := d, passed := passed, escFrom := esc } := by
  simp [deliverSync, hdesc, hfree]

/-- A level without a descriptor passes the exception on. -/
theorem deliverSync_pass (hnone : descOf s c l cls = none) :
    deliverSync s c cls none (l :: ls) passed esc = deliverSync s c cls none ls true esc := by
  simp only [deliverSync, hnone]

/-- Delivery finds no level where each lacks a descriptor or has its save set in use. -/
theorem deliverSync_none (h : ∀ l ∈ ls, descOf s c l cls = none ∨ (saveSet (getCore s c) l).valid = true) :
    deliverSync s c cls none ls passed esc = none := by
  induction ls generalizing passed esc with
  | nil => rfl
  | cons l ls ih =>
    have hrest := fun passed esc => ih (passed := passed) (esc := esc) fun j hj => h j (List.mem_cons_of_mem l hj)
    cases hdesc : descOf s c l cls with
    | none => rw [deliverSync_pass hdesc, hrest]
    | some d =>
      have hused : (saveSet (getCore s c) l).valid = true := (h l List.mem_cons_self).resolve_left (by simp [hdesc])
      simp [deliverSync, hdesc, hused, hrest]

end

/-- The lowest level from `b` upward that has a descriptor is the first that a search finds. -/
theorem findSome_levelsFrom {f : Nat → Option Desc} {b l : Nat} {d : Desc} (hb : b ≤ l) (hlow : 1 ≤ l) (hhigh : l ≤ 3) (hdesc : f l = some d)
    (hbelow : ∀ j, 1 ≤ j → b ≤ j → j < l → f j = none) : (levelsFrom b).findSome? (fun j => (f j).map (fun d => (j, d))) = some (l, d) := by
  induction hn : l - b generalizing b with
  | zero =>
    obtain rfl : b = l := by omega
    simp [levelsFrom_cons hlow hhigh, hdesc]
  | succ n ih =>
    have hrest := ih (b := b + 1) (by omega) (fun j h1 hj => hbelow j h1 (by omega)) (by omega)
    rcases Nat.eq_zero_or_pos b with rfl | hpos
    · exact hrest
    · simp [levelsFrom_cons hpos (by omega), hbelow b hpos le_rfl (by omega), hrest]

/-! ### Save sets (R178, R186) -/

/-- Save sets are numbered from 1, and number 0 names the third as well. -/
theorem saveSet_setSaveSet (k : Core) {l j : Nat} (x : SaveSet) (hl : l ≤ 3) (hlow : 1 ≤ j) (hhigh : j ≤ 3) :
    saveSet (setSaveSet k l x) j = if j = l ∨ (l = 0 ∧ j = 3) then x else saveSet k j := by
  obtain rfl | rfl | rfl | rfl : l = 0 ∨ l = 1 ∨ l = 2 ∨ l = 3 := by omega
  all_goals
    obtain rfl | rfl | rfl : j = 1 ∨ j = 2 ∨ j = 3 := by omega
    all_goals rfl

theorem saveSet_congr {k k' : Core} (h1 : k'.sr1 = k.sr1) (h2 : k'.sr2 = k.sr2) (h3 : k'.sr3 = k.sr3) (j : Nat) : saveSet k' j = saveSet k j := by
  unfold saveSet
  split
  · exact h1
  · exact h2
  · exact h3

theorem setSaveSet_eq (k : Core) (l : Nat) (x : SaveSet) :
    setSaveSet k l x = { k with sr1 := (setSaveSet k l x).sr1, sr2 := (setSaveSet k l x).sr2, sr3 := (setSaveSet k l x).sr3 } := by
  unfold setSaveSet
  split <;> rfl

@[simp] theorem setSaveSet_spec (k : Core) (l : Nat) (x : SaveSet) : (setSaveSet k l x).spec = k.spec := by rw [setSaveSet_eq]
@[simp] theorem setSaveSet_irqs (k : Core) (l : Nat) (x : SaveSet) : (setSaveSet k l x).irqs = k.irqs := by rw [setSaveSet_eq]
@[simp] theorem setSaveSet_mode (k : Core) (l : Nat) (x : SaveSet) : (setSaveSet k l x).mode = k.mode := by rw [setSaveSet_eq]
@[simp] theorem setSaveSet_exc (k : Core) (l : Nat) (x : SaveSet) : (setSaveSet k l x).exc = k.exc := by rw [setSaveSet_eq]
@[simp] theorem setSaveSet_pre (k : Core) (l : Nat) (x : SaveSet) : (setSaveSet k l x).pre = k.pre := by rw [setSaveSet_eq]
@[simp] theorem setSaveSet_task (k : Core) (l : Nat) (x : SaveSet) : (setSaveSet k l x).task = k.task := by rw [setSaveSet_eq]
@[simp] theorem setSaveSet_preempt (k : Core) (l : Nat) (x : SaveSet) : (setSaveSet k l x).preempt = k.preempt := by rw [setSaveSet_eq]
@[simp] theorem setSaveSet_stepOne (k : Core) (l : Nat) (x : SaveSet) : (setSaveSet k l x).stepOne = k.stepOne := by rw [setSaveSet_eq]

/-- The mask of entry keeps the low four bits of CUR_STATUS and the cell. -/
theorem masked_low (w : Word) : (w &&& 0xFFF000F).toNat % 16 = w.toNat % 16 := by
  rw [BitVec.toNat_and, show (16 : Nat) = 2 ^ 4 from rfl, Nat.and_mod_two_pow]
  exact (Nat.and_two_pow_sub_one_eq_mod _ 4).trans (Nat.mod_mod _ _)

theorem masked_cell (w : Word) : (w &&& 0xFFF000F).toNat / 65536 = w.toNat / 65536 % 4096 := by
  rw [BitVec.toNat_and, show (65536 : Nat) = 2 ^ 16 from rfl, Nat.and_div_two_pow]
  exact Nat.and_two_pow_sub_one_eq_mod _ 12

theorem curStatus_toNat (c : Nat) (k : Core) : (curStatus c k).toNat =
    (k.window.toNat * 2 ^ 32 + (if isS c then 0 else k.cell.getD 0) * 65536 + (if k.ctx.rep then 8 else 0) + (if k.window = 0 then 4 else 0) + k.level.toNat) % 2 ^ 64 := by
  simp only [curStatus, at', b2n, BitVec.toNat_ofNat, Nat.shiftLeft_eq, decide_eq_true_eq, ite_mul, Nat.zero_mul, Nat.one_mul]

theorem curStatus_low (c : Nat) (k : Core) :
    (curStatus c k &&& 0xFFF000F).toNat % 16 = k.level.toNat + (if k.window = 0 then 4 else 0) + (if k.ctx.rep then 8 else 0) := by
  have hlevel : k.level.toNat < 4 := k.level.isLt
  rw [masked_low, curStatus_toNat]
  split <;> split <;> split <;> omega

theorem curStatus_cell (c : Nat) (k : Core) :
    (curStatus c k &&& 0xFFF000F).toNat / 65536 = if isS c then 0 else k.cell.getD 0 % 4096 := by
  have hlevel : k.level.toNat < 4 := k.level.isLt
  rw [masked_cell, curStatus_toNat]
  split <;> split <;> split <;> omega

/-- SYNDROME without an escalation, by its fields. -/
theorem syndromeOf_toNat (e : Exc) (passed : Bool) : (syndromeOf e passed 0).toNat =
    (if e.slotB then 1 else 0) + (if e.long then 2 else 0) + (if passed then 16 else 0) + e.fields.toNat * 256 + e.detail.toNat * 2 ^ 32 := by
  have hfields : e.fields.toNat < 2 ^ 24 := e.fields.isLt
  have hdetail : e.detail.toNat < 2 ^ 32 := e.detail.isLt
  simp only [syndromeOf, at', b2n, BitVec.toNat_ofNat, Nat.shiftLeft_eq, ite_mul, Nat.zero_mul, Nat.one_mul]
  split <;> split <;> split <;> omega

/-! ### Entry of a core with nothing to wait for (R178, R179) -/

theorem loadSp_loaded {s : State} {c : Nat} (hgroups : (getCore s c).ctx.pendGroups = 0) : loadSp s c = s := by
  simp [loadSp, hgroups]

theorem finishChk_free {k : Core} (h : k.chk = []) : finishChk k = k := by
  rw [finishChk, h, List.map_nil, ← h]

theorem drainFlights_nil {x : Ctx} (h : x.flights = []) : drainFlights x = x := settleAll_nil _ x h

/-- A core on which entry waits for no result, restore, feed or step. -/
structure Quiet (k : Core) : Prop where
  noFlights : k.ctx.flights = []
  noGroups : k.ctx.pendGroups = 0
  noFeeds : k.chk = []
  noStep : k.stepOne = false

/-- What entry saves (R178). -/
def savedSet (c : Nat) (k : Core) (e : Exc) (passed : Bool) : SaveSet :=
  { pc := e.pc, status := curStatus c k &&& 0xFFF000F, cls := BitVec.ofNat 64 e.cls, synd := syndromeOf e passed 0, addr := e.addr, sp := spOf c k.ctx,
    valid := true, mprog := match k.ctx.mprog with | some m => (m.setWidth 17) ||| 0x10000 | none => 0 }

/-- A core that has entered level `l` through descriptor `d`, with a window of `w` steps. -/
def entryCore (c : Nat) (k : Core) (e : Exc) (l : Nat) (d : Desc) (passed : Bool) (w : BitVec 10) : Core :=
  refetch (flushItt { setSaveSet k l (savedSet c k e passed) with
    ctx := { setSp c k.ctx d.sp with rep := false, mprog := none, after := [], faults := [] }
    pre := none, exc := none, resv := none, level := BitVec.ofNat 2 l, pc := d.handler, window := w, mode := .run, stepOne := false }) d.handler

theorem enterAt_quiet {s : State} {c : Nat} {e : Exc} (l : Nat) (d : Desc) (passed : Bool) (hq : Quiet (getCore s c)) (hsame : e.sameLevel = false) :
    enterAt s c e { level := l, desc := d, passed := passed, escFrom := 0 } =
      setCore s c (entryCore c (getCore s c) e l d passed (windowOf' s c l d.niw.toNat)) := by
  have hcore : finishChk { getCore s c with ctx := drainFlights (getCore s c).ctx } = getCore s c := by
    rw [drainFlights_nil hq.noFlights, finishChk_free hq.noFeeds]
  simp only [enterAt, loadSp_loaded hq.noGroups, updCore, hcore]
  simp only [hsame, hq.noStep, Bool.false_and, Bool.false_eq_true, if_false]
  rfl

theorem saveSet_entryCore (c : Nat) (k : Core) (e : Exc) {l j : Nat} (d : Desc) (passed : Bool) (w : BitVec 10) (hl : 1 ≤ l ∧ l ≤ 3) (hj : 1 ≤ j ∧ j ≤ 3) :
    saveSet (entryCore c k e l d passed w) j = if j = l then savedSet c k e passed else saveSet k j := by
  have hpos : l ≠ 0 := by omega
  refine (saveSet_congr (k := setSaveSet k l (savedSet c k e passed)) rfl rfl rfl j).trans ?_
  rw [saveSet_setSaveSet k _ hl.2 hj.1 hj.2]
  simp only [hpos, false_and, or_false]

/-- Entry saves and goes on as the rules say. -/
theorem entered_entryCore (s : State) (c : CoreId) (e : Exc) {l : Nat} (d : Desc) (passed : Bool) (w : BitVec 10) (hlow : 1 ≤ l) (hhigh : l ≤ 3) :
    entered s c e l d passed (entryCore c.val (getCore s c.val) e l d passed w) := by
  have hset : saveSet (entryCore c.val (getCore s c.val) e l d passed w) l = savedSet c.val (getCore s c.val) e passed := by
    rw [saveSet_entryCore c.val _ e d passed w ⟨hlow, hhigh⟩ ⟨hlow, hhigh⟩, if_pos rfl]
  have hspec : (entryCore c.val (getCore s c.val) e l d passed w).spec = (getCore s c.val).spec.filter (fun y => y.keep) :=
    congrArg (List.filter _) (setSaveSet_spec _ _ _)
  unfold entered
  simp only [hset]
  refine ⟨rfl, rfl, rfl, rfl, rfl, rfl, rfl, hspec, rfl, rfl, look_put_same _ _ _ _, fun r hr => look_put_other _ (Ne.symm hr) _ _, rfl, rfl, rfl, rfl, rfl, rfl,
    rfl, rfl, rfl, rfl, rfl, rfl, syndromeOf_toNat e passed, curStatus_low _ _, curStatus_cell _ _, fun j hj1 hj3 hne => ?_⟩
  rw [saveSet_entryCore c.val _ e d passed w ⟨hlow, hhigh⟩ ⟨hj1, hj3⟩, if_neg hne]

/-! ### EXCEPTION_ENTRY (R175, R176) -/

section
variable {c : CoreId} {s : State} {e : Exc} (hrun : (getCore s c.val).mode = .run) (hexc : (getCore s c.val).exc = some e)
include hrun hexc

theorem exceptionEntry_takes : exec (.exceptionEntry c) s = .next (takeSync s c.val e) := by
  have hpending : pendingExc (getCore s c.val) = some e := by simp only [pendingExc, hexc]
  have hexec : exec (.exceptionEntry c) s = execExceptionEntry c s := rfl
  simp [hexec, execExceptionEntry, hpending, hrun, hexc]

variable (hsame : e.sameLevel = false)
include hsame

/-- An exception that delivery takes to a level is entered there. -/
theorem exceptionEntry_enters {l : Nat} {d : Desc} {passed : Bool} (hq : Quiet (getCore s c.val)) (hlow : 1 ≤ l) (hhigh : l ≤ 3)
    (hdelivered : deliverSync s c.val e.cls none (levelsFrom (max (baseOn c.val e.base) (getCore s c.val).level.toNat)) false 0 =
      some { level := l, desc := d, passed := passed, escFrom := 0 }) :
    ∃ k', exec (.exceptionEntry c) s = .next (setCore s c.val k') ∧ entered s c e l d passed k' := by
  refine ⟨_, ?_, entered_entryCore s c e d passed (windowOf' s c.val l d.niw.toNat) hlow hhigh⟩
  rw [exceptionEntry_takes hrun hexc, ← enterAt_quiet l d passed hq hsame]
  simp only [takeSync, hsame, Bool.false_eq_true, if_false, hdelivered]

/-- An exception that no level takes locks the core up. -/
theorem exceptionEntry_locksUp
    (hnone : ∀ l, max (baseOn c.val e.base) (getCore s c.val).level.toNat ≤ l → l ≤ 3 →
      descOf s c.val l e.cls = none ∨ (saveSet (getCore s c.val) l).valid = true) :
    exec (.exceptionEntry c) s = .next (lockUp s c.val) := by
  have hlost := deliverSync_none (s := s) (c := c.val) (cls := e.cls) (passed := false) (esc := 0) fun l hl =>
    let ⟨hbounds, hle⟩ := mem_levelsFrom.mp hl
    hnone l hle hbounds.2
  rw [exceptionEntry_takes hrun hexc]
  simp only [takeSync, hsame, Bool.false_eq_true, if_false, hlost]

end

/-- The core that has locked up (R176). -/
theorem getCore_lockUp {s : State} {c : Nat} (hstep : (getCore s c).stepOne = false) :
    getCore (lockUp s c) c = { getCore s c with mode := .locked, resv := none, exc := none, pre := none, stopReq := false } := by
  have hraise : ∀ u m, getCore (raise u m) c = getCore u c := fun _ _ => rfl
  simp only [lockUp, hraise, getCore_updCore, hstep]

/-! ### INTERRUPT_TAKEN (R177) -/

/-- What a class held at a core is entered as. -/
def irqExc (k : Core) (i : Irq) : Exc := { cls := i.cls, base := i.base, detail := i.detail, pc := k.pc }

/-- A core between words whose one held class has been taken, its word given up. -/
def interruptedCore (k : Core) : Core :=
  { dropFailed k with irqs := [], pre := none, rdTxn := none, rdAns := none, rdInv := false, rdParts := [], walk := none, mode := .run }

/-- Nothing that entry saves is given up with the word. -/
theorem entered_of_interrupted {s : State} {c : CoreId} {e : Exc} {l : Nat} {d : Desc} {passed : Bool} {k' : Core}
    (h : entered (setCore s c.val (interruptedCore (getCore s c.val))) c e l d passed k') : entered s c e l d passed k' := by
  unfold entered at h
  rwa [getCore_setCore] at h

theorem asyncLevel_lowest {s : State} {c : Nat} {i : Irq} {l : Nat} {d : Desc} (hbase : baseOn c i.base ≤ l) (hlow : 1 ≤ l) (hhigh : l ≤ 3)
    (hdesc : descOf s c l i.cls = some d) (hbelow : ∀ j, 1 ≤ j → baseOn c i.base ≤ j → j < l → descOf s c j i.cls = none) :
    asyncLevel s c i = some (l, d) := findSome_levelsFrom hbase hlow hhigh hdesc hbelow

theorem bestIrq_only {s : State} {c : Nat} {i : Irq} {l : Nat} {d : Desc} (hlevel : asyncLevel s c i = some (l, d)) (hle : (getCore s c).level.toNat ≤ l)
    (hfree : (saveSet (getCore s c) l).valid = false) : bestIrq s c [i] = some (i, l, d) := by
  simp [bestIrq, takeable, hlevel, hle, hfree]

theorem interruptible_between {k : Core} (hrun : k.mode = .run) (hexc : k.exc = none) (hdq : k.dq = []) (hrd : k.rdTxn = none)
    (hstep : k.stepOne = false) (hinv : k.invWait = false) : interruptible k = true := by
  simp [interruptible, takesSteps, pendingExc, waitsForAnswer, atomicOut, hrun, hexc, hdq, hrd, hstep, hinv]

section
variable {c : CoreId} {s : State} {i : Irq} {l : Nat} {d : Desc} (hrun : (getCore s c.val).mode = .run)
  (hpre : (getCore s c.val).pre = none) (hrd : (getCore s c.val).rdTxn = none) (hready : interruptible (getCore s c.val) = true)
  (hsteps : isS c.val = true ∨ domainSteps s (cluOf c.val) = true) (hwindow : (getCore s c.val).window = 0)
  (hirqs : (getCore s c.val).irqs = [i]) (hcls : i.cls ≠ 0x12) (hbest : bestIrq s c.val (heldIrqs s c.val) = some (i, l, d))
include hrun hpre hrd hready hsteps hwindow hirqs hcls hbest

/-- The class held at the core alone leaves its list and is entered, the word under way given up. -/
theorem interruptTaken_takes : exec (.interruptTaken c) s =
    .next (enterAt (setCore s c.val (interruptedCore (getCore s c.val))) c.val (irqExc (getCore s c.val) i)
      { level := l, desc := d, passed := decide (baseOn c.val i.base < l), escFrom := 0 }) := by
  have hgoes : ¬ ((!interruptible (getCore s c.val)) = true ∨ ((!isS c.val) = true ∧ (!domainSteps s (cluOf c.val)) = true)) := by
    rcases hsteps with h | h <;> simp [hready, h]
  have hfind : (getCore s c.val).irqs.find? (fun i => i.cls = 0x12) = none := by simp [hirqs, hcls]
  have hdropped : abandonWord (dropIrq s c.val i) c.val = setCore s c.val (interruptedCore (getCore s c.val)) := by
    have hdrop : dropIrq s c.val i = setCore s c.val { getCore s c.val with irqs := [] } := by simp [dropIrq, updCore, hirqs]
    rw [hdrop]
    simp only [abandonWord, updCore_setCore, holdOf, hrun, hpre, hrd, Option.getD_none]
    rfl
  have hexec : exec (.interruptTaken c) s = execInterruptTaken c s := rfl
  simp only [hexec, execInterruptTaken, if_neg hgoes, hfind, if_neg (not_not.mpr hwindow), hbest, hdropped, getCore_setCore]
  rfl

theorem interruptTaken_enters (hq : Quiet (getCore s c.val)) (hlow : 1 ≤ l) (hhigh : l ≤ 3) :
    ∃ k', exec (.interruptTaken c) s = .next (setCore s c.val k') ∧ k'.irqs = [] ∧
      entered s c (irqExc (getCore s c.val) i) l d (decide (baseOn c.val i.base < l)) k' := by
  have hcore := getCore_setCore s c.val (interruptedCore (getCore s c.val))
  have hquiet : Quiet (getCore (setCore s c.val (interruptedCore (getCore s c.val))) c.val) := by
    rw [hcore]
    exact ⟨hq.noFlights, hq.noGroups, hq.noFeeds, hq.noStep⟩
  refine ⟨_, (interruptTaken_takes hrun hpre hrd hready hsteps hwindow hirqs hcls hbest).trans (congrArg Host.Outcome.next
    ((enterAt_quiet l d _ hquiet rfl).trans (setCore_setCore s c.val _ _))), ?_, entered_of_interrupted (entered_entryCore _ c _ d _ _ hlow hhigh)⟩
  rw [hcore]
  exact setSaveSet_irqs _ _ _

end

/-- Settles O28: what delivery finds decides what EXCEPTION_ENTRY enters, the one class held what INTERRUPT_TAKEN does, and
entry is the same for both. -/
theorem exceptionEntrySavesAndGoesToTheHandler : Obligations.ExceptionEntrySavesAndGoesToTheHandler := by
  refine ⟨fun c s e hrun _ hexc hflights hgroups hchk hstep hsame hlow => ⟨fun d hhigh hdesc hfree => ?_, fun d hhigh hnone hdesc hfree => ?_, fun hnone => ?_⟩,
    fun c s i l d hrun hpre hexc hdq hrd hstep hinv hwindow hflights hgroups hchk hsteps hheld hirqs hcls hle hlow hhigh hdesc hbelow hfree => ?_,
    fun c s hrun => ?_⟩
  · refine exceptionEntry_enters hrun hexc hsame ⟨hflights, hgroups, hchk, hstep⟩ hlow hhigh ?_
    rw [levelsFrom_cons hlow hhigh, deliverSync_here hdesc hfree]
  · refine exceptionEntry_enters hrun hexc hsame ⟨hflights, hgroups, hchk, hstep⟩ (by omega) (by omega) ?_
    rw [levelsFrom_cons hlow (by omega), deliverSync_pass hnone, levelsFrom_cons (by omega) (by omega), deliverSync_here hdesc hfree]
  · exact ⟨_, exceptionEntry_locksUp hrun hexc hsame hnone, getCore_lockUp hstep, rfl, _, rfl, rfl, rfl⟩
  · have hbest : bestIrq s c.val (heldIrqs s c.val) = some (i, l, d) := by
      rw [hheld]
      exact bestIrq_only (asyncLevel_lowest (by omega) hlow hhigh hdesc hbelow) (by omega) hfree
    exact interruptTaken_enters hrun hpre hrd (interruptible_between hrun hexc hdq hrd hstep hinv) hsteps hwindow hirqs hcls hbest
      ⟨hflights, hgroups, hchk, hstep⟩ hlow hhigh
  · have hsteps : takesSteps (getCore s c.val) = true := by simp only [takesSteps, hrun]
    exact congrArg (fun k => Host.Outcome.next (setCore s c.val k)) (if_pos hsteps)

end Sys2Proof.Machine
end

section
/-! Settles O22 (returns, gates and waits: 08_privilege_and_exceptions.md R180, R182, 09_contexts_and_scheduler.md R205). The
layers: the core that its word has left; the end of a word whose one effect follows it, or fails; a return and what the core it
leaves free does; then the three triggers. -/
namespace Sys2Proof.Machine

/-! ### The core that its word has left (R142) -/

theorem wordOver_eq (k : Core) (x : Ctx) : wordOver k x =
    { k with
      ctx := { opened x with mprog := none }, pc := k.pc + 8, pre := none, mode := .run, rdParts := [], fills := (dropFailed k).fills
      window := if k.window = 0 then 0 else k.window - 1, sbuf := k.sbuf.map (fun e => { e with fresh := false })
      exc := k.exc.map (fun e => { e with pc := k.pc + 8 }), dq := (wordOver k x).dq, fq := (wordOver k x).fq
      fetchPc := (wordOver k x).fetchPc, decRep := (wordOver k x).decRep } := by
  unfold wordOver
  split
  · unfold wordTo trimQueue
    split
    · rfl
    · split <;> rfl
  · rfl

section
variable (k : Core) (x : Ctx)

@[simp] theorem wordOver_ctx : (wordOver k x).ctx = { opened x with mprog := none } := by rw [wordOver_eq]
@[simp] theorem wordOver_pc : (wordOver k x).pc = k.pc + 8 := by rw [wordOver_eq]
@[simp] theorem wordOver_mode : (wordOver k x).mode = .run := by rw [wordOver_eq]
@[simp] theorem wordOver_pre : (wordOver k x).pre = none := by rw [wordOver_eq]
@[simp] theorem wordOver_exc : (wordOver k x).exc = k.exc.map (fun e => { e with pc := k.pc + 8 }) := by rw [wordOver_eq]
@[simp] theorem wordOver_level : (wordOver k x).level = k.level := by rw [wordOver_eq]
@[simp] theorem wordOver_task : (wordOver k x).task = k.task := by rw [wordOver_eq]
@[simp] theorem wordOver_preempt : (wordOver k x).preempt = k.preempt := by rw [wordOver_eq]
@[simp] theorem wordOver_discard : (wordOver k x).discard = k.discard := by rw [wordOver_eq]
@[simp] theorem wordOver_spec : (wordOver k x).spec = k.spec := by rw [wordOver_eq]

theorem saveSet_wordOver (j : Nat) : saveSet (wordOver k x) j = saveSet k j :=
  saveSet_congr (by rw [wordOver_eq]) (by rw [wordOver_eq]) (by rw [wordOver_eq]) j

end

/-! ### The end of a word whose one effect follows it (R180, R182, R205) -/

/-- Effects that take place after their word has ended. -/
def followsWord : After → Bool
  | .ret | .gate _ _ | .brk | .wait => true
  | _ => false

/-- Up to its end, a word whose effect follows it is as one without effects. -/
theorem followsWord_plain {k : Core} {b l : Bool} {a : After} (s : State) (c : Nat) (hafter : k.ctx.after = [(b, l, a)]) (hfollows : followsWord a = true)
    (hrep : k.ctx.rep = false) :
    applyAfter s c (b, l, a) = s ∧ wordCtx k = ({ opened k.ctx with mprog := none }, false) ∧ flowOf k = (k.pc + 8, none, false) ∧
      branches k = false ∧ lsuOf k = none := by
  cases a with
  | ret | gate | brk | wait =>
    refine ⟨rfl, ?_, ?_, ?_, ?_⟩
    · simp [wordCtx, hafter, hrep, opened]
    · rw [flowOf, hafter]
      rfl
    · simp [branches, hafter]
    · simp [lsuOf, hafter]
  | _ => cases hfollows

theorem commit_follows {s : State} {c : Nat} {k : Core} {b l : Bool} {a : After} (hafter : k.ctx.after = [(b, l, a)]) (hfollows : followsWord a = true)
    (hrep : k.ctx.rep = false) (hspec : k.spec = []) :
    commit (setCore s c k) c = afterWord (setCore s c (wordLeft c k)) c [(b, l, a)] k.pc := by
  obtain ⟨happly, hctx, hflow, hbranch, -⟩ := followsWord_plain (setCore s c k) c hafter hfollows hrep
  have hfetched : installFetched (setCore s c k) c = setCore s c k := by simp [installFetched, hspec]
  have hsame : ({ k with ctx := { k.ctx with after := [(b, l, a)] } } : Core) = k := by rw [← hafter]
  unfold commit
  simp only [getCore_setCore, hafter, List.foldl_cons, List.foldl_nil, happly, hfetched, hsame, setCore_setCore, hctx, hflow, hbranch,
    Bool.false_eq_true, if_false]
  rfl

/-- A word whose one effect follows it waits for nothing, but for a preemption decided before a T_WAIT. -/
theorem endWord_follows {s : State} {c : Nat} {k : Core} {b l : Bool} {a : After} (hafter : k.ctx.after = [(b, l, a)]) (hfollows : followsWord a = true)
    (hrep : k.ctx.rep = false) (hfaults : k.ctx.faults = []) (hflights : k.ctx.flights = []) (hexc : afterExc (setCore s c k) c (b, l, a) = none)
    (hruns : a = .wait → taskRuns (setCore s c k) c = true) : endWord (setCore s c k) c = commit (setCore s c k) c := by
  obtain ⟨-, -, -, -, hlsu⟩ := followsWord_plain s c hafter hfollows hrep
  have hcommit : endWord.commitLsu (setCore s c k) c = commit (setCore s c k) c := by simp only [endWord.commitLsu, getCore_setCore, hlsu]
  rw [← hcommit, endWord]
  simp only [getCore_setCore, hlsu, hafter, hfaults, List.filterMap_cons, hexc, List.filterMap_nil, List.append_nil, firstExc, longLeft, hflights,
    List.any_cons, List.any_nil, List.find?_cons, List.find?_nil, List.findSome?_cons, List.findSome?_nil, Bool.or_false]
  cases a with
  | wait => simp [longUnit, isTlbInv, hruns rfl]
  | ret | gate | brk => simp [longUnit, isTlbInv]
  | _ => cases hfollows

/-- A word whose one effect fails its checks raises the exception. -/
theorem endWord_follows_raises {s : State} {c : Nat} {k : Core} {b l : Bool} {a : After} {e : Exc} (hafter : k.ctx.after = [(b, l, a)])
    (hfollows : followsWord a = true) (hrep : k.ctx.rep = false) (hfaults : k.ctx.faults = []) (hexc : afterExc (setCore s c k) c (b, l, a) = some e) :
    endWord (setCore s c k) c = raiseWord (setCore s c k) c e := by
  obtain ⟨-, -, -, -, hlsu⟩ := followsWord_plain s c hafter hfollows hrep
  rw [endWord]
  simp only [getCore_setCore, hlsu, hafter, hfaults, List.filterMap_cons, hexc, List.filterMap_nil, List.nil_append, firstExc]

/-- The core whose word has left the effect `a` for its end. -/
def atEndCore (s : State) (c : CoreId) (m : Slot) (a : After) : Core := wordWaiting (getCore s c.val) (getCore s c.val).mode (regsLeaving s c m a)

theorem atEnd_eq (s : State) (c : CoreId) (m : Slot) (a : After) : atEnd s c m a = setCore s c.val (atEndCore s c m a) := rfl

section
variable {s : State} {c : CoreId} {m : Slot} {a : After} (hs : Straight (getCore s c.val)) (hfollows : followsWord a = true)
include hs hfollows

/-- A word that ends with an effect that raises no fault is over, and its effect follows. -/
theorem endWord_atEnd (hexc : afterExc (atEnd s c m a) c.val (m.slotB, m.long, a) = none) (hruns : a = .wait → taskRuns (atEnd s c m a) c.val = true) :
    endWord (atEnd s c m a) c.val =
      afterWord (setCore s c.val (wordOver (getCore s c.val) (regsOf s c))) c.val [(m.slotB, m.long, a)] (getCore s c.val).pc := by
  have hend := endWord_follows (k := atEndCore s c m a) rfl hfollows hs.noRepeat rfl hs.noFlights hexc hruns
  have hcommit := commit_follows (s := s) (c := c.val) (k := atEndCore s c m a) rfl hfollows hs.noRepeat hs.noSpec
  rw [atEnd_eq, hend, hcommit, atEndCore, wordLeft_waiting hs, wordOver_congr (x := regsLeaving s c m a) (y := regsOf s c) rfl]
  rfl

/-- A word that ends with an effect that fails its checks is unperformed. -/
theorem endWord_atEnd_raises {e : Exc} (hexc : afterExc (atEnd s c m a) c.val (m.slotB, m.long, a) = some e) (hcls : e.cls ≠ 0x16)
    (hrd : (getCore s c.val).rdTxn = none) : endWord (atEnd s c m a) c.val = setCore s c.val (wordRaised (getCore s c.val) e) :=
  (endWord_follows_raises (k := atEndCore s c m a) rfl hfollows hs.noRepeat rfl hexc).trans (raiseWord_open (x := regsLeaving s c m a) hs hrd hcls)

end

/-- A last slot that leaves one effect ends its word with it. -/
theorem trigStep_last {s : State} {c : CoreId} {m : Slot} {port : Nat} {f : Core → Ctx → Word → After} (hends : Ends s c m port)
    (hport : ¬ (352 ≤ port ∧ port ≤ 354)) :
    trigStep s c port m f = endWord (atEnd s c m (f (openCore (getCore s c.val)) (regsOf s c) (moved64 s c m))) c.val := by
  obtain ⟨hready, hlast⟩ := hends
  rw [trigStep, slotStep_ready s c m port _ hready, if_neg hlast, actCore, if_neg hport]
  rfl

/-! ### Returns (R180) -/

/-- The save set of the level that a core runs at. -/
def levelSet (k : Core) : SaveSet := saveSet k k.level.toNat

theorem levelSet_wordOver (k : Core) (x : Ctx) : levelSet (wordOver k x) = levelSet k := by
  rw [levelSet, wordOver_level, saveSet_wordOver, levelSet]

/-- A return passes its checks with a valid, aligned save set that names no higher level. -/
theorem returnFails_eq_none_iff {x : SaveSet} {lvl : Nat} :
    returnFails x lvl = none ↔ x.valid = true ∧ fld x.status 1 0 ≤ lvl ∧ x.pc.toNat % 8 = 0 := by
  have hfld : fld x.pc 2 0 = x.pc.toNat % 8 := rfl
  unfold returnFails
  rw [hfld]
  split
  · simp_all
  · split
    · simp_all
    · split <;> simp_all

theorem afterExc_ret (s : State) (c : CoreId) (m : Slot) : afterExc (atEnd s c m .ret) c.val (m.slotB, m.long, .ret) =
    (returnFails (levelSet (getCore s c.val)) (getCore s c.val).level.toNat).map (returnExc (atEndCore s c m .ret) m.slotB m.long) := by
  rw [atEnd_eq, afterExc, getCore_setCore]
  rfl

/-- Does a return find its repeat with nothing left to perform (R132)? -/
def returnDone (k : Core) : Bool := (levelSet k).status.getLsbD 3 && decide (k.ctx.rc = 0)

theorem setSp_eq (c : Nat) (x : Ctx) (w : Word) :
    setSp c x w = { x with g := put (if isS c then 15 else 63) w x.g, dirty := x.dirty ||| (if isS c then 1 else 8) } := by
  rw [setSp, setDirty_eq, spReg, spGroup]
  split <;> rfl

/-- The core that a return has given back what the save set of its level holds. -/
def returnCore (c : Nat) (k : Core) : Core :=
  let x := levelSet k
  let pc := if returnDone k then x.pc + 8 else x.pc
  refetch (flushItt { setSaveSet k k.level.toNat { x with valid := false } with
    ctx := { setSp c k.ctx x.sp with
      rep := x.status.getLsbD 3 && !returnDone k, mprog := if x.mprog.getLsbD 16 then some (x.mprog.setWidth 16) else none }
    level := BitVec.ofNat 2 (fld x.status 1 0), pc := pc, window := 0 }) pc

theorem doReturn_loaded {s : State} {c : Nat} {k : Core} (hgroups : k.ctx.pendGroups = 0) :
    doReturn (setCore s c k) c = setCore s c (returnCore c k) := by
  rw [doReturn, loadSp_loaded (by rw [getCore_setCore, hgroups]), updCore_setCore]
  rfl

section
variable (c : Nat) (k : Core)

@[simp] theorem returnCore_mode : (returnCore c k).mode = k.mode := setSaveSet_mode ..
@[simp] theorem returnCore_exc : (returnCore c k).exc = k.exc := setSaveSet_exc ..
@[simp] theorem returnCore_pre : (returnCore c k).pre = k.pre := setSaveSet_pre ..
@[simp] theorem returnCore_task : (returnCore c k).task = k.task := setSaveSet_task ..
@[simp] theorem returnCore_preempt : (returnCore c k).preempt = k.preempt := setSaveSet_preempt ..
@[simp] theorem returnCore_stepOne : (returnCore c k).stepOne = k.stepOne := setSaveSet_stepOne ..
@[simp] theorem returnCore_spec : (returnCore c k).spec = k.spec.filter (fun l => l.keep) := congrArg (List.filter _) (setSaveSet_spec ..)

theorem returnCore_level : (returnCore c k).level = BitVec.ofNat 2 (fld (levelSet k).status 1 0) := rfl
theorem returnCore_pc : (returnCore c k).pc = if returnDone k then (levelSet k).pc + 8 else (levelSet k).pc := rfl
theorem returnCore_ctx : (returnCore c k).ctx = { setSp c k.ctx (levelSet k).sp with
    rep := (levelSet k).status.getLsbD 3 && !returnDone k
    mprog := if (levelSet k).mprog.getLsbD 16 then some ((levelSet k).mprog.setWidth 16) else none } := rfl

theorem returnCore_level_toNat : (returnCore c k).level.toNat = fld (levelSet k).status 1 0 :=
  Nat.mod_eq_of_lt (Nat.mod_lt _ (by decide))

/-- A return makes the save set that it used invalid and leaves the others. -/
theorem saveSet_returnCore {j : Nat} (hlow : 1 ≤ j) (hhigh : j ≤ 3) : saveSet (returnCore c k) j =
    if j = k.level.toNat ∨ (k.level.toNat = 0 ∧ j = 3) then { levelSet k with valid := false } else saveSet k j := by
  have hlevel : k.level.toNat < 4 := k.level.isLt
  exact (saveSet_congr (k := setSaveSet k k.level.toNat { levelSet k with valid := false }) rfl rfl rfl j).trans
    (saveSet_setSaveSet k _ (by omega) hlow hhigh)

end

/-- The core that a T_RETURN which passes its checks has left, its word over. -/
def returned (s : State) (c : CoreId) : Core := returnCore c.val (wordOver (getCore s c.val) (regsOf s c))

section
variable (s : State) (c : CoreId)

theorem returnDone_wordOver : returnDone (wordOver (getCore s c.val) (regsOf s c)) = returnDone (getCore s c.val) := by
  rw [returnDone, levelSet_wordOver, wordOver_ctx]
  rfl

theorem returned_pc : (returned s c).pc = if returnDone (getCore s c.val) then (levelSet (getCore s c.val)).pc + 8
    else (levelSet (getCore s c.val)).pc := by
  rw [returned, returnCore_pc, returnDone_wordOver, levelSet_wordOver]

theorem returned_level : (returned s c).level = BitVec.ofNat 2 (fld (levelSet (getCore s c.val)).status 1 0) := by
  rw [returned, returnCore_level, levelSet_wordOver]

theorem returned_level_toNat : (returned s c).level.toNat = fld (levelSet (getCore s c.val)).status 1 0 := by
  rw [returned, returnCore_level_toNat, levelSet_wordOver]

theorem returned_ctx : (returned s c).ctx = { regsOf s c with
    g := put (if isS c.val then 15 else 63) (levelSet (getCore s c.val)).sp (regsOf s c).g
    dirty := (regsOf s c).dirty ||| (if isS c.val then 1 else 8)
    rep := (levelSet (getCore s c.val)).status.getLsbD 3 && !returnDone (getCore s c.val)
    mprog := if (levelSet (getCore s c.val)).mprog.getLsbD 16
      then some ((levelSet (getCore s c.val)).mprog.setWidth 16) else none } := by
  rw [returned, returnCore_ctx, returnDone_wordOver, levelSet_wordOver, wordOver_ctx, setSp_eq]
  rfl

theorem returned_task : (returned s c).task = (getCore s c.val).task := by rw [returned, returnCore_task, wordOver_task]
theorem returned_preempt : (returned s c).preempt = (getCore s c.val).preempt := by rw [returned, returnCore_preempt, wordOver_preempt]
theorem returned_stepOne : (returned s c).stepOne = (getCore s c.val).stepOne := by rw [returned, returnCore_stepOne, wordOver_stepOne]
theorem returned_mode : (returned s c).mode = .run := by rw [returned, returnCore_mode, wordOver_mode]
theorem returned_pre : (returned s c).pre = none := by rw [returned, returnCore_pre, wordOver_pre]

theorem saveSet_returned {j : Nat} (hlow : 1 ≤ j) (hhigh : j ≤ 3) : saveSet (returned s c) j =
    if j = (getCore s c.val).level.toNat ∨ ((getCore s c.val).level.toNat = 0 ∧ j = 3)
      then { levelSet (getCore s c.val) with valid := false } else saveSet (getCore s c.val) j := by
  rw [returned, saveSet_returnCore _ _ hlow hhigh, levelSet_wordOver, saveSet_wordOver, wordOver_level]

variable {s c} (hs : Straight (getCore s c.val))
include hs

theorem returned_exc : (returned s c).exc = none := by rw [returned, returnCore_exc, wordOver_exc, hs.noExc, Option.map_none]
theorem returned_spec : (returned s c).spec = [] := by rw [returned, returnCore_spec, wordOver_spec, hs.noSpec, List.filter_nil]

end

/-! ### The core that a return leaves (R177, R207) -/

theorem leaveHandler_stays {s : State} {c : Nat} {k : Core} (h : isS c = true ∨ k.task ≠ none ∨ 1 < k.level.toNat) :
    leaveHandler (setCore s c k) c = setCore s c k := by
  rw [← Option.isSome_iff_ne_none] at h
  refine if_pos ?_
  rw [getCore_setCore]
  tauto

theorem feedCore_idle {s : State} (c : Nat) (h : s.sched.ready = []) : feedCore s c = s := by
  have hnone : ∀ n, nextTask s c n = none := by
    intro n
    induction n with
    | zero => rfl
    | succ n ih => simp [nextTask, h, ih]
  rw [feedCore, hnone]

/-- An A-core without a task, for which none is READY, is free once its handler has returned to L1 or L0. -/
theorem leaveHandler_frees {s : State} {c : Nat} {k : Core} (hA : isS c = false) (htask : k.task = none) (hlevel : k.level.toNat ≤ 1)
    (hrun : k.mode = .run) (hpreempt : k.preempt = none) (hready : s.sched.ready = []) :
    ∃ k', leaveHandler (setCore s c k) c = setCore s c k' ∧ k'.mode = .free ∧ k'.level = k.level ∧ k'.pc = k.pc ∧ k'.task = none ∧
      k'.stepOne = k.stepOne := by
  have hleaves : leaveHandler (setCore s c k) c = updCore (freeCore (setCore s c k) c) c (fun x => { x with level := k.level }) := by
    simp only [leaveHandler, getCore_setCore, hA, htask, hrun, hpreempt, Nat.not_lt.mpr hlevel, Option.isSome_none, Bool.false_eq_true, not_true,
      ne_eq, or_false, if_false]
    exact feedCore_idle c hready
  rw [hleaves, freeCore, updCore_setCore, updCore_setCore]
  by_cases hzero : k.level = 0
  · exact ⟨_, rfl, rfl, rfl, by simp only [hzero, if_true], rfl, by simp only [hzero, if_true]⟩
  · exact ⟨_, rfl, rfl, rfl, by simp only [hzero, if_false, flushItt], rfl, by simp only [hzero, if_false, flushItt]⟩

/-! ### The three triggers -/

/-- What a gate leaves for entry on a core that stands at its next word (R182). -/
def gateExc (k : Core) (i : Nat) (v : Word) (slotB long : Bool) : Exc :=
  { cls := if 0x40 ≤ v.toNat % 256 then v.toNat % 256 else 0x13 + i, base := i + 1, addr := v, pc := k.pc, slotB := slotB, long := long }

theorem gateExc_eq (k : Core) (i : Nat) (v : Word) (slotB long : Bool) : gateExc k i v slotB long =
    { cls := if v.toNat % 256 < 0x40 then 0x13 + i else v.toNat % 256, base := i + 1, addr := v, pc := k.pc, slotB := slotB, long := long } := by
  simp only [gateExc, ← Nat.not_lt, ite_not]

theorem afterWord_ret (s : State) (c : Nat) (b l : Bool) (pc : Word) :
    afterWord s c [(b, l, .ret)] pc = afterWord (leaveHandler (doReturn s c) c) c [] pc := rfl

theorem afterWord_wait (s : State) (c : Nat) (b l : Bool) (pc : Word) : afterWord s c [(b, l, .wait)] pc = afterWord (waitTask s c) c [] pc := rfl

theorem afterWord_gate (s : State) (c : Nat) (k : Core) (b l : Bool) (i : Nat) (v pc : Word) :
    afterWord (setCore s c k) c [(b, l, .gate i v)] pc = afterWord (setCore s c { k with exc := some (gateExc k i v b l) }) c [] pc := by
  have hgate : afterWord (setCore s c k) c [(b, l, .gate i v)] pc = afterWord (setCore (setCore s c k) c
      { getCore (setCore s c k) c with exc := some (gateExc (getCore (setCore s c k) c) i v b l) }) c [] pc := rfl
  rw [hgate, getCore_setCore, setCore_setCore]

theorem updTcb_setCore (s : State) (c t : Nat) (k : Core) (f : Tcb → Tcb) : updTcb (setCore s c k) t f = setCore (updTcb s t f) c k := rfl

section
variable {s : State} {c t : Nat} {k : Core} (htask : k.task = some t)
include htask

theorem taskRuns_running (hstate : (getTcb s t).state = .running) (hstays : k.discard = false) : taskRuns (setCore s c k) c = true := by
  have htcb : getTcb (setCore s c k) t = getTcb s t := rfl
  simp [taskRuns, htask, htcb, hstate, hstays]

theorem afterExc_wait (b l : Bool) (hpending : 0 < (getTcb s t).pending) : afterExc (setCore s c k) c (b, l, .wait) = none := by
  have htcb : getTcb (setCore s c k) t = getTcb s t := rfl
  simp [afterExc, htask, htcb, Nat.pos_iff_ne_zero.mp hpending]

theorem waitTask_consumes (hruns : taskRuns (setCore s c k) c = true) (hpending : 0 < (getTcb s t).pending) :
    waitTask (setCore s c k) c = setCore (updTcb s t (fun x => { x with pending := x.pending - 1 })) c k := by
  have htcb : getTcb (setCore s c k) t = getTcb s t := rfl
  simp only [waitTask, getCore_setCore, htask, hruns, htcb, hpending, Bool.not_true, Bool.false_eq_true, if_false, if_true, updTcb_setCore]

end

section
variable {s : State} {c : CoreId} {m : Slot}

/-- A return that passes its checks follows its word. -/
theorem tReturn_performs (hends : Ends s c m 390)
    (hok : returnFails (levelSet (getCore s c.val)) (getCore s c.val).level.toNat = none) :
    exec (.tReturn c m) s = .next (afterWord (leaveHandler (setCore s c.val (returned s c)) c.val) c.val [] (getCore s c.val).pc) := by
  have hs : Straight (getCore s c.val) := hends.1.1
  have hexec : exec (.tReturn c m) s = .next (trigStep s c 390 m (fun _ _ _ => .ret)) := rfl
  have hexc : afterExc (atEnd s c m .ret) c.val (m.slotB, m.long, .ret) = none := by rw [afterExc_ret, hok, Option.map_none]
  have hgroups : (wordOver (getCore s c.val) (regsOf s c)).ctx.pendGroups = 0 := by rw [wordOver_ctx]; exact hs.noGroups
  rw [hexec, trigStep_last hends (by decide), endWord_atEnd hs rfl hexc (fun h => nomatch h), afterWord_ret, doReturn_loaded hgroups, returned]

/-- A return that does not leave its core free ends with it. -/
theorem tReturn_returns (hends : Ends s c m 390)
    (hok : returnFails (levelSet (getCore s c.val)) (getCore s c.val).level.toNat = none)
    (hstays : isS c.val = true ∨ (getCore s c.val).task ≠ none ∨ 1 < fld (levelSet (getCore s c.val)).status 1 0) :
    exec (.tReturn c m) s = .next (setCore s c.val (returned s c)) := by
  rw [← returned_task, ← returned_level_toNat] at hstays
  rw [tReturn_performs hends hok, leaveHandler_stays hstays, afterWord_goesOn ((returned_stepOne s c).trans hends.1.1.noStep) hends.1.2.1]

/-- A return to L1 or L0 of an A-core without a task, for which none is READY, leaves it free. -/
theorem tReturn_frees (hends : Ends s c m 390)
    (hok : returnFails (levelSet (getCore s c.val)) (getCore s c.val).level.toNat = none)
    (hlow : fld (levelSet (getCore s c.val)).status 1 0 ≤ 1) (hA : isS c.val = false) (htask : (getCore s c.val).task = none)
    (hpreempt : (getCore s c.val).preempt = none) (hready : s.sched.ready = []) :
    ∃ k', exec (.tReturn c m) s = .next (setCore s c.val k') ∧ k'.mode = .free ∧ k'.level = (returned s c).level ∧ k'.pc = (returned s c).pc ∧
      k'.task = none := by
  rw [← returned_level_toNat] at hlow
  rw [← returned_task] at htask
  rw [← returned_preempt] at hpreempt
  obtain ⟨k', hfrees, hmode, hlevel, hpc, hnone, hstep⟩ := leaveHandler_frees hA htask hlow (returned_mode s c) hpreempt hready
  refine ⟨k', ?_, hmode, hlevel, hpc, hnone⟩
  rw [tReturn_performs hends hok, hfrees, afterWord_goesOn (hstep.trans ((returned_stepOne s c).trans hends.1.1.noStep)) hends.1.2.1]

/-- A return that fails its checks is unperformed. -/
theorem tReturn_raises (hends : Ends s c m 390) (hrd : (getCore s c.val).rdTxn = none)
    (hfails : returnFails (levelSet (getCore s c.val)) (getCore s c.val).level.toNat ≠ none) :
    Raises (.tReturn c m) s c 0x0E (getCore s c.val).pc := by
  obtain ⟨r, hr⟩ := Option.ne_none_iff_exists'.mp hfails
  have hexec : exec (.tReturn c m) s = .next (trigStep s c 390 m (fun _ _ _ => .ret)) := rfl
  have hexc : afterExc (atEnd s c m .ret) c.val (m.slotB, m.long, .ret) = some (returnExc (atEndCore s c m .ret) m.slotB m.long r) := by
    rw [afterExc_ret, hr, Option.map_some]
  refine ⟨returnExc (atEndCore s c m .ret) m.slotB m.long r, rfl, rfl, rfl, ?_⟩
  rw [hexec, trigStep_last hends (by decide), endWord_atEnd_raises hends.1.1 rfl hexc (show 0x0E ≠ 0x16 by decide) hrd]
  rfl

/-- A gate leaves its class for entry from the word after it. -/
theorem tGate_calls (i : Fin 3) (hends : Ends s c m (391 + i.val)) :
    exec (.tGate c i m) s = .next (setCore s c.val { wordOver (getCore s c.val) (regsOf s c) with
      exc := some (gateExc (wordOver (getCore s c.val) (regsOf s c)) i.val (moved64 s c m) m.slotB m.long) }) := by
  have hs : Straight (getCore s c.val) := hends.1.1
  have hexec : exec (.tGate c i m) s = .next (trigStep s c (391 + i.val) m (fun _ _ v => .gate i.val v)) := rfl
  have hfollows := endWord_atEnd (m := m) (a := .gate i.val (moved64 s c m)) hs rfl rfl (fun h => After.noConfusion h)
  rw [hexec, trigStep_last hends (by omega), hfollows, afterWord_gate]
  refine congrArg Host.Outcome.next (afterWord_goesOn ?_ hends.1.2.1 _)
  exact (wordOver_stepOne _ _).trans hs.noStep

/-- T_WAIT of a running task with an event pending consumes one and goes on. -/
theorem tWait_consumes {t : Nat} (hends : Ends s c m 396) (htask : (getCore s c.val).task = some t) (hstate : (getTcb s t).state = .running)
    (hstays : (getCore s c.val).discard = false) (hpending : 0 < (getTcb s t).pending) :
    exec (.tWait c m) s = .next (updTcb (setCore s c.val (wordOver (getCore s c.val) (regsOf s c))) t (fun x => { x with pending := x.pending - 1 })) := by
  have hs : Straight (getCore s c.val) := hends.1.1
  have hexec : exec (.tWait c m) s = .next (trigStep s c 396 m (fun _ _ _ => .wait)) := rfl
  have hexc : afterExc (atEnd s c m .wait) c.val (m.slotB, m.long, .wait) = none := afterExc_wait (k := atEndCore s c m .wait) htask _ _ hpending
  have hruns : taskRuns (atEnd s c m .wait) c.val = true := taskRuns_running (k := atEndCore s c m .wait) htask hstate hstays
  have hover : (wordOver (getCore s c.val) (regsOf s c)).task = some t := (wordOver_task _ _).trans htask
  have hwaits := waitTask_consumes (c := c.val) hover (taskRuns_running hover hstate ((wordOver_discard _ _).trans hstays)) hpending
  rw [hexec, trigStep_last hends (by decide), endWord_atEnd hs rfl hexc (fun _ => hruns), afterWord_wait, hwaits, updTcb_setCore]
  refine congrArg Host.Outcome.next (afterWord_goesOn ?_ ?_ _)
  · exact (wordOver_stepOne _ _).trans hs.noStep
  · exact hends.1.2.1

end

/-- Settles O22: a return by its checks and by where it leaves the core, a gate and a wait by what follows their word. -/
theorem returnsGatesAndWaits : Obligations.ReturnsGatesAndWaits := by
  unfold Obligations.ReturnsGatesAndWaits
  refine fun c m s => ⟨fun hends hvalid hlevel haligned hstays => ?_, fun hends hvalid hlow hlevel haligned hA htask hpreempt hready => ?_,
    fun hends hbad hrd => ?_, fun i hends => ?_, fun t hends htask hstate hstays hpending => ?_⟩
  · have hs : Straight (getCore s c.val) := hends.1.1
    refine ⟨_, returned s c, tReturn_returns hends (returnFails_eq_none_iff.mpr ⟨hvalid, hlevel, haligned⟩) hstays, rfl, returned_pc s c, returned_level s c, rfl,
      returned_mode s c, returned_exc hs, returned_pre s c, rfl, returned_spec hs, rfl, rfl, rfl, returned_ctx s c, fun j => saveSet_returned s c⟩
  · obtain ⟨k', hexec, hmode, hlvl, hpc, hnone⟩ :=
      tReturn_frees hends (returnFails_eq_none_iff.mpr ⟨hvalid, hlevel, haligned⟩) hlow hA htask hpreempt hready
    refine ⟨k', hexec, hmode, hlvl.trans (returned_level s c), (hpc.trans (returned_pc s c)).trans ?_, hnone⟩
    simp only [returnDone, levelSet, Bool.and_eq_true, decide_eq_true_eq]
  · refine tReturn_raises hends hrd fun hok => ?_
    obtain ⟨hvalid, hlevel, haligned⟩ := returnFails_eq_none_iff.mp hok
    rcases hbad with h | h | h
    · exact absurd (hvalid.symm.trans h) (by decide)
    · exact absurd h (Nat.not_lt.mpr hlevel)
    · exact h haligned
  · have hexc := gateExc_eq (wordOver (getCore s c.val) (regsOf s c)) i.val (moved64 s c m) m.slotB m.long
    rw [wordOver_pc] at hexc
    rw [tGate_calls i hends, hexc]
  · exact tWait_consumes hends htask hstate hstays hpending

end Sys2Proof.Machine
end

section
/-! Settles O25 (the seal of a descriptor table: 08_privilege_and_exceptions.md R171, R172, R488). The layers: the descriptors
that a run of the checks takes; the table that a seal stores; then the two ends of a seal. -/
namespace Sys2Proof.Machine

/-! ### A run of the checks (R172, R488) -/

/-- The valid descriptors among those of `is`, each with its index, where descriptor `i` lies at `at' i`. -/
def validOf (s : State) (at' : Nat → Nat) (is : List Nat) : DescTable := is.filterMap (fun i => (descAt s (at' i)).map (fun d => (i, d)))

theorem length_validOf (s : State) (at' : Nat → Nat) (is : List Nat) :
    (validOf s at' is).length = (is.filter (fun i => (descAt s (at' i)).isSome)).length := by
  induction is with
  | nil => rfl
  | cons i is ih =>
    cases hi : descAt s (at' i) with
    | none => simpa [validOf, hi] using ih
    | some d => simpa [validOf, hi] using ih

/-- Descriptors that pass their checks and fit the store join the table in their order. -/
theorem sealFrom_passes {s : State} {c l : Nat} {page : Nat → Option Nat} {at' : Nat → Nat} {n i room : Nat} {t : DescTable} (m : Nat)
    (hpage : ∀ j, j < i + n → (page (j / 128)).map (· + 32 * (j % 128)) = some (at' j))
    (hpass : ∀ j, i ≤ j → j < i + n → descFails s c l j (at' j) = none) (hroom : (validOf s at' (List.range' i n)).length ≤ room) :
    sealFrom s c l page (n + m) i room t =
      sealFrom s c l page m (i + n) (room - (validOf s at' (List.range' i n)).length) (t ++ validOf s at' (List.range' i n)) := by
  induction n generalizing i room t with
  | zero => simp [validOf]
  | succ n ih =>
    obtain ⟨p, hp, hat⟩ := Option.map_eq_some_iff.mp (hpage i (by omega))
    have hnext := fun room t hroom => ih (i := i + 1) (room := room) (t := t) (fun j hj => hpage j (by omega))
      (fun j hij hj => hpass j (by omega) (by omega)) hroom
    have hindex : i + 1 + n = i + (n + 1) := by omega
    rw [show n + 1 + m = (n + m) + 1 by omega]
    simp only [sealFrom, hp, hat, hpass i le_rfl (by omega)]
    cases hi : descAt s (at' i) with
    | none =>
      have hskip : validOf s at' (List.range' i (n + 1)) = validOf s at' (List.range' (i + 1) n) := by simp [validOf, List.range'_succ, hi]
      rw [hskip] at hroom ⊢
      rw [← hindex]
      exact hnext room t hroom
    | some d =>
      have hjoin : validOf s at' (List.range' i (n + 1)) = (i, d) :: validOf s at' (List.range' (i + 1) n) := by
        simp [validOf, List.range'_succ, hi]
      rw [hjoin, List.length_cons] at hroom ⊢
      obtain ⟨r, rfl⟩ : ∃ r, room = r + 1 := ⟨room - 1, by omega⟩
      simp only [hnext r _ (by omega), hindex, Nat.add_sub_add_right, List.append_assoc, List.singleton_append]

/-- The checks end at a descriptor that fails. -/
theorem sealFrom_fails {s : State} {c l : Nat} {page : Nat → Option Nat} {at' : Nat → Nat} {m i room r : Nat} {t : DescTable}
    (hpage : (page (i / 128)).map (· + 32 * (i % 128)) = some (at' i)) (hfails : descFails s c l i (at' i) = some r) :
    sealFrom s c l page (m + 1) i room t = .error (r, i) := by
  obtain ⟨p, hp, hat⟩ := Option.map_eq_some_iff.mp hpage
  simp only [sealFrom, hp, hat, hfails]

/-! ### What a table answers (R171) -/

theorem find_validOf (s : State) (at' : Nat → Nat) (is : List Nat) (i : Nat) :
    ((validOf s at' is).find? (fun e => e.1 = i)).map (·.2) = if i ∈ is then descAt s (at' i) else none := by
  induction is with
  | nil => rfl
  | cons j is ih =>
    by_cases hj : j = i
    · subst hj
      cases hd : descAt s (at' j) with
      | none => simpa [validOf, hd] using ih
      | some d => simp [validOf, hd]
    · have hne : i ≠ j := Ne.symm hj
      cases hd : descAt s (at' j) with
      | none => simpa [validOf, hd, hne] using ih
      | some d => simpa [validOf, hd, hj, hne] using ih

theorem find_put_same {α : Type} (n : Nat) (x : α) (t : Tbl α) : (put n x t).find? (fun e => e.1 = n) = some (n, x) := by
  induction t with
  | nil => simp [put]
  | cons e t ih =>
    obtain ⟨j, y⟩ := e
    simp only [put]
    by_cases hlt : n < j
    · simp [hlt]
    by_cases heq : n = j
    · simp [heq]
    · simp [hlt, heq, Ne.symm heq, ih]

/-- The state in which the table `t` is sealed at level `l` of a core. -/
def withTable (s : State) (c l : Nat) (t : DescTable) : State :=
  match l with
  | 1 => match (getCore s c).cell with | some x => updCell s x (fun y => { y with tabs := put (cluOf c) t y.tabs }) | none => s
  | 2 => updCore s c (fun k => { k with tab2 := some t })
  | _ => updCore s c (fun k => { k with tab3 := some t })

/-- A sealed table serves its level, at level 1 for the cell that runs. -/
theorem tableOf_withTable {s : State} {c l : Nat} (t : DescTable) (hlow : 1 ≤ l) (hhigh : l ≤ 3) (hS : isS c = true → l = 3)
    (hcell : l = 1 → (getCore s c).cell ≠ none) : tableOf (withTable s c l t) c l = some t := by
  obtain rfl | rfl | rfl : l = 1 ∨ l = 2 ∨ l = 3 := by omega
  · obtain ⟨x, hx⟩ := Option.ne_none_iff_exists'.mp (hcell rfl)
    have hA : isS c = false := Bool.eq_false_iff.mpr fun h => absurd (hS h) (by decide)
    have hcore : ∀ f, getCore (updCell s x f) c = getCore s c := fun _ => rfl
    simp only [tableOf, withTable, tab1, hA, hx, hcore, getCell_updCell, find_put_same, Option.map_some, Bool.false_eq_true, if_false]
  · simp only [tableOf, withTable, getCore_updCore]
  · simp only [tableOf, withTable, getCore_updCore]

theorem descOf_withTable {s : State} {c l : Nat} (t : DescTable) (hlow : 1 ≤ l) (hhigh : l ≤ 3) (hS : isS c = true → l = 3)
    (hcell : l = 1 → (getCore s c).cell ≠ none) (i : Nat) :
    descOf (withTable s c l t) c l i = (t.find? (fun e => e.1 = i)).map (·.2) := by
  rw [descOf, tableOf_withTable t hlow hhigh hS hcell, Option.bind_some]

/-! ### A seal (R172) -/

/-- Where page `i` of the table that a core names for level `l` lies. -/
def tablePage (s : State) (c l i : Nat) : Option Nat :=
  match probe s c l ((dtbOf (getCore s c) l).toNat + 4096 * i) .load with | .ok (pa, _) => some pa | .error _ => none

theorem tablePage_of_probe {s : State} {c l i pa mt : Nat} (h : probe s c l ((dtbOf (getCore s c) l).toNat + 4096 * i) .load = .ok (pa, mt)) :
    tablePage s c l i = some pa := by
  rw [tablePage, h]

/-- How many descriptors a table of level `l` may hold. -/
def sealRoom (s : State) (c l : Nat) : Nat := 8192 - storeUsed s c + ((tableOf s c l).map List.length).getD 0

theorem sealTable_misaligned {s : State} {c l : Nat} (h : (dtbOf (getCore s c) l).toNat % 8192 ≠ 0) : sealTable s c l = (s, 1) := if_pos h

section
variable {s : State} {c l : Nat} (haligned : (dtbOf (getCore s c) l).toNat % 8192 = 0)
include haligned

theorem sealTable_of_fails {r i : Nat} (h : sealFrom s c l (tablePage s c l) 256 0 (sealRoom s c l) [] = .error (r, i)) :
    sealTable s c l = (s, BitVec.ofNat 64 (r + 256 * i)) := by
  refine (if_neg (not_not.mpr haligned)).trans ?_
  generalize hr : sealFrom s c l _ 256 0 _ [] = x
  obtain rfl : x = .error (r, i) := hr.symm.trans h
  rfl

theorem sealTable_of_passes {t : DescTable} (h : sealFrom s c l (tablePage s c l) 256 0 (sealRoom s c l) [] = .ok t) :
    sealTable s c l = (withTable s c l t, 0) := by
  refine (if_neg (not_not.mpr haligned)).trans ?_
  generalize hr : sealFrom s c l _ 256 0 _ [] = x
  obtain rfl : x = .ok t := hr.symm.trans h
  rfl

end

/-- Where descriptor `i` of a table lies whose pages are at `p0` and `p1`. -/
def descAddr (p0 p1 i : Nat) : Nat := (if i < 128 then p0 else p1) + 32 * (i % 128)

section
variable {s : State} {c l p0 m0 p1 m1 : Nat} (haligned : (dtbOf (getCore s c) l).toNat % 8192 = 0)
  (hfirst : probe s c l (dtbOf (getCore s c) l).toNat .load = .ok (p0, m0))
  (hsecond : probe s c l ((dtbOf (getCore s c) l).toNat + 4096) .load = .ok (p1, m1))
include hfirst hsecond

theorem tablePage_descAddr {i : Nat} (hi : i < 256) : (tablePage s c l (i / 128)).map (· + 32 * (i % 128)) = some (descAddr p0 p1 i) := by
  by_cases hlow : i < 128
  · rw [show i / 128 = 0 by omega, tablePage_of_probe (i := 0) hfirst, descAddr, if_pos hlow, Option.map_some]
  · rw [show i / 128 = 1 by omega, tablePage_of_probe (i := 1) hsecond, descAddr, if_neg hlow, Option.map_some]

/-- The first `n` descriptors, when none fails and the valid ones fit. -/
theorem sealFrom_first {n : Nat} (m : Nat) (hn : n ≤ 256) (hpass : ∀ i, i < n → descFails s c l i (descAddr p0 p1 i) = none)
    (hroom : (validOf s (descAddr p0 p1) (List.range n)).length ≤ sealRoom s c l) :
    ∃ room, sealFrom s c l (tablePage s c l) (n + m) 0 (sealRoom s c l) [] =
      sealFrom s c l (tablePage s c l) m n room (validOf s (descAddr p0 p1) (List.range n)) := by
  rw [List.range_eq_range'] at hroom ⊢
  have hrun := sealFrom_passes (t := []) m (fun j hj => tablePage_descAddr hfirst hsecond (i := j) (by omega))
    (fun j _ hj => hpass j (by omega)) hroom
  rw [Nat.zero_add, List.nil_append] at hrun
  exact ⟨_, hrun⟩

include haligned

theorem sealTable_seals (hpass : ∀ i, i < 256 → descFails s c l i (descAddr p0 p1 i) = none)
    (hroom : (validOf s (descAddr p0 p1) (List.range 256)).length ≤ sealRoom s c l) :
    sealTable s c l = (withTable s c l (validOf s (descAddr p0 p1) (List.range 256)), 0) := by
  obtain ⟨room, hrun⟩ := sealFrom_first hfirst hsecond 0 le_rfl hpass hroom
  exact sealTable_of_passes haligned hrun

theorem sealTable_fails {i r : Nat} (hi : i < 256) (hfails : descFails s c l i (descAddr p0 p1 i) = some r)
    (hpass : ∀ j, j < i → descFails s c l j (descAddr p0 p1 j) = none)
    (hroom : (validOf s (descAddr p0 p1) (List.range i)).length ≤ sealRoom s c l) :
    sealTable s c l = (s, BitVec.ofNat 64 (r + 256 * i)) := by
  obtain ⟨room, hrun⟩ := sealFrom_first hfirst hsecond (255 - i + 1) (by omega) hpass hroom
  rw [show i + (255 - i + 1) = 256 by omega, sealFrom_fails (tablePage_descAddr hfirst hsecond hi) hfails] at hrun
  exact sealTable_of_fails haligned hrun

end

/-- Settles O25: the checks run over the descriptors in order, and what they have taken is the table. -/
theorem sealChecksEveryDescriptor : Obligations.SealChecksEveryDescriptor := by
  refine fun s c l hlow hhigh hS => ⟨fun hmis => ?_, fun p0 m0 p1 m1 haligned hfirst hsecond => ⟨fun hpass hroom hcell => ?_, fun i r hi hfails hpass hroom => ?_⟩⟩
  · exact sealTable_misaligned hmis
  · have hfits := (length_validOf s (descAddr p0 p1) (List.range 256)).trans_le hroom
    rw [sealTable_seals haligned hfirst hsecond hpass hfits]
    refine ⟨rfl, fun i => ?_⟩
    rw [descOf_withTable _ hlow hhigh hS hcell, find_validOf]
    simp only [List.mem_range]
    rfl
  · exact sealTable_fails haligned hfirst hsecond hi hfails hpass ((length_validOf s (descAddr p0 p1) (List.range i)).trans_le hroom)

end Sys2Proof.Machine
end
